-- ==== Sys2Proof/Word.lean ====
section
/-! DEFINITION. The word types of the Alaposa architecture (R6, R20), and the plain names that instructions and steps are
made of: strands, tags, classes, cores, and the operands of steps that have no word. -/

namespace Sys2Proof

/-- A byte of memory (R6). -/
abbrev Byte := BitVec 8

/-- One instruction word, one lane, one format table entry (R41, R193, R84). -/
abbrev W32 := BitVec 32

/-- A scalar register, a pointer, a queue entry (R20, R134, R30). -/
abbrev W64 := BitVec 64

/-- A brand register (R20, R169). -/
abbrev W128 := BitVec 128

/-- A finite table: entries by number, numbers strictly rising. A number that is not listed holds the
table's own default, named where the table is read. -/
abbrev Tab (α : Type) := List (Nat × α)

/-- A strand of a core (R12). -/
inductive Strand
  | C
  | A
  | X
deriving DecidableEq, Repr

/-- The strand tag of a word, bits [31:30] (R12). -/
inductive Tag
  | C
  | A
  | X
  | W
deriving DecidableEq, Repr

/-- The engine class of a core (R3). -/
inductive Cls
  | cube
  | vec
  | sparse
  | sort
  | mem
  | drover
deriving DecidableEq, Repr

/-- A core of the package: its die's site (row x 10 + column, R497) and its index on the die (R191). -/
structure CoreId where
  site : Nat
  core : Nat
deriving DecidableEq, Repr

/-- The kinds of atomic step (R155): `AMO` and `AMOW` by FN, compare and swap, `AMOF` by FN. -/
inductive AtomOp
  | amo (fn : BitVec 3)
  | amow (fn : BitVec 3)
  | cas
  | casw
  | amof (fn : BitVec 3)
deriving DecidableEq, Repr

/-- What a requester outside the package asks of a memory address (R454, R459): the bytes read, the bytes
written, or an atomic step. -/
inductive MemReq
  | read (size : Nat)
  | write (data : List Byte)
  | atomic (op : AtomOp) (operand : BitVec 64) (expected : BitVec 64)
deriving DecidableEq, Repr

/-- What a request from outside is answered: nothing yet, bytes, a refusal, that the data are bad (R454, R459, R461), a failure code, or the
id of an uploaded graph (R371). -/
inductive Reply
  | nothing
  | data (bytes : List Byte)
  | refused
  | bad
  | failed (code : Nat)
  | graph (gid : Nat)
deriving DecidableEq, Repr

/-- A launch trigger (R388): the graph, the patch list pointer with the ASID it is read in (0 for no list),
the fold mask the trigger carries (none: the graph's own), the trigger time of a timed launch (R391), the
completion signal's pointer (0 for none) with its ASID, the buffer list (R406), and the queue that the request came by (drover and QCB). -/
structure LaunchReq where
  gid     : Nat
  patch   : W64
  asid    : Nat
  fold    : Option Nat
  mask    : Option Nat
  time    : Option Nat
  signal  : W64
  buffers : List W32
  queue   : Option (Nat × Nat)
deriving DecidableEq, Repr

/-- An element of a partial result of a collective (R465): a code of 32 bits, an exact accumulator by its value in units of 2^-160 and
its status bits, or an exact number: NaN, an infinity, or a sign, magnitude and power of two. -/
inductive CollVal
  | code (v : BitVec 32)
  | acc (v : Int) (st : BitVec 4)
  | nan
  | inf (neg : Bool)
  | num (neg : Bool) (m : Nat) (e : Int)
deriving DecidableEq, Repr

/-- What the members of a collective have to agree on (R467): TYPE, OP, MODE, the input and output formats and the element count. -/
structure CollKind where
  type : Nat
  op   : Nat
  mode : Nat
  inF  : BitVec 32
  outF : BitVec 32
  n    : Nat
deriving DecidableEq, Repr

/-- What reaches a member of a collective (R465, R467): what a child sends, the result on its way down, or the elements of a package that are
gathered, each with what its sender runs; or that another member has found a disagreement or has met a memory fault. -/
inductive CollPart
  | child (port : Nat) (kind : CollKind) (vals : List CollVal)
  | root (kind : CollKind) (vals : List CollVal)
  | gathered (pkg : Nat) (kind : CollKind) (bytes : List Byte)
  | mismatch
  | memFault
deriving DecidableEq, Repr

/-- What a soft error strikes (R273, R296, R323): a word of a cluster or die scratchpad, an L2 piece of a die, a line of memory, or a
counter block of an encrypted stack; the last two by the number that their home has for them (log 43). -/
inductive ErrTarget
  | cspWord (site cluster word : Nat)
  | dspWord (site word : Nat)
  | l2Piece (site piece : Nat)
  | line (line : Nat)
  | counter (block : Nat)
deriving DecidableEq, Repr

/-- The operand of a step that has no word: which agent makes it, and what the outside of the model supplies with it. A step reads
the fields that its rule names and ignores the rest. -/
structure EvArg where
  core   : CoreId
  strand : Option Strand
  site   : Nat
  n      : Nat
  m      : Nat
  k      : Nat
  fold   : Option Nat
  flag   : Bool
  word   : W64
  word2  : W64
  nonce  : BitVec 256
  temp   : Int
  bytes  : List Byte
  list   : List Nat
  req    : MemReq
  launch : LaunchReq
  op     : AtomOp
  part   : CollPart
  target : ErrTarget
deriving DecidableEq, Repr

/-- A launch request of nothing. -/
def LaunchReq.zero : LaunchReq :=
  { gid := 0, patch := 0, asid := 0, fold := none, mask := none, time := none, signal := 0, buffers := [], queue := none }

/-- The operand with every field at zero. -/
def EvArg.zero : EvArg :=
  { core := ⟨0, 0⟩, strand := none, site := 0, n := 0, m := 0, k := 0, fold := none, flag := false, word := 0, word2 := 0,
    nonce := 0, temp := 0, bytes := [], list := [], req := .read 8, launch := LaunchReq.zero, op := .cas,
    part := .mismatch, target := .line 0 }

end Sys2Proof
end

