-- ==== Sys2Proof/Syntax.lean ====
section
/-! DEFINITION. The steps of the part as syntax: one constructor of `Instr` for each row of the opcode table. The first 208
constructors are the instruction words (R41 to R52), with the fields the table gives each row; the other 118 are the part's own
steps, which have no word: which agent makes such a step, and what the outside world supplies with it, stands in the
state's operand `ev`. -/

namespace Sys2Proof

/-- One constructor for each row of the opcode table. -/
inductive Instr
  /-- NOP (R126): Does nothing; a W-tagged NOP closes its span. -/
  | nop (t : Tag)
  /-- ADD (R102): Adds SA and SB over 64 bits, wrapping or saturating by FN. -/
  | add (t : Tag) (d : Bool) (r : BitVec 6) (a : BitVec 6) (b : BitVec 6) (f : BitVec 3)
  /-- ADDI (R102): Adds the sign-extended IMM9 to SA, wrapping. -/
  | addi (t : Tag) (d : Bool) (r : BitVec 6) (a : BitVec 6) (i : BitVec 9)
  /-- SUB (R102): Subtracts SB from SA over 64 bits, wrapping or saturating by FN. -/
  | sub (t : Tag) (d : Bool) (r : BitVec 6) (a : BitVec 6) (b : BitVec 6) (f : BitVec 3)
  /-- MUL (R103): Forms the 128-bit product and returns its low or high half by FN. -/
  | mul (t : Tag) (d : Bool) (r : BitVec 6) (a : BitVec 6) (b : BitVec 6) (f : BitVec 3)
  /-- DIV (R104): Returns the signed or unsigned quotient or remainder without faulting. -/
  | div (t : Tag) (d : Bool) (r : BitVec 6) (a : BitVec 6) (b : BitVec 6) (f : BitVec 3)
  /-- AND (R105): Bitwise AND of SA and SB. -/
  | andK (t : Tag) (d : Bool) (r : BitVec 6) (a : BitVec 6) (b : BitVec 6)
  /-- ANDI (R105): Bitwise AND of SA and the sign-extended IMM9. -/
  | andi (t : Tag) (d : Bool) (r : BitVec 6) (a : BitVec 6) (i : BitVec 9)
  /-- OR (R105): Bitwise OR of SA and SB. -/
  | orK (t : Tag) (d : Bool) (r : BitVec 6) (a : BitVec 6) (b : BitVec 6)
  /-- ORI (R105): Bitwise OR of SA and the sign-extended IMM9. -/
  | ori (t : Tag) (d : Bool) (r : BitVec 6) (a : BitVec 6) (i : BitVec 9)
  /-- XOR (R105): Bitwise XOR of SA and SB. -/
  | xorK (t : Tag) (d : Bool) (r : BitVec 6) (a : BitVec 6) (b : BitVec 6)
  /-- XORI (R105): Bitwise XOR of SA and the sign-extended IMM9. -/
  | xori (t : Tag) (d : Bool) (r : BitVec 6) (a : BitVec 6) (i : BitVec 9)
  /-- SHL (R105): Shifts SA left by SB mod 64. -/
  | shl (t : Tag) (d : Bool) (r : BitVec 6) (a : BitVec 6) (b : BitVec 6)
  /-- SHLI (R105): Shifts SA left by IMM9[5:0]. -/
  | shli (t : Tag) (d : Bool) (r : BitVec 6) (a : BitVec 6) (i : BitVec 9)
  /-- SHR (R105): Shifts SA right logically by SB mod 64. -/
  | shr (t : Tag) (d : Bool) (r : BitVec 6) (a : BitVec 6) (b : BitVec 6)
  /-- SHRI (R105): Shifts SA right logically by IMM9[5:0]. -/
  | shri (t : Tag) (d : Bool) (r : BitVec 6) (a : BitVec 6) (i : BitVec 9)
  /-- SRA (R105): Shifts SA right arithmetically by SB mod 64. -/
  | sra (t : Tag) (d : Bool) (r : BitVec 6) (a : BitVec 6) (b : BitVec 6)
  /-- SRAI (R105): Shifts SA right arithmetically by IMM9[5:0]. -/
  | srai (t : Tag) (d : Bool) (r : BitVec 6) (a : BitVec 6) (i : BitVec 9)
  /-- MIN (R105): Returns the lesser operand, signed or unsigned by FN. -/
  | minK (t : Tag) (d : Bool) (r : BitVec 6) (a : BitVec 6) (b : BitVec 6) (f : BitVec 3)
  /-- MAX (R105): Returns the greater operand, signed or unsigned by FN. -/
  | maxK (t : Tag) (d : Bool) (r : BitVec 6) (a : BitVec 6) (b : BitVec 6) (f : BitVec 3)
  /-- CMP (R106): Sets a predicate to the truth of a condition on SA and SB. -/
  | cmp (t : Tag) (d : Bool) (p : BitVec 3) (a : BitVec 6) (b : BitVec 6) (k : BitVec 3)
  /-- CMPI (R106): Sets a predicate to the truth of a condition on SA and the sign-extended IMM9. -/
  | cmpi (t : Tag) (d : Bool) (k : BitVec 3) (p : BitVec 3) (a : BitVec 6) (i : BitVec 9)
  /-- SEL (R107): Writes SA if predicate cFN is true and SB otherwise. -/
  | sel (t : Tag) (d : Bool) (r : BitVec 6) (a : BitVec 6) (b : BitVec 6) (f : BitVec 3)
  /-- LI (R108): Writes IMM16 sign-extended to 64 bits. -/
  | li (t : Tag) (r : BitVec 6) (i : BitVec 16)
  /-- LSI (R108): Writes (DS << 16) OR IMM16. -/
  | lsi (t : Tag) (r : BitVec 6) (i : BitVec 16)
  /-- BFX (R109): Extracts a bit field of SA described by SB, zero- or sign-extended. -/
  | bfx (t : Tag) (d : Bool) (r : BitVec 6) (a : BitVec 6) (b : BitVec 6) (f : BitVec 3)
  /-- BFI (R109): Inserts SA into a bit field of register DS described by SB. -/
  | bfi (t : Tag) (d : Bool) (r : BitVec 6) (a : BitVec 6) (b : BitVec 6)
  /-- BITC (R110): Counts or reorders the bits or bytes of SA by FN. -/
  | bitc (t : Tag) (d : Bool) (r : BitVec 6) (a : BitVec 6) (f : BitVec 3)
  /-- PLOG (R111): Sets a predicate to a logical combination of two predicates. -/
  | plog (t : Tag) (d : Bool) (r : BitVec 3) (a : BitVec 3) (b : BitVec 3) (f : BitVec 3)
  /-- PMOV (R112): Copies the predicate byte to a register or sets c0-c6 from a register. -/
  | pmov (t : Tag) (d : Bool) (r : BitVec 6) (a : BitVec 6) (f : BitVec 3)
  /-- FADD (R114): FP32 add rounded once under FN. -/
  | fadd (t : Tag) (d : Bool) (r : BitVec 6) (a : BitVec 6) (b : BitVec 6) (f : BitVec 3)
  /-- FMUL (R114): FP32 multiply rounded once under FN. -/
  | fmul (t : Tag) (d : Bool) (r : BitVec 6) (a : BitVec 6) (b : BitVec 6) (f : BitVec 3)
  /-- FFMA (R114): FP32 fused multiply-add into DS, rounded once. -/
  | ffma (t : Tag) (d : Bool) (r : BitVec 6) (a : BitVec 6) (b : BitVec 6) (f : BitVec 3)
  /-- FMNX (R115): FP32 IEEE minimum, maximum, minimumNumber or maximumNumber. -/
  | fmnx (t : Tag) (d : Bool) (r : BitVec 6) (a : BitVec 6) (b : BitVec 6) (f : BitVec 3)
  /-- FCMP (R116): Sets a predicate to an FP32 comparison of SA and SB. -/
  | fcmp (t : Tag) (d : Bool) (p : BitVec 3) (a : BitVec 6) (b : BitVec 6) (f : BitVec 3)
  /-- FCVT (R117): Converts SA between FP32, integers, BF16 and FP16. -/
  | fcvt (t : Tag) (d : Bool) (r : BitVec 6) (a : BitVec 6) (f : BitVec 3)
  /-- BR (R118): Branches by DISP18 when the condition holds; C resolves W-tagged ones through BQ. -/
  | br (t : Tag) (c : BitVec 4) (i : BitVec 18)
  /-- CALL (R119): Pushes the next index on the link stack and transfers control. -/
  | call (t : Tag) (i : BitVec 18)
  /-- RET (R119): Pops the link stack and transfers control to the popped index. -/
  | ret (t : Tag)
  /-- JMPR (R120): Transfers control to the word index held in SA. -/
  | jmpr (t : Tag) (a : BitVec 6)
  /-- LOOP (R121): Opens a counted hardware loop of the given level, or skips the body for a zero count. -/
  | loop (l : BitVec 2) (a : BitVec 6) (i : BitVec 14)
  /-- LBRK (R123): Leaves a loop level early when C's condition holds, discarding closing-instance entries. -/
  | lbrk (c : BitVec 4) (l : BitVec 2)
  /-- LCNT (R125): Writes the current iteration index of a loop level. -/
  | lcnt (t : Tag) (d : Bool) (r : BitVec 6) (f : BitVec 3)
  /-- SLIP (R127): Sets the slip window when X retires it. -/
  | slip (i : BitVec 10)
  /-- PUSH (R128): Appends a source value to a named strand queue. -/
  | push (t : Tag) (a : BitVec 6) (q : BitVec 10)
  /-- POP (R128): Removes the oldest entry of a named strand queue and writes it. -/
  | pop (t : Tag) (a : BitVec 6) (q : BitVec 10)
  /-- ALIGN (R126): Places a marker so later loads of the strand follow its earlier stores. -/
  | align (t : Tag)
  /-- FMTC (R129): Writes FMTCTL[9:0], changing format slot selection. -/
  | fmtc (t : Tag) (i : BitVec 10)
  /-- TIME (R130): Samples device time or the team run-cycle count. -/
  | time (t : Tag) (r : BitVec 6) (i : BitVec 10)
  /-- WAITT (R131): Holds the strand until device time reaches an absolute or relative target. -/
  | waitt (t : Tag) (a : BitVec 6) (i : BitVec 10)
  /-- EXIT (R132): Ends the strand's part of the instance. -/
  | exit
  /-- TRAP (R133): Retires and raises fault TRAP with the immediate code and address. -/
  | trap (t : Tag) (a : BitVec 6) (i : BitVec 10)
  /-- LDB (R141): Loads a sign-extended byte. -/
  | ldb (t : Tag) (d : Bool) (r : BitVec 6) (a : BitVec 6) (p : BitVec 2) (o : BitVec 7)
  /-- LDH (R141): Loads a sign-extended halfword. -/
  | ldh (t : Tag) (d : Bool) (r : BitVec 6) (a : BitVec 6) (p : BitVec 2) (o : BitVec 7)
  /-- LDW (R141): Loads a sign-extended word. -/
  | ldw (t : Tag) (d : Bool) (r : BitVec 6) (a : BitVec 6) (p : BitVec 2) (o : BitVec 7)
  /-- LDD (R141): Loads a doubleword. -/
  | ldd (t : Tag) (d : Bool) (r : BitVec 6) (a : BitVec 6) (p : BitVec 2) (o : BitVec 7)
  /-- LDBZ (R141): Loads a zero-extended byte. -/
  | ldbz (t : Tag) (d : Bool) (r : BitVec 6) (a : BitVec 6) (p : BitVec 2) (o : BitVec 7)
  /-- LDHZ (R141): Loads a zero-extended halfword. -/
  | ldhz (t : Tag) (d : Bool) (r : BitVec 6) (a : BitVec 6) (p : BitVec 2) (o : BitVec 7)
  /-- LDWZ (R141): Loads a zero-extended word. -/
  | ldwz (t : Tag) (d : Bool) (r : BitVec 6) (a : BitVec 6) (p : BitVec 2) (o : BitVec 7)
  /-- STB (R142): Stores the low byte of the datum. -/
  | stb (t : Tag) (d : Bool) (v : BitVec 6) (a : BitVec 6) (p : BitVec 2) (o : BitVec 7)
  /-- STH (R142): Stores the low halfword of the datum. -/
  | sth (t : Tag) (d : Bool) (v : BitVec 6) (a : BitVec 6) (p : BitVec 2) (o : BitVec 7)
  /-- STW (R142): Stores the low word of the datum. -/
  | stw (t : Tag) (d : Bool) (v : BitVec 6) (a : BitVec 6) (p : BitVec 2) (o : BitVec 7)
  /-- STD (R142): Stores the doubleword datum, from sdq when D is 1 on A. -/
  | std (t : Tag) (d : Bool) (v : BitVec 6) (a : BitVec 6) (p : BitVec 2) (o : BitVec 7)
  /-- LDF (R146): Waits for a scratchpad word to be full, reads it and optionally marks it empty. -/
  | ldf (t : Tag) (d : Bool) (r : BitVec 6) (a : BitVec 6) (p : BitVec 2) (o : BitVec 7)
  /-- STF (R146): Writes a scratchpad word and marks it full, waiting for empty under POL 0. -/
  | stf (t : Tag) (d : Bool) (v : BitVec 6) (a : BitVec 6) (p : BitVec 2) (o : BitVec 7)
  /-- FEFILL (R147): Marks a range of scratchpad words empty or full and counts the changes. -/
  | fefill (t : Tag) (d : Bool) (r : BitVec 6) (a : BitVec 6) (b : BitVec 6) (f : BitVec 3)
  /-- CPY (R148): Checks and starts an asynchronous copy, returning its ticket. -/
  | cpy (t : Tag) (r : BitVec 6) (a : BitVec 6) (b : BitVec 6) (f : BitVec 3)
  /-- CPYW (R153): Holds the strand until a ticket's copy, or every copy, has completed or failed. -/
  | cpyw (t : Tag) (a : BitVec 6) (i : BitVec 10)
  /-- CPYS (R154): Writes a status snapshot of a copy ticket. -/
  | cpys (t : Tag) (r : BitVec 6) (a : BitVec 6)
  /-- AMO (R155): Indivisible 64-bit read-modify-write returning the old value. -/
  | amo (t : Tag) (d : Bool) (r : BitVec 6) (a : BitVec 6) (b : BitVec 6) (f : BitVec 3)
  /-- AMOW (R155): Indivisible 32-bit read-modify-write returning the sign-extended old value. -/
  | amow (t : Tag) (d : Bool) (r : BitVec 6) (a : BitVec 6) (b : BitVec 6) (f : BitVec 3)
  /-- CAS (R155): 64-bit compare-and-swap against Reg(DS). -/
  | cas (t : Tag) (r : BitVec 6) (a : BitVec 6) (b : BitVec 6)
  /-- CASW (R155): 32-bit compare-and-swap against Reg(DS)[31:0]. -/
  | casw (t : Tag) (r : BitVec 6) (a : BitVec 6) (b : BitVec 6)
  /-- AMOF (R155): Indivisible floating add, max or min on a 32-bit location. -/
  | amof (t : Tag) (d : Bool) (r : BitVec 6) (a : BitVec 6) (b : BitVec 6) (f : BitVec 3)
  /-- FENCE (R158): Orders the strand's own accesses as acquire, release or full at a scope. -/
  | fence (t : Tag) (k : BitVec 2) (s : BitVec 3)
  /-- XFENCE (R159): Holds until from-path accesses are performed before any to-path access starts. -/
  | xfence (t : Tag) (m : BitVec 6) (n : BitVec 6) (s : BitVec 3)
  /-- PREF (R160): Asks for a line to be brought toward a level without changing any value. -/
  | pref (t : Tag) (d : Bool) (a : BitVec 6) (p : BitVec 2) (o : BitVec 7)
  /-- FJOIN (R161): Joins the node's flock or a flock named by id. -/
  | fjoin (a : BitVec 6) (i : BitVec 10)
  /-- FLEAVE (R161): Leaves the team's flock. -/
  | fleave
  /-- FBAR (R163): Arrives at a flock barrier episode with a release and waits for its completion. -/
  | fbar (a : BitVec 6)
  /-- FRED (R164): Contributes a value to a flock reduction episode and receives the result. -/
  | fred (d : Bool) (r : BitVec 6) (a : BitVec 6) (f : BitVec 3)
  /-- XPH (R165): Arrives at a transfer-phase episode, starting the phase for X. -/
  | xph
  /-- XMIT (R166): Drives 64 bits onto a transfer chain at an exact phase cycle. -/
  | xmit (a : BitVec 6) (i : BitVec 9) (c : BitVec 1)
  /-- MSEL (R166): Captures the value on a transfer chain at an exact phase cycle. -/
  | msel (r : BitVec 6) (i : BitVec 9) (c : BitVec 1)
  /-- XEND (R167): Waits for every member and the chain to drain, ending the phase and raising XCOLLIDE on collision. -/
  | xend
  /-- BOPEN (R170): Maps a brand's buffer into the team's ASID and returns its pointer. -/
  | bopen (d : Bool) (r : BitVec 6) (a : BitVec 4)
  /-- BGIVE (R171): Places a brand in an output slot and nulls the register. -/
  | bgive (a : BitVec 4) (i : BitVec 3)
  /-- BDUP (R171): Makes a counted reference with masked rights in a null brand register. -/
  | bdup (a : BitVec 4) (b : BitVec 4) (i : BitVec 6)
  /-- BDROP (R171): Drops a brand reference and nulls the register. -/
  | bdrop (a : BitVec 4)
  /-- BINFO (R170): Returns a brand's buffer length, rights, id or generation. -/
  | binfo (d : Bool) (r : BitVec 6) (a : BitVec 4) (f : BitVec 3)
  /-- NPARAM (R172): Writes a node parameter word. -/
  | nparam (t : Tag) (d : Bool) (r : BitVec 6) (i : BitVec 9)
  /-- INST (R172): Writes instance index, count, node slot, launch id, fold or flock id. -/
  | inst (t : Tag) (d : Bool) (r : BitVec 6) (f : BitVec 3)
  /-- SIGNAL (R173): Releases, then stores or adds a value at a DEV or HOST address. -/
  | signal (a : BitVec 6) (b : BitVec 6) (i : BitVec 10)
  /-- CFR (R174): Reads a configuration register. -/
  | cfr (t : Tag) (r : BitVec 6) (i : BitVec 10)
  /-- CFW (R174): Writes a configuration register, such as WAITTH clamped to WAITMAX. -/
  | cfw (t : Tag) (a : BitVec 6) (i : BitVec 10)
  /-- HALT (R175): Drains the firmware core's stores and stops its strands. -/
  | halt
  /-- TLBI (R176): Sends translation invalidation to every translating die and counts acknowledgements. -/
  | tlbi (a : BitVec 6) (b : BitVec 6) (i : BitVec 10)
  /-- ERET (R177): Ends exception entry, restoring PCs from EPC and clearing EXA. -/
  | eret
  /-- VADD (R198): Element-wise floating add. -/
  | vadd (d : Bool) (r : BitVec 6) (a : BitVec 6) (b : BitVec 6) (s : BitVec 3)
  /-- VSUB (R198): Element-wise floating subtract. -/
  | vsub (d : Bool) (r : BitVec 6) (a : BitVec 6) (b : BitVec 6) (s : BitVec 3)
  /-- VMUL (R198): Element-wise floating multiply. -/
  | vmul (d : Bool) (r : BitVec 6) (a : BitVec 6) (b : BitVec 6) (s : BitVec 3)
  /-- VFMA (R198): Element-wise fused multiply-add into DS. -/
  | vfma (d : Bool) (r : BitVec 6) (a : BitVec 6) (b : BitVec 6) (s : BitVec 3)
  /-- VFNMA (R198): Element-wise fused negated multiply-add into DS. -/
  | vfnma (d : Bool) (r : BitVec 6) (a : BitVec 6) (b : BitVec 6) (s : BitVec 3)
  /-- VMIN (R198): Element-wise IEEE minimum. -/
  | vmin (d : Bool) (r : BitVec 6) (a : BitVec 6) (b : BitVec 6) (s : BitVec 3)
  /-- VMAX (R198): Element-wise IEEE maximum. -/
  | vmax (d : Bool) (r : BitVec 6) (a : BitVec 6) (b : BitVec 6) (s : BitVec 3)
  /-- VUNA (R199): Element-wise unary operation selected by raw SB. -/
  | vuna (d : Bool) (r : BitVec 6) (a : BitVec 6) (b : BitVec 6) (s : BitVec 3)
  /-- VCMP (R200): Sets mask bits from an FP32 lane comparison. -/
  | vcmp (d : Bool) (k : BitVec 3) (m : BitVec 3) (a : BitVec 6) (b : BitVec 6) (s : BitVec 3)
  /-- VSEL (R201): Selects lanes of SA or SB by the active mask. -/
  | vsel (d : Bool) (r : BitVec 6) (a : BitVec 6) (b : BitVec 6)
  /-- VCVT (R202): Converts elements between the formats of two slots. -/
  | vcvt (d : Bool) (r : BitVec 6) (a : BitVec 6) (b : BitVec 6) (s : BitVec 3)
  /-- VRCP (R199): Element-wise correctly rounded reciprocal. -/
  | vrcp (d : Bool) (r : BitVec 6) (a : BitVec 6) (s : BitVec 3)
  /-- VRSQ (R199): Element-wise correctly rounded reciprocal square root. -/
  | vrsq (d : Bool) (r : BitVec 6) (a : BitVec 6) (s : BitVec 3)
  /-- VEXP2 (R199): Element-wise correctly rounded 2^a. -/
  | vexp2 (d : Bool) (r : BitVec 6) (a : BitVec 6) (s : BitVec 3)
  /-- VLOG2 (R199): Element-wise correctly rounded log2. -/
  | vlog2 (d : Bool) (r : BitVec 6) (a : BitVec 6) (s : BitVec 3)
  /-- VSCL2 (R204): Multiplies FP32 lanes by the exact product of two scale codes. -/
  | vscl2 (d : Bool) (r : BitVec 6) (a : BitVec 6) (b : BitVec 6) (s : BitVec 3)
  /-- VDOT (R203): Forms exact per-group dot products rounded to FP32. -/
  | vdot (d : Bool) (r : BitVec 6) (a : BitVec 6) (b : BitVec 6) (s : BitVec 3)
  /-- VDOTA (R203): Adds exact per-group dot products to DS lanes with one rounding. -/
  | vdota (d : Bool) (r : BitVec 6) (a : BitVec 6) (b : BitVec 6) (s : BitVec 3)
  /-- VRSUM (R205): Sums active FP32 lanes along a fixed pairwise tree. -/
  | vrsum (d : Bool) (r : BitVec 6) (a : BitVec 6) (s : BitVec 3)
  /-- VRMAX (R205): Returns the maximum of active lanes and its lowest lane index. -/
  | vrmax (d : Bool) (r : BitVec 6) (a : BitVec 6) (s : BitVec 3)
  /-- VSCAN (R206): Inclusive FP32 prefix sum in lane order. -/
  | vscan (d : Bool) (r : BitVec 6) (a : BitVec 6) (s : BitVec 3)
  /-- VPERM (R207): Permutes lanes by index. -/
  | vperm (d : Bool) (r : BitVec 6) (a : BitVec 6) (b : BitVec 6)
  /-- VROT (R207): Rotates lanes toward lane 0. -/
  | vrot (d : Bool) (r : BitVec 6) (a : BitVec 6) (b : BitVec 6)
  /-- VBCAST (R207): Broadcasts one lane to every lane. -/
  | vbcast (d : Bool) (r : BitVec 6) (a : BitVec 6) (b : BitVec 6)
  /-- VIADD (R209): Element-wise integer add, wrapping or saturating. -/
  | viadd (d : Bool) (r : BitVec 6) (a : BitVec 6) (b : BitVec 6) (s : BitVec 3)
  /-- VISUB (R209): Element-wise integer subtract. -/
  | visub (d : Bool) (r : BitVec 6) (a : BitVec 6) (b : BitVec 6) (s : BitVec 3)
  /-- VIMUL (R209): Element-wise integer multiply. -/
  | vimul (d : Bool) (r : BitVec 6) (a : BitVec 6) (b : BitVec 6) (s : BitVec 3)
  /-- VAND (R209): Bitwise AND of all lanes. -/
  | vand (d : Bool) (r : BitVec 6) (a : BitVec 6) (b : BitVec 6)
  /-- VOR (R209): Bitwise OR of all lanes. -/
  | vor (d : Bool) (r : BitVec 6) (a : BitVec 6) (b : BitVec 6)
  /-- VXOR (R209): Bitwise XOR of all lanes. -/
  | vxor (d : Bool) (r : BitVec 6) (a : BitVec 6) (b : BitVec 6)
  /-- VSHL (R209): Element-wise left shift. -/
  | vshl (d : Bool) (r : BitVec 6) (a : BitVec 6) (b : BitVec 6) (s : BitVec 3)
  /-- VSHR (R209): Element-wise logical right shift. -/
  | vshr (d : Bool) (r : BitVec 6) (a : BitVec 6) (b : BitVec 6) (s : BitVec 3)
  /-- VSRA (R209): Element-wise arithmetic right shift. -/
  | vsra (d : Bool) (r : BitVec 6) (a : BitVec 6) (b : BitVec 6) (s : BitVec 3)
  /-- VIMNX (R210): Element-wise integer minimum or maximum into DS. -/
  | vimnx (d : Bool) (r : BitVec 6) (a : BitVec 6) (b : BitVec 6) (s : BitVec 3)
  /-- VICMP (R211): Sets mask bits from an integer lane comparison. -/
  | vicmp (d : Bool) (k : BitVec 3) (m : BitVec 3) (a : BitVec 6) (b : BitVec 6) (s : BitVec 3)
  /-- VPACK (R212): Packs the low bits of two registers' lanes into narrow elements. -/
  | vpack (d : Bool) (r : BitVec 6) (a : BitVec 6) (b : BitVec 6) (s : BitVec 3)
  /-- VUNPK (R212): Widens one group of narrow elements into lanes. -/
  | vunpk (d : Bool) (r : BitVec 6) (a : BitVec 6) (b : BitVec 6) (s : BitVec 3)
  /-- LDV (R214): Queued vector load into dq. -/
  | ldv (d : Bool) (a : BitVec 6) (p : BitVec 2) (o : BitVec 7)
  /-- STV (R215): Vector store of one sdq entry. -/
  | stv (a : BitVec 6) (p : BitVec 2) (o : BitVec 7)
  /-- VGATH (R216): Gathers indexed words for active lanes on the STREAM path. -/
  | vgath (d : Bool) (r : BitVec 6) (a : BitVec 6) (b : BitVec 6)
  /-- VSCAT (R217): Scatters active lanes to indexed words in ascending lane order. -/
  | vscat (r : BitVec 6) (a : BitVec 6) (b : BitVec 6)
  /-- VMSET (R213): Sets AMASK to name the active mask. -/
  | vmset (m : BitVec 3)
  /-- VMLOG (R213): Writes a mask from mask logic or from nonzero vector lanes. -/
  | vmlog (d : Bool) (m : BitVec 3) (a : BitVec 6) (b : BitVec 6) (f : BitVec 3)
  /-- VMOV (R207): Copies lanes unchanged. -/
  | vmov (d : Bool) (r : BitVec 6) (a : BitVec 6)
  /-- VIOTA (R207): Writes an arithmetic sequence across lanes. -/
  | viota (d : Bool) (r : BitVec 6) (a : BitVec 6) (b : BitVec 6)
  /-- VEXT (R208): Pushes one lane to xc. -/
  | vext (a : BitVec 6) (b : BitVec 6)
  /-- VINS (R208): Replaces one lane with a value popped from cx. -/
  | vins (d : Bool) (r : BitVec 6) (a : BitVec 6) (b : BitVec 6)
  /-- PSET (R222): Sets a stream port's base, walk descriptor and mode. -/
  | pset (p : BitVec 3) (a : BitVec 6) (g : BitVec 6) (m : BitVec 7)
  /-- PGO (R219): Starts a stream port walk, claiming sdq entries for a write port. -/
  | pgo (p : BitVec 3)
  /-- PHALT (R219): Halts a stream port, discarding buffers or releasing claims. -/
  | phalt (p : BitVec 3)
  /-- PSTAT (R223): Writes a snapshot of a stream port's state. -/
  | pstat (p : BitVec 3) (r : BitVec 6)
  /-- VQNT (R225): Quantises FP32 lanes by per-lane scales into narrow codes (VEC). -/
  | vqnt (d : Bool) (r : BitVec 6) (a : BitVec 6) (b : BitVec 6) (s : BitVec 3)
  /-- VDQNT (R226): Dequantises narrow codes by per-lane scales into FP32 (VEC). -/
  | vdqnt (d : Bool) (r : BitVec 6) (a : BitVec 6) (b : BitVec 6) (s : BitVec 3)
  /-- MPATH (R259): Runs the merge-path diagonal search for each active lane (SPARSE). -/
  | mpath (d : Bool) (r : BitVec 6) (a : BitVec 6) (b : BitVec 6)
  /-- CSRW (R260): Sets up read ports for a CSR walk (SPARSE). -/
  | csrw (p : BitVec 3) (a : BitVec 6) (g : BitVec 6) (w : BitVec 1) (o : BitVec 2)
  /-- SEGSUM (R262): Segmented running sums restarting after row ends (SPARSE). -/
  | segsum (d : Bool) (r : BitVec 6) (a : BitVec 6) (b : BitVec 6) (s : BitVec 3)
  /-- SEGCAR (R263): Extracts the open partial row and its row number (SPARSE). -/
  | segcar (d : Bool) (r : BitVec 6) (a : BitVec 6) (b : BitVec 6)
  /-- VGATHX (R264): Gathers x by column index, skipping padding indices (SPARSE). -/
  | vgathx (d : Bool) (r : BitVec 6) (a : BitVec 6) (b : BitVec 6)
  /-- SBIT (R267): Sorts 32 keys stably and records PERM (SORT). -/
  | sbit (d : Bool) (r : BitVec 6) (a : BitVec 6) (f : BitVec 1)
  /-- SMRG (R268): Merges two 32-key operands into 64 positions and records PERM (SORT). -/
  | smrg (d : Bool) (r : BitVec 6) (a : BitVec 6) (b : BitVec 6) (f : BitVec 1)
  /-- SKEY (R265): Converts FP32 values to order-preserving keys or back (SORT). -/
  | skey (d : Bool) (r : BitVec 6) (a : BitVec 6) (f : BitVec 1)
  /-- STOPK (R269): Selects the k largest keys of DS and SA and records PERM (SORT). -/
  | stopk (d : Bool) (r : BitVec 6) (a : BitVec 6) (b : BitVec 6)
  /-- SPAY (R270): Applies PERM to payload operands (SORT). -/
  | spay (d : Bool) (r : BitVec 6) (a : BitVec 6) (b : BitVec 6) (f : BitVec 1)
  /-- CLEASE (R235): Requests the cube array lease. -/
  | clease
  /-- CREL (R235): Releases or withdraws the cube lease. -/
  | crel
  /-- CCFG (R234): Writes one staging-set field. -/
  | ccfg (f : BitVec 6) (v : BitVec 16)
  /-- TRI (R237): Issues a trilinear command accumulating into the bank. -/
  | tri (a : BitVec 7) (b : BitVec 7) (g : BitVec 7)
  /-- MMA (R237): Issues a bilinear command accumulating into the bank. -/
  | mma (a : BitVec 7) (b : BitVec 7)
  /-- ACCZ (R242): Zeroes the accumulator bank and sets it UNSET and FRESH. -/
  | accz
  /-- ACCST (R242): Writes the bank window into a tile under slot FSD. -/
  | accst (a : BitVec 7)
  /-- TZERO (R243): Zeroes a tile's elements and resets its scales. -/
  | tzero (a : BitVec 7)
  /-- TSHAPE (R243): Gives a tile a new shape word, clearing it when the shape changes. -/
  | tshape (a : BitVec 7) (b : BitVec 6)
  /-- TLD (R251): Queues a tile load transfer tagged with A's span count. -/
  | tld (a : BitVec 7) (b : BitVec 6) (g : BitVec 6)
  /-- TST (R251): Queues a tile store transfer tagged with A's span count. -/
  | tst (a : BitVec 7) (b : BitVec 6) (g : BitVec 6)
  /-- TCVT (R244): Converts a tile from slot FSA to slot FSD. -/
  | tcvt (a : BitVec 7) (b : BitVec 7)
  /-- TEADD (R245): Element-wise tile add. -/
  | teadd (a : BitVec 7) (b : BitVec 7) (g : BitVec 7)
  /-- TEMUL (R245): Element-wise tile multiply. -/
  | temul (a : BitVec 7) (b : BitVec 7) (g : BitVec 7)
  /-- TEMAX (R245): Element-wise tile maximum. -/
  | temax (a : BitVec 7) (b : BitVec 7) (g : BitVec 7)
  /-- TESUB (R245): Element-wise tile subtract. -/
  | tesub (a : BitVec 7) (b : BitVec 7) (g : BitVec 7)
  /-- TRED (R247): Reduces each row of a tile into column ix1 of another. -/
  | tred (a : BitVec 7) (b : BitVec 7) (g : BitVec 6)
  /-- TIX (R246): Sets ix0, ix1 and ix2 from a 64-bit value. -/
  | tix (b : BitVec 6)
  /-- CWAIT (R236): Holds X until every issued cube command has finished stage 2. -/
  | cwait
  /-- TBCAST (R248): Writes every row of a tile with one line of another tile. -/
  | tbcast (a : BitVec 7) (b : BitVec 7)
  /-- MROWZ (R332): Zeroes pages at home by counters or DRAM row writes. -/
  | mrowz (a : BitVec 6) (b : BitVec 6)
  /-- MROWC (R333): Copies pages inside DRAM or through the base-die row buffer. -/
  | mrowc (r : BitVec 6) (a : BitVec 6) (b : BitVec 6)
  /-- MLOC (R334): Reports where a byte lives in the memory dies. -/
  | mloc (d : Bool) (r : BitVec 6) (a : BitVec 6)
  /-- MINV (R335): Writes back and optionally invalidates cached copies of pages. -/
  | minv (a : BitVec 6) (b : BitVec 6) (f : BitVec 3)
  /-- MCOMP (R336): Compresses a page into the cave or the ZERO state. -/
  | mcomp (d : Bool) (r : BitVec 6) (a : BitVec 6)
  /-- MEXPD (R336): Makes CAVE or ZERO pages RESIDENT and counts them. -/
  | mexpd (d : Bool) (r : BitVec 6) (a : BitVec 6) (b : BitVec 6)
  /-- MSCRB (R337): Scrubs resident pages, correcting and poisoning lines. -/
  | mscrb (d : Bool) (r : BitVec 6) (a : BitVec 6) (b : BitVec 6)
  /-- MMIG (R341): Migrates a page between device and far tiers. -/
  | mmig (d : Bool) (r : BitVec 6) (a : BitVec 6) (f : BitVec 3)
  /-- MRED (R338): Reduces an array at home by FP32, exact or integer sum. -/
  | mred (d : Bool) (r : BitVec 6) (a : BitVec 6) (b : BitVec 6) (f : BitVec 3)
  /-- MFILL (R339): Fills a byte range at home with a 64-bit pattern. -/
  | mfill (r : BitVec 6) (a : BitVec 6) (b : BitVec 6)
  /-- MSTAT (R340): Returns one of the team's row-engine counters. -/
  | mstat (d : Bool) (r : BitVec 6) (f : BitVec 3)
  /-- RFETCH (R420): Serves one packet of an unmapped queue in software. -/
  | rfetch (d : Bool) (r : BitVec 6) (a : BitVec 6) (b : BitVec 6)
  /-- BFXM (R427): Performs a buffer invalidate and/or flush mode at once. -/
  | bfxm (d : Bool) (r : BitVec 6) (a : BitVec 6) (f : BitVec 3)
  /-- SWAIT (R424): Waits for PEND, FAULT or MBOX causes or a timeout. -/
  | swait (d : Bool) (r : BitVec 6) (a : BitVec 6) (b : BitVec 6)
  /-- DISP (R421): Executes a packet image as the packet processor would. -/
  | disp (d : Bool) (r : BitVec 6) (a : BitVec 6) (b : BitVec 6)
  /-- QSAVE (R422): Writes a slot's state back to its QCB and frees the slot. -/
  | qsave (d : Bool) (r : BitVec 6) (a : BitVec 6)
  /-- QLOAD (R422): Copies a QCB into a free hardware queue slot. -/
  | qload (d : Bool) (r : BitVec 6) (a : BitVec 6) (b : BitVec 6)
  /-- GDEC (R426): Decrements PENDING of a waiting node. -/
  | gdec (d : Bool) (r : BitVec 6) (a : BitVec 6)
  /-- GLNCH (R426): Triggers a launch of a graph with a patch list. -/
  | glnch (d : Bool) (r : BitVec 6) (a : BitVec 6) (b : BitVec 6)
  /-- BRNEW (R428): Makes a buffer from BPOOL and places a counted reference in a node slot. -/
  | brnew (d : Bool) (r : BitVec 6) (a : BitVec 6) (b : BitVec 6)
  /-- BRFREE (R429): Frees a buffer whatever its count. -/
  | brfree (d : Bool) (r : BitVec 6) (a : BitVec 6)
  /-- FLKNEW (R430): Allocates a flock entry on a site for a fold, or frees an empty flock. -/
  | flknew (d : Bool) (r : BitVec 6) (a : BitVec 6) (b : BitVec 6) (f : BitVec 3)
  /-- FLTPOP (R431): Removes the oldest fault record and returns its handle. -/
  | fltpop (d : Bool) (r : BitVec 6) (a : BitVec 6)
  /-- RESUME (R432): Requeues a suspended team or continues a held copy. -/
  | resume (d : Bool) (r : BitVec 6) (a : BitVec 6)
  /-- KILL (R432): Kills a suspended instance or fails a held copy. -/
  | kill (d : Bool) (r : BitVec 6) (a : BitVec 6)
  /-- QMAP (R422): Maps a loaded slot to serving, or unmaps a serving slot to stopped. -/
  | qmap (d : Bool) (r : BitVec 6) (a : BitVec 6) (f : BitVec 3)
  /-- PRIO (R423): Sets or ages a QCB's priority and clears AGE. -/
  | prio (d : Bool) (r : BitVec 6) (a : BitVec 6) (b : BitVec 6) (f : BitVec 3)
  /-- LOOP_END (R122): A strand passes the end of an open loop body, taking the back edge or closing the loop. -/
  | loopEnd
  /-- LOAD_PERFORM (R139): A load's value returns, into a register, y1 or a dq entry with any poison mark. -/
  | loadPerform
  /-- STORE_PERFORM (R140): A queued store is performed, or fails and is recorded in SERR and SERRA. -/
  | storePerform
  /-- COPY_FAULT_HOLD (R150): A running copy meets a fault, records its resume offset and is held. -/
  | copyFaultHold
  /-- COPY_COMPLETE (R151): A copy's last byte is performed; its completion action runs and its scoreboard entry is freed. -/
  | copyComplete
  /-- POLLED_WAIT_RETRY (R278): A polled full/empty wait repeats its operation every 64 cycles. -/
  | polledWaitRetry
  /-- WAITT_EXPIRE (R131): Device time reaches a WAITT target and the strand retires the word. -/
  | waittExpire
  /-- SLIP_RELEASE (R19): A strand held at a span boundary passes it once the slip bounds allow. -/
  | slipRelease
  /-- PORT_OPERAND_FETCH (R220): A read port fetches its next walk operand into its buffer. -/
  | portOperandFetch
  /-- WRITE_PORT_WRITE (R221): A write port writes an arriving sdq entry to its walk's next address. -/
  | writePortWrite
  /-- TILE_TRANSFER_EFFECT (R249): A queued tile load or store takes effect once X has left its span. -/
  | tileTransferEffect
  /-- LEASE_GRANT (R235): The free cube array is granted to the next WANT core with a fresh budget. -/
  | leaseGrant
  /-- LEASE_BUDGET_EXPIRY (R235): The lease's 16-command or 4096-cycle budget runs out and the lease is offered on. -/
  | leaseBudgetExpiry
  /-- LEASE_IDLE_EXPIRY (R235): 1024 cycles without a command return the lease to WANT. -/
  | leaseIdleExpiry
  /-- FLOCK_JOIN_MESSAGE (R283): The home die processes a join, adding to an open episode's needed arrivals. -/
  | flockJoinMessage
  /-- FLOCK_LEAVE_MESSAGE (R283): The home die processes a leave, which can complete an open episode. -/
  | flockLeaveMessage
  /-- FLOCK_ARRIVAL_MESSAGE (R281): The home die processes an arrival, naming the bellwether and folding contributions. -/
  | flockArrivalMessage
  /-- PLANE_LOAD_COMPLETE (R179): The last byte of a shadow plane is written and it becomes READY. -/
  | planeLoadComplete
  /-- TEAM_COMPLETE (R132): The team reaches its drain point and the instance completes, or is suspended for a late store failure. -/
  | teamComplete
  /-- PREEMPT_REQUEST (R38): The drover asks a team to stop at its next boundaries and save. -/
  | preemptRequest
  /-- LONG_WAIT_SWAP (R187): The long-wait counter reaches WAITTH and the team is swapped out. -/
  | longWaitSwap
  /-- TEAM_SAVE_COMPLETE (R184): A team's save sequence finishes and its plane becomes EMPTY. -/
  | teamSaveComplete
  /-- TEAM_REQUEUE (R187): The drover requeues a swapped team whose wait condition has been met. -/
  | teamRequeue
  /-- NODE_DISPATCH (R376): At a dispatch opportunity the drover places an instance or requeued team on a core. -/
  | nodeDispatch
  /-- INSTANCE_COMPLETE (R372): The drover counts an instance completed or killed and advances the node state. -/
  | instanceComplete
  /-- AGEING_INTERVAL (R375): A fold's ageing interval elapses and ready nodes rise one priority level. -/
  | ageingInterval
  /-- GRAPH_UPLOAD (R371): A graph image is validated and copied into node slots, buffers and an ASID. -/
  | graphUpload
  /-- GRAPH_UNLOAD (R371): A graph is unloaded once no launch of it is running or queued. -/
  | graphUnload
  /-- LAUNCH_TRIGGER (R388): A launch trigger arrives and its patch list is read and validated. -/
  | launchTrigger
  /-- LAUNCH_START (R388): A launch becomes the graph's next launch; patches apply and nodes leave IDLE. -/
  | launchStart
  /-- LAUNCH_END (R390): Every node of a launch has ended and the launch status is written. -/
  | launchEnd
  /-- TIMED_LAUNCH_PREPLACE (R391): At T minus 50 µs the drover preplaces the first wave of a timed launch. -/
  | timedLaunchPreplace
  /-- TIMED_LAUNCH_FIRE (R391): At trigger time T the preplaced planes flip. -/
  | timedLaunchFire
  /-- GANG_COMMIT (R395): Every fold of a gang launch is reserved and a common start time is fixed. -/
  | gangCommit
  /-- GANG_ROLLBACK_TIMEOUT (R395): 100 µs pass without every fold reserved and the gang launch rolls back. -/
  | gangRollbackTimeout
  /-- KICK (R411): A write to a kick word makes its slot examine the ring or sets its pending bit. -/
  | kick
  /-- PACKET_LAUNCH (R405): The packet processor consumes a launch packet and triggers a launch. -/
  | packetLaunch
  /-- PACKET_RELAUNCH (R405): The packet processor consumes a relaunch packet for the QCB's LGRAPH. -/
  | packetRelaunch
  /-- PACKET_TIMED_LAUNCH (R405): The packet processor consumes a timed launch packet. -/
  | packetTimedLaunch
  /-- PACKET_BARRIER_AND (R405): The packet processor takes a barrier-and packet and holds the queue. -/
  | packetBarrierAnd
  /-- BARRIER_AND_RELEASE (R405): Every named signal word has bit 63 set and the barrier-and is handed on. -/
  | barrierAndRelease
  /-- PACKET_SIGNAL (R405): The packet processor consumes a signal packet, storing its value with a release. -/
  | packetSignal
  /-- PACKET_NOP (R405): The packet processor consumes a nop packet. -/
  | packetNop
  /-- FAULT_RECORD_ENQUEUE (R416): A fault record enters its drover's fault queue, waiting for room if full. -/
  | faultRecordEnqueue
  /-- SWAIT_TIMEOUT (R424): An SWAIT's timeout passes and it returns the causes that hold. -/
  | swaitTimeout
  /-- TLBI_INVALIDATE_MESSAGE (R304): A die receives an invalidation, drops matching translations, drains and acknowledges. -/
  | tlbiInvalidateMessage
  /-- TLBI_ACK (R176): The initiating core counts one acknowledgement. -/
  | tlbiAck
  /-- PAGE_WALK (R302): The walker completes a table walk, setting A or D by atomic OR. -/
  | pageWalk
  /-- L2_FILL (R293): A slice allocates a granule tag and fills requested pieces. -/
  | l2Fill
  /-- DIRECTORY_REQUEST (R295): The home directory grants ownership, recalling and invalidating other copies. -/
  | directoryRequest
  /-- SLICE_ATOMIC (R297): A slice ALU performs one atomic indivisibly. -/
  | sliceAtomic
  /-- HOME_LINE_WRITE (R321): A line is encrypted and written at home, incrementing its MINOR. -/
  | homeLineWrite
  /-- HOME_LINE_READ (R323): A line is read and checked at home, poisoning it on MAC or tree failure. -/
  | homeLineRead
  /-- PAGE_EXPANSION (R328): A CAVE or ZERO page is expanded into a pool frame and stalled accesses proceed. -/
  | pageExpansion
  /-- EXTENT_ADD (R345): A fabric manager adds a CXL extent to the extent table. -/
  | extentAdd
  /-- EXTENT_RELEASE_REQUEST (R348): A release request moves an extent to RELEASING and signals firmware. -/
  | extentReleaseRequest
  /-- RELEASE_SWEEP (R348): The release sweep writes back and invalidates the extent and removes it. -/
  | releaseSweep
  /-- RELEASE_SWEEP_TIMEOUT (R348): 10 ms pass after a release request and the sweep starts. -/
  | releaseSweepTimeout
  /-- EXTENT_FORCED_REMOVAL (R349): A surprise removal or dead port removes an extent at once, discarding its data. -/
  | extentForcedRemoval
  /-- CXL_TIMEOUT (R346): A CXL request not completed in 2 ms raises FAR_TIMEOUT. -/
  | cxlTimeout
  /-- FLIT_SLOT (R307): At a flit boundary the sender chooses the next flit's class and sends it. -/
  | flitSlot
  /-- FLIT_GROUP_RECEIVE (R310): The receiver checks a flit group's CRC and sequence and appends its flits. -/
  | flitGroupReceive
  /-- LINK_REPLAY (R310): A sender resends from the named group after a replay request. -/
  | linkReplay
  /-- LINK_RETRY_FAIL (R311): Retry fails; open packets are aborted and NAKed and the link retrains. -/
  | linkRetryFail
  /-- LINK_RETRAIN_COMPLETE (R311): The link returns and the sender resends held urgent packets first. -/
  | linkRetrainComplete
  /-- LINK_DOWN_TIMEOUT (R311): The link stays down 1 ms and firmware is told to rewrite routes. -/
  | linkDownTimeout
  /-- CLUSTER_RESET (R288): A cluster reset is requested and resident teams receive RESET. -/
  | clusterReset
  /-- CLUSTER_RESET_SAVE_DEADLINE (R289): At 40 µs unsaved teams are ended and the cluster is cleared and restarted. -/
  | clusterResetSaveDeadline
  /-- FOLD_RESET (R445): A fold reset ends its launches, teams, queues and flocks and clears LOCK. -/
  | foldReset
  /-- PACKAGE_RESET (R446): Every die resets and the boot ROM starts again. -/
  | packageReset
  /-- RSTREQ_CLUSTER (R443): A keyed RSTREQ write of scope 1 requests a cluster reset. -/
  | rstreqCluster
  /-- RSTREQ_FOLD (R443): A keyed RSTREQ write of scope 2 requests a fold reset. -/
  | rstreqFold
  /-- RSTREQ_PACKAGE (R443): A keyed RSTREQ write of scope 3 requests a package reset. -/
  | rstreqPackage
  /-- RSTREQ_RELEASE (R443): A keyed RSTREQ write of scope 4 releases a halted firmware core. -/
  | rstreqRelease
  /-- BOOTGO (R435): The host's BOOTGO write makes the ROM verify the image, train links and start firmware. -/
  | bootgo
  /-- FIRMWARE_CORE_START (R489): A mailbox start message loads a text window and starts a firmware core at an entry. -/
  | firmwareCoreStart
  /-- ATTESTATION_REQUEST (R440): The management function returns a signed attestation report for a nonce. -/
  | attestationRequest
  /-- MAILBOX_MESSAGE (R441): A management mailbox message arrives, raising MBOX for firmware. -/
  | mailboxMessage
  /-- DIE_DEGRADE (R448): Firmware removes clusters of a die from service. -/
  | dieDegrade
  /-- DIE_RETIREMENT (R449): A die is retired, routes rewritten, memory rebuilt and the record re-signed. -/
  | dieRetirement
  /-- CORE_WATCHDOG (R447): A team issues nothing for 2^26 cycles and receives WATCHDOG. -/
  | coreWatchdog
  /-- FIRMWARE_WATCHDOG (R447): A firmware core's kick register goes unwritten 100 ms and the core stops. -/
  | firmwareWatchdog
  /-- NODE_DEADLINE (R447): A node exceeds NDEAD and every instance is killed. -/
  | nodeDeadline
  /-- CLUSTER_WATCHDOG (R447): A cluster request is unanswered 1 ms and the cluster is reset. -/
  | clusterWatchdog
  /-- FOLD_WATCHDOG (R447): A launch exceeds FWDT and its fold is reset. -/
  | foldWatchdog
  /-- FWKICK (R491): A store to FWKICK restarts a firmware core's watchdog. -/
  | fwkick
  /-- THERMAL_THROTTLE (R451): Temperature above 105 °C lowers the die clock and sets THERM. -/
  | thermalThrottle
  /-- THERMAL_RETIRE (R451): Temperature above 115 °C for 1 ms retires the die. -/
  | thermalRetire
  /-- POWER_BROWNOUT (R452): Input below 40 V for 10 ms holds the package in reset. -/
  | powerBrownout
  /-- POWER_RECOVER (R452): Input recovers and the module boots as after a package reset. -/
  | powerRecover
  /-- ELOGCLR (R343): Writing CLR empties the error log. -/
  | elogclr
  /-- TMSLEW (R471): A TMSLEW write replaces any pending slew of device time. -/
  | tmslew
  /-- TMSET (R470): A TMSET write sets device time while every fold is disabled. -/
  | tmset
  /-- PTP_EVENT_TIMESTAMP (R472): A scale-out port timestamps an IEEE 1588 event flit into its FIFO. -/
  | ptpEventTimestamp
  /-- PTM_EXCHANGE (R473): A PCIe PTM dialogue completes and clears HOLD. -/
  | ptmExchange
  /-- TIME_SOURCE_LOSS (R473): The time source gives no valid exchange for 2 s and HOLD is set. -/
  | timeSourceLoss
  /-- HOST_APERTURE_ACCESS (R454): A host access to the device memory aperture is performed at the home MSC. -/
  | hostApertureAccess
  /-- HOST_ACCESS_TIMEOUT (R455): A HOST access not completed in 4 ms raises FAR_TIMEOUT. -/
  | hostAccessTimeout
  /-- PEER_REQUEST_RECEIVE (R459): A package checks a PEER request against its peer and export tables and performs or refuses it. -/
  | peerRequestReceive
  /-- PEER_REQUEST_FORWARD (R458): An intermediate package forwards a PEER request toward its destination. -/
  | peerRequestForward
  /-- REMOTE_TIMEOUT (R461): A REMOTE access not completed in 4 ms raises FAR_TIMEOUT. -/
  | remoteTimeout
  /-- COLLECTIVE_KICK (R462): A store to a collective ring's kick word makes the engine examine the ring. -/
  | collectiveKick
  /-- ALL_REDUCE (R465): The engine runs an all-reduce descriptor along the group tree. -/
  | allReduce
  /-- REDUCE_SCATTER (R465): The engine runs a reduce-scatter descriptor. -/
  | reduceScatter
  /-- ALL_GATHER (R465): The engine runs an all-gather descriptor. -/
  | allGather
  /-- COLLECTIVE_BROADCAST (R465): The engine runs a broadcast descriptor from the root rank. -/
  | collectiveBroadcast
  /-- COLLECTIVE_BARRIER (R468): The engine runs a barrier descriptor. -/
  | collectiveBarrier
  /-- COLLECTIVE_PARTIAL_RECEIVE (R465): A node combines a child's result or receives the root's result. -/
  | collectivePartialReceive
  /-- COLLECTIVE_COMPLETE (R467): A collective ends with a status and writes its completion signal. -/
  | collectiveComplete
  /-- COLLECTIVE_TIMEOUT (R467): A member or link gives no response for 10 ms and the collective ends with status 2. -/
  | collectiveTimeout
  /-- REGISTER_WRITE (R8): A write to a register without behaviour of its own updates its writable fields. -/
  | registerWrite
  /-- L1_EVICTION (R351): An L1 line is evicted at any moment and its dirty bytes are written back to the coherence point. -/
  | l1Eviction
  /-- POWER_CAPPING (R452): The 1 ms average input power exceeds PCAP, so CUB and VEC clocks are lowered and CAP is set, or the limit is met again and CAP clears. -/
  | powerCapping
  /-- HOST_PORT_LINK_DOWN (R455): A host PCIe port's link goes down and the HOST accesses of folds that use it move to the other port. -/
  | hostPortLinkDown
  /-- HOST_PORT_LINK_UP (R455): A host PCIe port's link trains again and HPSEL's choice of port applies once more. -/
  | hostPortLinkUp
  /-- GANG_START (R395): At start time S, which is the commit time plus 1 µs for an untimed gang launch, every preplaced plane of every fold flips. -/
  | gangStart
  /-- BOOT_STAGING_WRITE (R435): The host writes image bytes into the boot staging window of PCIe function 0, BAR 2. -/
  | bootStagingWrite
  /-- SOFT_ERROR (R296): A soft error corrupts a bit of a scratchpad word, L2 piece or memory line, to be corrected or poisoned when the data is next read. -/
  | softError
deriving DecidableEq, Repr

end Sys2Proof
end

