-- ==== Sys2Proof/Config.lean ====
section
/-! DEFINITION. What is fixed for every MH-24 (R1, R2, R497) and the free values: constants without a body, which
stand for what the manual leaves open. -/

namespace Sys2Proof.Config

/-- The kind of a die (R2). -/
inductive DieKind
  | none
  | drv
  | cub
  | vec
  | spr
  | srt
  | far
  | fab
  | mem
deriving DecidableEq, Repr

/-- Free value (log 7): the cycles that pass in the n-th step of the model. Durations are not part of the manual (R35). -/
opaque stepCycles : Nat → Nat

/-- Free value (log 21): how far a die's follower counter stands ahead of the package's time base, in units of 2^-16 ns; the model reads it
within the 8 ns of R469. -/
opaque followSkew : Nat → Nat

/-- Free value (log 7): the time that passes in the n-th step of the model, in units of 2^-16 ns of the package's oscillator (R469). -/
opaque stepTime : Nat → Nat

/-- Free value (log 13): the number of 4 KiB chunks that the compressor needs for the bytes of a page (R326). -/
opaque compressChunks : List Byte → Nat

/-- Free value (log 13): the keyed hash in a brand's check field (R382). -/
opaque brandHash : BitVec 256 → BitVec 64 → BitVec 64

/-- Free value (log 13): the root public key held in fuses (R437), its first byte the least significant. -/
opaque rootKey : BitVec 256

/-- Free value (log 13): the private key of the device identity, which the ROM derives from the fused secret (R440). -/
opaque deviceKey : BitVec 256

/-- Free value (log 13): the certificate of the device's public key, made by Gortia (R440). -/
opaque deviceCert : List Byte

/-- Free value (log 42): the bytes that a far line shows where it was written under another key than the one it is read under (R346): the key
of the writing, that of the reading, the line, the bytes written and which of the 64. -/
opaque farOpen : BitVec 256 → BitVec 256 → Nat → List Byte → Nat → Byte

/-- Free value (log 13): the fused rollback counter (R437). -/
opaque rollback : BitVec 32

/-- Free value (log 13): the bytes of graph memory that a drover die has, which the manual does not state (R371). -/
opaque graphMemory : Nat

/-- Free value (log 13): the process code that a die's monitor shows (R451). -/
opaque processCode : Nat → BitVec 8

/-- Free value: a value that the manual does not state, by the model's own counter and a tag of the place. -/
opaque freeWord : Nat → BitVec 64

/-- The die at a site on every MH-24 (R497): rows of ten sites. -/
def kindAt (site : Nat) : DieKind :=
  let row := site / 10
  let col := site % 10
  if row == 0 || row == 5 then .mem
  else if row == 1 || row == 4 then
    if col == 0 then .drv else if col == 9 then .fab else .cub
  else if row == 2 then
    match col with
    | 0 => .mem | 1 => .far | 2 => .spr | 7 => .spr | 8 => .srt | 9 => .mem | _ => .vec
  else if row == 3 then
    match col with
    | 0 => .mem | 1 => .srt | 2 => .spr | 7 => .spr | 8 => .far | 9 => .mem | _ => .vec
  else .none

/-- The kind code that the discovery table and the straps store (R2, R433). -/
def kindCode : DieKind → Nat
  | .none => 0 | .drv => 1 | .cub => 2 | .vec => 3 | .spr => 4 | .srt => 5 | .far => 6 | .fab => 7 | .mem => 8

/-- The engine class of a die kind's cores (R2). -/
def kindClass : DieKind → Option Cls
  | .none => none | .drv => some .drover | .cub => some .cube | .vec => some .vec | .spr => some .sparse
  | .srt => some .sort | .far => some .mem | .fab => none | .mem => some .mem

/-- Cores per die (R2). -/
def kindCores : DieKind → Nat
  | .none => 0 | .drv => 16 | .cub => 4 | .vec => 128 | .spr => 64 | .srt => 64 | .far => 4 | .fab => 0 | .mem => 2

/-- Cores in a cluster (10: R272): 8 on VEC, SPR and SRT dies, the four control cores on a CUB die. -/
def clusterCores : DieKind → Nat
  | .vec => 8 | .spr => 8 | .srt => 8 | .cub => 4 | _ => 0

/-- Size of a cluster scratchpad (R134, R272). -/
def cspSize : DieKind → Nat
  | .vec => 4 * 2^20 | .spr => 2 * 2^20 | .srt => 2 * 2^20 | .cub => 96 * 2^20 | _ => 0

/-- Size of a die scratchpad (R134). -/
def dspSize : DieKind → Nat
  | .cub => 96 * 2^20 | .spr => 16 * 2^20 | .srt => 16 * 2^20 | _ => 0

/-- L2 slices of a die (R292). -/
def slices : DieKind → Nat
  | .vec => 8 | .spr => 4 | .srt => 4 | .cub => 4 | _ => 0

/-- Strips of a die (R292). -/
def strips : DieKind → Nat
  | .vec => 24 | .spr => 12 | .srt => 12 | .cub => 5 | _ => 0

/-- The strip at which cluster c stands (R284, R292). -/
def clusterStrip (k : DieKind) (c : Nat) : Nat :=
  match k with
  | .cub => 0
  | _ => c + c / 2

/-- The site of stack n (R313, R497). -/
def stackSite (n : Nat) : Nat :=
  if n < 10 then n
  else if n < 14 then [20, 29, 30, 39].getD (n - 10) 0
  else n - 14 + 50

/-- The stack that stands at a site (R313, R497). -/
def siteStack (site : Nat) : Option Nat :=
  if site < 10 then some site
  else if site == 20 then some 10
  else if site == 29 then some 11
  else if site == 30 then some 12
  else if site == 39 then some 13
  else if 50 ≤ site && site < 60 then some (site - 50 + 14)
  else none

/-- The site of drover die d (R497). -/
def drvSite (d : Nat) : Nat := if d == 0 then 10 else 40

/-- The drover die at a site (R497). -/
def siteDrv (site : Nat) : Nat := if site == 40 then 1 else 0

/-- The site of fabric die f (R456, R497). -/
def fabSite (f : Nat) : Nat := if f == 0 then 19 else 49

/-- The number of lanes of a class (R193). -/
def lanes : Cls → Nat
  | .vec => 128 | .sparse => 32 | .sort => 32 | _ => 2

/-- The number of an engine class (R3). -/
def clsNum : Cls → Nat
  | .cube => 1 | .vec => 2 | .sparse => 3 | .sort => 4 | .mem => 5 | .drover => 6

/-- The engine class of a number (R3). -/
def numCls : Nat → Option Cls
  | 1 => some .cube | 2 => some .vec | 3 => some .sparse | 4 => some .sort | 5 => some .mem | 6 => some .drover
  | _ => none

end Sys2Proof.Config
end

