-- ==== Sys2Proof/Machine/Crypto.lean ====
section
/-! DEFINITION. The algorithms that the manual names: SHA-512 and Ed25519 (R1, R437, R440), and the AES-256 of stored lines (R321); how
their byte strings are laid out as numbers is log 41. -/

namespace Sys2Proof.Machine

/-! ### SHA-512 (R1, R437, R440) -/

/-- The round constants of SHA-512. -/
def shaK : List Nat :=
  [0x428A2F98D728AE22, 0x7137449123EF65CD, 0xB5C0FBCFEC4D3B2F, 0xE9B5DBA58189DBBC, 0x3956C25BF348B538,
   0x59F111F1B605D019, 0x923F82A4AF194F9B, 0xAB1C5ED5DA6D8118, 0xD807AA98A3030242, 0x12835B0145706FBE,
   0x243185BE4EE4B28C, 0x550C7DC3D5FFB4E2, 0x72BE5D74F27B896F, 0x80DEB1FE3B1696B1, 0x9BDC06A725C71235,
   0xC19BF174CF692694, 0xE49B69C19EF14AD2, 0xEFBE4786384F25E3, 0x0FC19DC68B8CD5B5, 0x240CA1CC77AC9C65] ++
  [0x2DE92C6F592B0275, 0x4A7484AA6EA6E483, 0x5CB0A9DCBD41FBD4, 0x76F988DA831153B5, 0x983E5152EE66DFAB,
   0xA831C66D2DB43210, 0xB00327C898FB213F, 0xBF597FC7BEEF0EE4, 0xC6E00BF33DA88FC2, 0xD5A79147930AA725,
   0x06CA6351E003826F, 0x142929670A0E6E70, 0x27B70A8546D22FFC, 0x2E1B21385C26C926, 0x4D2C6DFC5AC42AED,
   0x53380D139D95B3DF, 0x650A73548BAF63DE, 0x766A0ABB3C77B2A8, 0x81C2C92E47EDAEE6, 0x92722C851482353B] ++
  [0xA2BFE8A14CF10364, 0xA81A664BBC423001, 0xC24B8B70D0F89791, 0xC76C51A30654BE30, 0xD192E819D6EF5218,
   0xD69906245565A910, 0xF40E35855771202A, 0x106AA07032BBD1B8, 0x19A4C116B8D2D0C8, 0x1E376C085141AB53,
   0x2748774CDF8EEB99, 0x34B0BCB5E19B48A8, 0x391C0CB3C5C95A63, 0x4ED8AA4AE3418ACB, 0x5B9CCA4F7763E373,
   0x682E6FF3D6B2B8A3, 0x748F82EE5DEFB2FC, 0x78A5636F43172F60, 0x84C87814A1F0AB72, 0x8CC702081A6439EC] ++
  [0x90BEFFFA23631E28, 0xA4506CEBDE82BDE9, 0xBEF9A3F7B2C67915, 0xC67178F2E372532B, 0xCA273ECEEA26619C,
   0xD186B8C721C0C207, 0xEADA7DD6CDE0EB1E, 0xF57D4F7FEE6ED178, 0x06F067AA72176FBA, 0x0A637DC5A2C898A6,
   0x113F9804BEF90DAE, 0x1B710B35131C471B, 0x28DB77F523047D84, 0x32CAAB7B40C72493, 0x3C9EBE0A15C9BEBC,
   0x431D67C49C100D4C, 0x4CC5D4BECB3E42B6, 0x597F299CFC657E2A, 0x5FCB6FAB3AD6FAEC, 0x6C44198C4A475817]

/-- The initial hash value of SHA-512. -/
def shaH : List Nat :=
  [0x6A09E667F3BCC908, 0xBB67AE8584CAA73B, 0x3C6EF372FE94F82B, 0xA54FF53A5F1D36F1,
   0x510E527FADE682D1, 0x9B05688C2B3E6C1F, 0x1F83D9ABFB41BD6B, 0x5BE0CD19137E2179]

/-- A 64-bit word rotated right. -/
def rotr (x n : Nat) : Nat := x / 2 ^ n + x % 2 ^ n * 2 ^ (64 - n)

/-- The number that bytes hold, the most significant first. -/
def beNat : List Byte → Nat := fun l => l.foldl (fun a b => a * 256 + b.toNat) 0

/-- The `n` bytes of a number, the most significant first. -/
def beBytes (n v : Nat) : List Byte := (List.range n).map fun k => BitVec.ofNat 8 (v / 256 ^ (n - 1 - k))

/-- A message padded to whole blocks of 128 bytes. -/
def shaPad (m : List Byte) : List Byte :=
  let z := (239 - m.length % 128) % 128
  m ++ [0x80] ++ List.replicate z 0 ++ beBytes 16 (8 * m.length)

/-- The message schedule, the latest word first, extended by `n` words. -/
def shaSched : Nat → List Nat → List Nat
  | 0, w => w
  | n + 1, w =>
    let a := w.getD 14 0
    let b := w.getD 1 0
    let s0 := (rotr a 1).xor (rotr a 8) |>.xor (a / 2 ^ 7)
    let s1 := (rotr b 19).xor (rotr b 61) |>.xor (b / 2 ^ 6)
    shaSched n ((w.getD 15 0 + s0 + w.getD 6 0 + s1) % 2 ^ 64 :: w)

/-- One round on the working variables `a` to `h`. -/
def shaRound (v : List Nat) (kw : Nat × Nat) : List Nat :=
  match v with
  | [a, b, c, d, e, f, g, h] =>
    let s1 := (rotr e 14).xor (rotr e 18) |>.xor (rotr e 41)
    let ch := (e.land f).xor ((2 ^ 64 - 1 - e).land g)
    let t1 := h + s1 + ch + kw.1 + kw.2
    let s0 := (rotr a 28).xor (rotr a 34) |>.xor (rotr a 39)
    let mj := (a.land b).xor (a.land c) |>.xor (b.land c)
    [(t1 + s0 + mj) % 2 ^ 64, a, b, c, (d + t1) % 2 ^ 64, e, f, g]
  | _ => v

/-- The hash value after one more block. -/
def shaBlock (h : List Nat) (blk : List Byte) : List Nat :=
  let w := (List.range 16).map fun k => beNat ((blk.drop (8 * k)).take 8)
  let v := (shaK.zip (shaSched 64 w.reverse).reverse).foldl shaRound h
  (h.zip v).map fun e => (e.1 + e.2) % 2 ^ 64

/-- The hash value after `n` blocks. -/
def shaBlocks : Nat → List Nat → List Byte → List Nat
  | 0, h, _ => h
  | n + 1, h, m => shaBlocks n (shaBlock h (m.take 128)) (m.drop 128)

/-- The 64 bytes of a SHA-512 digest. -/
def shaBytes (m : List Byte) : List Byte :=
  let p := shaPad m
  (shaBlocks (p.length / 128) shaH p).flatMap (beBytes 8)

/-- The number that bytes hold, the first the least significant. -/
def natOfBytes (l : List Byte) : Nat := l.foldr (fun b a => a * 256 + b.toNat) 0

/-- The `n` bytes of a number, the least significant first. -/
def bytesOfNat (n v : Nat) : List Byte := (List.range n).map fun k => BitVec.ofNat 8 (v / 256 ^ k)

/-- SHA-512, its digest as a number with the first byte the least significant (R437, R440, log 41). -/
def sha512 (m : List Byte) : BitVec 512 := BitVec.ofNat 512 (natOfBytes (shaBytes m))

/-! ### Ed25519 (R1, R437, R440) -/

/-- The prime of the field. -/
def edP : Nat := 2 ^ 255 - 19

/-- The order of the base point. -/
def edL : Nat := 2 ^ 252 + 27742317777372353535851937790883648493

/-- The constant `d` of the curve. -/
def edD : Nat := 0x52036cee2b6ffe738cc740797779e89800700a4d4141d8ab75eb4dca135978a3

/-- A power in the field; the bound is the number of bits of the exponent. -/
def edPow (b e : Nat) : Nat → Nat
  | 0 => 1
  | n + 1 =>
    let h := edPow (b * b % edP) (e / 2) n
    if e % 2 == 1 then h * b % edP else h

/-- The inverse in the field. -/
def edInv (a : Nat) : Nat := edPow a (edP - 2) 255

/-- A point of the curve in extended coordinates. -/
structure EdPt where
  x : Nat
  y : Nat
  z : Nat
  t : Nat
deriving DecidableEq, Repr

/-- The base point. -/
def edBase : EdPt :=
  let x := 0x216936d3cd6e53fec0a4e231fdd6dc5c692cc7609525a7b2c9562d608f25d51a
  let y := 0x6666666666666666666666666666666666666666666666666666666666666658
  ⟨x, y, 1, x * y % edP⟩

/-- The neutral point. -/
def edZero : EdPt := ⟨0, 1, 1, 0⟩

/-- The sum of two points. -/
def edAdd (p q : EdPt) : EdPt :=
  let a := (p.y + edP - p.x) * (q.y + edP - q.x) % edP
  let b := (p.y + p.x) * (q.y + q.x) % edP
  let c := 2 * p.t * edD % edP * q.t % edP
  let d := 2 * p.z * q.z % edP
  let e := b + edP - a
  let f := d + edP - c
  let g := d + c
  let h := b + a
  ⟨e * f % edP, g * h % edP, f * g % edP, e * h % edP⟩

/-- A multiple of a point; the bound is the number of bits of the factor. -/
def edMul (k : Nat) (p : EdPt) : Nat → EdPt
  | 0 => edZero
  | n + 1 =>
    let h := edMul (k / 2) (edAdd p p) n
    if k % 2 == 1 then edAdd h p else h

/-- Whether two points are the same. -/
def edSame (p q : EdPt) : Bool := p.x * q.z % edP == q.x * p.z % edP && p.y * q.z % edP == q.y * p.z % edP

/-- A point as its 32 bytes. -/
def edPack (p : EdPt) : List Byte :=
  let i := edInv p.z
  bytesOfNat 32 (p.y * i % edP + p.x * i % edP % 2 * 2 ^ 255)

/-- The point of 32 bytes, where they name one. -/
def edUnpack (b : List Byte) : Option EdPt :=
  let n := natOfBytes b
  let y := n % 2 ^ 255
  let sign := n / 2 ^ 255
  let x2 := (y * y + edP - 1) * edInv (edD * (y * y % edP) + 1) % edP
  let r := edPow x2 ((edP + 3) / 8) 253
  let x := if r * r % edP == x2 then r else r * edPow 2 ((edP - 1) / 4) 254 % edP
  if edP ≤ y ∨ x * x % edP ≠ x2 ∨ (x = 0 ∧ sign = 1) then none
  else
    let x' := if x % 2 == sign then x else edP - x
    some ⟨x', y, 1, x' * y % edP⟩

/-- The number of a SHA-512 digest modulo the order of the base point. -/
def edHash (m : List Byte) : Nat := natOfBytes (shaBytes m) % edL

/-- Whether 64 bytes are an Ed25519 signature over a message under a public key of 32 bytes. -/
def edVerify (key msg sig : List Byte) : Bool :=
  let s := natOfBytes (sig.drop 32)
  match edUnpack key, edUnpack (sig.take 32) with
  | some a, some r =>
    decide (s < edL) && edSame (edMul s edBase 253) (edAdd r (edMul (edHash (sig.take 32 ++ key ++ msg)) a 253))
  | _, _ => false

/-- The Ed25519 public key of a private key of 32 bytes. -/
def edPublic (seed : List Byte) : List Byte :=
  edPack (edMul (natOfBytes ((shaBytes seed).take 32) % 2 ^ 254 / 8 * 8 + 2 ^ 254) edBase 255)

/-- The Ed25519 signature over a message under a private key of 32 bytes. -/
def edSign (seed msg : List Byte) : List Byte :=
  let h := shaBytes seed
  let a := natOfBytes (h.take 32) % 2 ^ 254 / 8 * 8 + 2 ^ 254
  let key := edPack (edMul a edBase 255)
  let r := edHash (h.drop 32 ++ msg)
  let rb := edPack (edMul r edBase 253)
  rb ++ bytesOfNat 32 ((r + edHash (rb ++ key ++ msg) * a) % edL)

/-- The signature of a firmware image verified over its digest under the fused root key (R437). -/
def rootVerify (digest sig : BitVec 512) : Bool :=
  edVerify (bytesOfNat 32 Config.rootKey.toNat) (bytesOfNat 64 digest.toNat) (bytesOfNat 64 sig.toNat)

/-- The public key of the device identity (R440). -/
def devicePublic : List Byte := edPublic (bytesOfNat 32 Config.deviceKey.toNat)

/-- The signature that the management function makes over a digest with the device identity key (R440). -/
def deviceSign (digest : BitVec 512) : BitVec 512 :=
  BitVec.ofNat 512 (natOfBytes (edSign (bytesOfNat 32 Config.deviceKey.toNat) (bytesOfNat 64 digest.toNat)))

/-! ### AES-256 (R321) -/

/-- A byte times `x` in the field of AES. -/
def aesX (a : Nat) : Nat := if a < 128 then 2 * a else (2 * a - 256).xor 0x1B

/-- A product in the field of AES; the bound is the number of bits. -/
def aesMul (a b : Nat) : Nat → Nat
  | 0 => 0
  | n + 1 =>
    let r := aesMul (aesX a) (b / 2) n
    if b % 2 == 1 then r.xor a else r

/-- A byte to the power 254: its inverse, with 0 for 0. -/
def aesInv (a : Nat) : Nat :=
  let m := fun x y => aesMul x y 8
  let a2 := m a a
  let a3 := m a2 a
  let a6 := m a3 a3
  let a7 := m a6 a
  let a14 := m a7 a7
  let a15 := m a14 a
  let a30 := m a15 a15
  let a31 := m a30 a
  let a62 := m a31 a31
  let a63 := m a62 a
  let a126 := m a63 a63
  let a127 := m a126 a
  m a127 a127

/-- The substitution of AES. -/
def aesSub (a : Nat) : Nat :=
  let b := aesInv a
  let rot := fun n => b * 2 ^ n % 256 + b / 2 ^ (8 - n)
  b.xor (rot 1) |>.xor (rot 2) |>.xor (rot 3) |>.xor (rot 4) |>.xor 0x63

/-- The round keys of AES-256 as words of four bytes, the latest first: `n` words more from word `i` on. -/
def aesKeys : Nat → Nat → Nat → List (List Nat) → List (List Nat)
  | 0, _, _, w => w
  | n + 1, i, rc, w =>
    let t := w.headD []
    let u := if i % 8 == 0 then
        match t with
        | [a, b, c, d] => [(aesSub b).xor rc, aesSub c, aesSub d, aesSub a]
        | _ => t
      else if i % 8 == 4 then t.map aesSub else t
    aesKeys n (i + 1) (if i % 8 == 0 then aesX rc else rc) (List.zipWith Nat.xor (w.getD 7 []) u :: w)

/-- The rows of the state shifted. -/
def aesShift (s : List Nat) : List Nat := (List.range 16).map fun k => s.getD ((k + 4 * (k % 4)) % 16) 0

/-- One column mixed. -/
def aesMix (s : List Nat) (c : Nat) : List Nat :=
  (List.range 4).map fun r =>
    let at_ := fun k => s.getD (4 * c + (r + k) % 4) 0
    (aesX (at_ 0)).xor ((aesX (at_ 1)).xor (at_ 1)) |>.xor (at_ 2) |>.xor (at_ 3)

/-- The rounds of AES from round `i` on, of 14. -/
def aesRounds (w : List (List Nat)) : Nat → Nat → List Nat → List Nat
  | 0, _, s => s
  | n + 1, i, s =>
    let t := aesShift (s.map aesSub)
    let u := if i == 14 then t else (List.range 4).flatMap (aesMix t)
    aesRounds w n (i + 1) (List.zipWith Nat.xor u ((w.drop (4 * i)).take 4).flatten)

/-- AES-256 of a block of 16 bytes under a key of 32 bytes. -/
def aes256 (key blk : List Byte) : List Byte :=
  let k := key.map (·.toNat)
  let w := (aesKeys 52 8 1 ((List.range 8).map fun i => (k.drop (4 * i)).take 4).reverse).reverse
  (aesRounds w 14 1 (List.zipWith Nat.xor (blk.map (·.toNat)) (w.take 4).flatten)).map (BitVec.ofNat 8)

/-- The 64 bytes with which a line of an encrypted stack is combined (R321): AES-256 of the key over {PA[47:6], MAJOR, MINOR, chunk}. -/
def lineStream (key : BitVec 256) (line : Nat) (major : W64) (minor : BitVec 7) : List Byte :=
  (List.range 4).flatMap fun c =>
    aes256 (bytesOfNat 32 key.toNat) (bytesOfNat 16 (((line * 2 ^ 64 + major.toNat) * 2 ^ 7 + minor.toNat) * 4 + c))

end Sys2Proof.Machine
end

