-- ==== Sys2Proof/Machine/State.lean ====
section
/-! DEFINITION. The state of one MH-24 package, held as plain data: every core with its team, every die, the two
drovers, the management function, the fabric dies, memory, and the model's own schedule. Numbers that the manual
treats as words are bit vectors; counts, indices and addresses of cells are naturals. -/

namespace Sys2Proof.Machine

/-- The fault codes of R415, with the DROVER failure code that fault records may hold (R407). -/
inductive Code
  | ILLEGAL | PRIV | SPAN | QUEUE | STACK
  | PAGE | PERM | SPACE | ALIGN | BOUNDS | FE
  | INTEGRITY | POISON | EXTENT_GONE | FAR_TIMEOUT
  | SHAPE | LEASE | TILETYPE
  | XCOLLIDE | FLOCK | XPHASE
  | BRAND | RIGHTS | SLOT
  | FMT | TRAP | RING_MALFORMED | NO_CLASS
  | ROW_RANGE | ROW_TIER | ROW_BUSY
  | WATCHDOG | RESET
deriving DecidableEq, Repr

/-- The levels at which a DEV or LOC access is performed (R134, R138, R350). -/
inductive Lvl
  | l1 | l2 | home | strm
deriving DecidableEq, Repr

/-- A checked and translated address: where an access is performed (R350). -/
inductive Place
  | mem (pa : Nat) (lvl : Lvl)
  | csp (site cluster off : Nat)
  | dsp (site off : Nat)
  | peer (n off : Nat)
  | host (addr : Nat)
  | mmio (off : Nat)
deriving DecidableEq, Repr

/-- The access paths of R4. -/
inductive Path
  | strand | copy | cube | stream | mem | remote
deriving DecidableEq, Repr

/-- A poison mark: the load's fault code, address and auxiliary word (R32). -/
structure Poison where
  code : Code
  addr : W64
  aux  : Nat
deriving DecidableEq, Repr

/-- An entry of `ca`, `cx`, `xc` or `ac`: a value and its loop-instance mark (R30, R124). -/
structure QEnt where
  val  : W64
  mark : Nat
deriving DecidableEq, Repr

/-- The datum of a `dq` entry (R28, R195): a scalar, lanes held as data, or a reference to locked L1 lines. -/
inductive DqData
  | scalar (v : W64)
  | lanes (l : List W32)
  | lines (ids : List Nat)
deriving DecidableEq, Repr

/-- A `dq` entry: its datum, the L1 lines it locks, its poison mark and its loop mark (R30, R32, R124, R182). -/
structure DqEnt where
  data   : DqData
  locks  : List Nat
  poison : Option Poison
  mark   : Nat
deriving DecidableEq, Repr

/-- An `sdq` entry: the lanes of one datum, two of them on a class with 64-bit results (R30). -/
structure SdqEnt where
  lanes : List W32
  mark  : Nat
deriving DecidableEq, Repr

/-- A branch outcome (R33). -/
inductive BqVal
  | taken (b : Bool)
  | target (n : W64)
  | count (n : W64)
  | brk (b : Bool)
deriving DecidableEq, Repr

/-- A BQ entry with the pops already made by A and by X (R33). -/
structure BqEnt where
  val  : BqVal
  popA : Bool
  popX : Bool
deriving DecidableEq, Repr

/-- One open hardware loop of a strand (R121), with the number of its `LOOP` (the loop instance of R124). -/
structure Loop where
  lv    : Nat
  start : Nat
  last  : Nat
  count : Nat
  index : Nat
  inst  : Nat
deriving DecidableEq, Repr

/-- What holds a strand at its next word (R35, R187). `longWait` names the waits that count toward WAITTH; `rangeWait` is one of them, of an
access or a `CPY` that overlaps the scoreboard, with its pointer and length, and for a `CPY` its source (R152). `dry` is a plain hold of an
access to a page for which the pool of a die has no frame (R328). -/
inductive Hold
  | none
  | stall
  | longWait (kind : Nat)
  | rangeWait (ea : W64) (n : Nat) (src : Option W64)
  | dry (site : Nat)
deriving DecidableEq, Repr

/-- A strand's own state (R15, R18, R20, R21, R23, R34, R121, R131). `regs` is g0-g47, a0-a47 or e0-e47 by
strand and class; `lat` is y1-y8 of a strand with 64-bit results. `org` is the word from which sequential flow has come to `pc`, none after
a transfer (R122); `feDone` holds the value of a full/empty operation that a service scan has performed (R276) and whose word has not
retired: none where the word it met is poisoned. -/
structure StrandSt where
  pc        : Nat
  span      : Nat
  exited    : Bool
  regs      : Tab W64
  preds     : BitVec 8
  lat       : List W64
  link      : List Nat
  loops     : List Loop
  loopSeq   : Nat
  dead      : List Nat
  waitT     : W64
  waitV     : Bool
  hold      : Hold
  org       : Option Nat
  feDone    : Option (Option W64)
deriving DecidableEq, Repr

/-- A store in the store queue, not yet performed (R140, R142, R143, R215). `data` is none while the datum is
awaited from `sdq`; `again` says that the store was saved with its team, so that its address is translated anew when it is performed
(R304), and `add` that it is the add of a `SIGNAL` (R173). -/
structure StoreEnt where
  strand  : Strand
  place   : Place
  ea      : W64
  size    : Nat
  data    : Option (List Byte)
  fromSdq : Bool
  pc      : Nat
  mark    : Nat
  id      : Nat
  again   : Bool
  add     : Bool
deriving DecidableEq, Repr

/-- An entry of the load queue: a queued load (R139), with its number in the one count of queued loads and stores (R354) and whether it was
saved with its team, or an `ALIGN` marker (R126), which holds the loads behind it until the named stores have been performed. -/
inductive LqEnt
  | load (place : Place) (ea : W64) (size : Nat) (signed vector : Bool) (mark pc id : Nat) (again : Bool)
  | marker (σ : Strand) (stores : List Nat)
deriving DecidableEq, Repr

/-- Who takes the next `sdq` entry (R221). -/
inductive Claim
  | store (id : Nat)
  | port (p : Nat) (left : Nat)
deriving DecidableEq, Repr

/-- The state of a copy in its scoreboard entry (R148 to R154). -/
inductive CopySt
  | running
  | held (code : Code) (addr : W64)
deriving DecidableEq, Repr

/-- One entry of the range scoreboard (R148, R152). `done` is the resume offset, the number of bytes known written; `ahead` holds the source
bytes that have been read beyond it (R364); `before` is the number of the first access that issues after the `CPY` (R361). -/
structure CopyEnt where
  seq    : BitVec 16
  dst    : W64
  src    : W64
  len    : Nat
  fn     : Nat
  done   : Nat
  st     : CopySt
  strand : Strand
  pc     : Nat
  handle : Option Nat
  before : Nat
  ahead  : List Byte
deriving DecidableEq, Repr

/-- How a copy ended (R154): with its entry and sequence number, the status word that `CPYS` gives until the entry is taken again. -/
structure CopyEnd where
  entry  : Nat
  seq    : BitVec 16
  status : W64
deriving DecidableEq, Repr

/-- The states of a stream port (R219). -/
inductive PortState
  | idle | set | run | done | halted | fault
deriving DecidableEq, Repr

/-- The parameters of a CSR walk (R260): the port's part in it (0 columns, 1 values, 2 row tags), and the bases of the three arrays. -/
structure Csr where
  role : Nat
  j0   : Nat
  cnt  : Nat
  cols : W64
  vals : W64
  ends : W64
  m    : Nat
  i0   : Nat
deriving DecidableEq, Repr

/-- A buffered operand of a read port (R220). -/
structure PortOp where
  lanes  : List W32
  poison : Option Poison
deriving DecidableEq, Repr

/-- A stream port (R218 to R221, R260, R261). `pc` is that of the port's `PGO`; `wait` says that a `PSET` or `CSRW` has stalled A on
the port. -/
structure Port where
  st   : PortState
  base : W64
  n0 : Nat
  n1 : Nat
  n2 : Nat
  s0 : Int
  s1 : Int
  s2 : Int
  rep  : Bool
  pol  : Nat
  pos  : Nat
  buf  : List PortOp
  csr  : Option Csr
  row  : Nat
  code : Option Code
  pc   : Nat
  wait : Bool
deriving DecidableEq, Repr

/-- A tile register (R230): its shape word, the codes of its elements by row x 256 + column, the codes of its scale
area by line x 256 + place, and its poison code. Codes not listed are those of `TZERO` (R243). -/
structure Tile where
  shape  : W64
  elems  : Tab W32
  scales : Tab (BitVec 16)
  poison : Option Code
deriving DecidableEq, Repr

/-- The kind of an accumulator bank (R238). -/
inductive BankKind
  | unset | fp32 | int32
deriving DecidableEq, Repr

/-- The states of a core's cube lease (R235). -/
inductive LeaseSt
  | none | want | held
deriving DecidableEq, Repr

/-- A queued tile transfer (R249, R251): load or store, the tile operand, base, layout, span tag, the PC of its word, and the parts of its
lines as they were translated at its issue (R252), which a save does not keep. -/
structure Xfer where
  store : Bool
  ta    : BitVec 7
  base  : W64
  lay   : W64
  tag   : Nat
  pc    : Nat
  places : List (List (Place × W64 × Nat))
deriving DecidableEq, Repr

/-- The kind of a flock episode (R162): an `FRED` counts with its FN. -/
inductive EpKind
  | fbar
  | fred (fn : BitVec 3)
  | xph
deriving DecidableEq, Repr

/-- A team's place in its flock's episode (R162, R186): not arrived, arrived and waiting, or an episode completed
with a result (the bellwether flag or the reduction value; none where the episode had no effect). -/
inductive Arrival
  | idle
  | waiting (k : EpKind)
  | complete (k : EpKind) (result : Option W64)
deriving DecidableEq, Repr

/-- A team's `FJOIN` of a flock on another die (R280): nothing asked, the message on its way or not yet answered, joined, or refused. -/
inductive JoinSt
  | idle | asked | joined | refused
deriving DecidableEq, Repr

/-- A transfer phase of a team (R165 to R168): the cycle of phase cycle 0, the greatest offset used, and whether the
phase has ended before its `XEND`, whether X has reached `XEND`, and whether `XEND` has retired. -/
structure Phase where
  base  : Nat
  last  : Option Nat
  ended : Bool
  atEnd : Bool
deriving DecidableEq, Repr

/-- Which team this is (R172, R376, R377): the home drover, the node slot, the instance, the launch, fold and ASID,
and the physical addresses of its context area and LOC page. `fw` marks a firmware core's texts (R397). -/
structure TeamId where
  cls  : Cls
  drv  : Nat
  slot : Nat
  inst : Nat
  cnt  : Nat
  fold : Nat
  asid : Nat
  lid  : W64
  ctx  : Nat
  loc  : Nat
  fw   : Bool
deriving DecidableEq, Repr

/-- A brand register (R22, R169): its 128 bits, whether it is a view of a node slot's reference (with that slot) or
a counted reference that the team holds. -/
structure BrandReg where
  bits : W128
  view : Option Nat
deriving DecidableEq, Repr

/-- Everything of a team that is saved when it leaves its core and restored when it returns (R178, R185, R186). -/
structure TeamSt where
  id      : Option TeamId
  c       : StrandSt
  a       : StrandSt
  x       : StrandSt
  brands  : Tab BrandReg
  opened  : List Nat
  ca      : List QEnt
  cx      : List QEnt
  xc      : List QEnt
  ac      : List QEnt
  dq      : List DqEnt
  sdq     : List SdqEnt
  bq      : List BqEnt
  lq      : List LqEnt
  sq      : List StoreEnt
  scat    : List StoreEnt
  claims  : List Claim
  nextId  : Nat
  slip    : Nat
  fmtctl  : W32
  locsz   : W64
  waitth  : W64
  serr    : W32
  serra   : W64
  serrStrand : Strand
  serrPc  : Nat
  board   : Tab CopyEnt
  ends    : List CopyEnd
  tickets : List W64
  copySeq : BitVec 16
  runCyc  : Nat
  flock   : Option Nat
  join    : JoinSt
  arrival : Arrival
  phase   : Option Phase
  vregs   : Tab (List W32)
  vlat    : List (List W32)
  masks   : Tab (BitVec 128)
  amask   : BitVec 3
  ports   : Tab Port
  perm    : Tab (BitVec 7)
  tiles   : Tab Tile
  ix0     : BitVec 6
  ix1     : BitVec 6
  ix2     : BitVec 6
  staging : Tab Nat
  bank    : Tab W32
  kind    : BankKind
  fresh   : Bool
  leaseRq : Bool
  tq      : List Xfer
  mstat   : Tab W64
  xpandOut : Nat
  preHeld : Option Strand
  preNow  : Bool
  raised  : Option Nat
  order   : Nat
deriving DecidableEq, Repr

/-- The states of a configuration plane (R179). -/
inductive PlaneSt
  | empty | loading | ready | active
deriving DecidableEq, Repr

/-- A configuration plane (R179): state, text window (words not listed are 0, `c.nop`), format table, the team it
holds, the launch (drover, id) that it is preplaced for and that has not started (R391, R395), and whether its team has not started. -/
structure Plane where
  st   : PlaneSt
  text : Tab W32
  fmt  : Tab W32
  team : Option TeamSt
  pre  : Option (Nat × Nat)
  fresh : Bool
deriving DecidableEq, Repr

/-- One copy of a line in an L1 (R182, R356): physical line number, bytes, dirty bytes, lock count, whether it is
stale, whether it leaves the L1 when its lock count returns to zero, and whether its bytes have been filled (else only the
dirty ones hold a value). -/
structure L1Line where
  line  : Nat
  bytes : List Byte
  dirty : BitVec 64
  locks : Nat
  stale : Bool
  brief : Bool
  filled : Bool
deriving DecidableEq, Repr

/-- A fault record (R414) on its way to a fault queue, with the handle of the suspension that it owns (R417). -/
structure Record where
  addr   : W64
  node   : W32
  inst   : W32
  time   : Nat
  code   : Code
  strand : Nat
  site   : Nat
  core   : Nat
  pc     : Nat
  held   : Bool
  susp   : Bool
  aux    : Nat
  handle : Option Nat
deriving DecidableEq, Repr

/-- Why a team is leaving its core (R184): a fault, a pre-emption, a long-wait swap, or a reset of its cluster; or, on a DROVER core, that a
strand has raised a fault whose exception is entered once the stores have drained (R36, R192): the strand, the PC that EPC is to hold for
it, code and address. -/
inductive Leave
  | fault (r : Record)
  | entry (σ : Strand) (pc : Nat) (code : Code) (addr : W64)
  | preempt
  | swap
  | reset
deriving DecidableEq, Repr

/-- An `SWAIT` that holds X (R424): when it issued, its cause mask, its timeout in ns, and whether a cause that arose later has
woken this core. -/
structure Swait where
  start : Nat
  mask  : Nat
  limit : Nat
  woken : Bool
deriving DecidableEq, Repr

/-- One core (R178): the resident team, planes, L1, exception registers of a DROVER core, and the state of its save,
halt, lease and long-wait counter. `since` is the cycle from which the resident team has run (R130); `leaveAt` and `loadAt` are the times
at which it was asked to save its team and its shadow plane began to load (R447); `swapHeld` is a swap that waits for the end of a transfer phase
(R165). -/
structure CoreSt where
  run     : Bool
  team    : TeamSt
  active  : Plane
  shadow  : Plane
  l1      : Tab L1Line
  l1Next  : Nat
  leave   : Option Leave
  leaveAt : Nat
  loadAt  : Nat
  halted  : Bool
  waitmax : W64
  waitAcc : Nat
  waitAt  : Option Nat
  swapHeld : Bool
  ecause  : W32
  epc     : W64
  eaddr   : W64
  evec    : BitVec 14
  pendsel : W32
  asideL  : List (List Loop)
  asideS  : List (List Nat)
  asideM  : List (Nat × List Nat)
  asideO  : List (Nat × Option Nat)
  lease   : LeaseSt
  leaseN  : Nat
  leaseT  : Nat
  leaseU  : Nat
  swait   : Option Swait
  tlbi    : Option (List Nat)
  lastIss : Nat
  since   : Nat
  service : Bool
deriving DecidableEq, Repr

/-- A waiter record of a cluster (R275), or a polled wait (R278), with the team that waits. -/
structure Waiter where
  off     : Nat
  full    : Bool
  take    : Bool
  datum   : Option W32
  core    : Nat
  strand  : Strand
  team    : Nat
  swapped : Bool
  polled  : Bool
deriving DecidableEq, Repr

/-- A packet of the link layer (R306, R307): class (0 bulk, 1 express, 2 urgent), fold, its flits and the payload bytes of the last one,
its source and destination dies and its number at the source (of a packet for a peer package: among those of its source die, package and
class, R460); those flits sent and its number on the link; the cluster of the die that injects it, if one does, and the ABORT code of its
tail (R290); whether it is an urgent packet sent again (R311); and the cluster of the destination die and the peer package that it is for.
What it carries is performed elsewhere (log 25). -/
structure Packet where
  cls   : Nat
  fold  : Nat
  flits : Nat
  bytes : Nat
  from_ : Nat
  to_   : Nat
  id    : Nat
  sent  : Nat
  num   : Nat
  src   : Option Nat
  abort : Nat
  again : Bool
  dst   : Option Nat
  peer  : Option Nat
deriving DecidableEq, Repr

/-- A cluster (R272 to R278, R288): scratchpad bytes, the words that are full, the poisoned words, waiter records
oldest first, and a running reset with its start; `clearing` says that its step 4 has begun, so that packets for the cluster are
discarded (R290), and the packets delivered to its network interface that it has not answered, each with its time (R447). -/
structure Cluster where
  mem     : List (Nat × Byte)
  full    : Tab Bool
  bad     : Tab Bool
  waiters : List Waiter
  reset   : Option Nat
  clearing : Bool
  inbox   : List (Packet × Nat)
deriving DecidableEq, Repr

/-- An L2 piece (R293, R296). -/
structure Piece where
  bytes  : List Byte
  dirty  : Bool
  poison : Bool
deriving DecidableEq, Repr

/-- A leaf installed in a die's TLB (R303). -/
structure TlbEnt where
  asid  : Nat
  glob  : Bool
  va    : Nat
  size  : Nat
  pa    : Nat
  r : Bool
  w : Bool
  nc : Bool
  ms : Bool
  d : Bool
  pte   : Nat
deriving DecidableEq, Repr

/-- An invalidation message of `TLBI` (R176, R304): the kind, ASID, address, the core that counts acknowledgements, the site that sent it,
and whether it, or its acknowledgement, was discarded for want of a route, so that the die is never counted (R305, log 64). -/
structure TlbiMsg where
  kind : Nat
  asid : Nat
  va   : Nat
  by_  : Option CoreId
  from_ : Nat
  lost : Bool
deriving DecidableEq, Repr

/-- A flit on a link (R306): CLASS (3 for link control), POS, LEN, ABORT and FOLD, and as its payload the packet that it is of. -/
structure Flit where
  cls   : Nat
  pos   : Nat
  len   : Nat
  abort : Nat
  fold  : Nat
  pkt   : Option Packet
deriving DecidableEq, Repr

/-- A flit group on a link (R306): four flits, and in the trailer its sequence number, the one acknowledged in the other direction, and the
allowances returned by class. Whether its CRC is right comes with its receipt (log 25). -/
structure Group where
  seq   : Nat
  flits : List Flit
  ack   : Nat
  back  : Tab Nat
deriving DecidableEq, Repr

/-- One direction of a UCIe or scale-out port (R306 to R311): packets that wait, the open packet of each class, packets sent whole and not
yet delivered, urgent packets held for resending first and packets with a NAK to be sent again end to end; allowances used by class; slots
since the last bulk and express flit; the deficits and turns of R394; the group being filled, the sender's sequence number, the last one
acknowledged to it and its last 64 groups; the groups on the wire; at the receiver the sequence number expected, the flits of the open
packet of each class, the flits drained whose allowances are still to go back, and the NAKs reported by class; the replay asked for, whether
the receiver waits for one, and the replays of the expected group that failed; since when the link is down, and whether firmware has been
told; the number of the next packet on the link; and LKCFG (R309). -/
structure Link where
  waiting : List Packet
  opened  : Tab Packet
  flown   : List Packet
  held    : List Packet
  nak     : List Packet
  used    : Tab Nat
  sinceB  : Nat
  sinceE  : Nat
  deficit : Tab Nat
  turn    : Tab Nat
  group   : List Flit
  seq     : Nat
  acked   : Nat
  sentGrp : List Group
  wire    : List Group
  rxSeq   : Nat
  rxOpen  : Tab (List Flit)
  drained : Tab Nat
  naks    : Tab Nat
  replayRq : Option Nat
  asked   : Bool
  replays : Nat
  down    : Option Nat
  told    : Bool
  next    : Nat
  lkcfg   : W32
deriving DecidableEq, Repr

/-- A message to a flock's home die (R280 to R283): a member is named by its key and its node (drover x 65536 + slot). -/
inductive FlockMsg
  | join (entry key site fold node : Nat)
  | leave (entry key node : Nat)
  | arrive (entry key node : Nat) (k : EpKind) (v : W64)
deriving DecidableEq, Repr

/-- A member of a flock: its key, the site of its die and its node (R161, R280). -/
structure Member where
  key  : Nat
  site : Nat
  node : Nat
deriving DecidableEq, Repr

/-- One arrival at a flock's open episode (R281). -/
structure ArriveRec where
  key  : Nat
  node : Nat
  kind : EpKind
  val  : W64
deriving DecidableEq, Repr

/-- An entry of a die's flock table (R280): fold, members, whether it has ever had a member, the node it was made for, the number of the
open episode, its reduction value, the contribution area (physical address and pages) of a node's flock, and the open episode's arrivals
in order of arrival. -/
structure FlockEnt where
  fold    : Nat
  members : List Member
  had     : Bool
  node    : Option Nat
  episode : Nat
  value   : W64
  area    : Option (Nat × Nat)
  arrived : List ArriveRec
deriving DecidableEq, Repr

/-- A value driven on a transfer chain (R285): west or east, strip, cycle and value. -/
structure Drive where
  west  : Bool
  strip : Nat
  cycle : Nat
  val   : W64
deriving DecidableEq, Repr

/-- A CXL extent (R345): port, device address, base, length, fold, whether it is RELEASING, being swept, when its release was asked for, and
whether it has gone by force, its pages poisoned in the extent table (R349). -/
structure Extent where
  port : Nat
  dpa  : Nat
  base : Nat
  len  : Nat
  fold : Nat
  releasing : Bool
  sweep : Bool
  asked : Nat
  gone  : Bool
deriving DecidableEq, Repr

/-- A record of a die's error log (R343). -/
structure LogRec where
  seq  : Nat
  kind : Nat
  pc   : Nat
  addr : Nat
  ecnt : W64
  time : Nat
deriving DecidableEq, Repr

/-- The state of one logical frame in its stack's frame map (R325): the device frame, or the chunks it takes and the fold key under which
they are kept (R326). -/
inductive FrameSt
  | resident (frame : Nat)
  | cave (chunks : Nat) (key : BitVec 256)
  | zero
deriving DecidableEq, Repr

/-- One die. The parts that a die of another kind lacks stay at their reset values. `short` says that the die has signalled firmware that
its pool has no frame (R328); `pktSent` numbers the packets of its transport, and `pktDone` holds those that have reached it, by source
and number (R311); `peerSent` counts its packets for a peer package by 3 x package + class (R460); `collSeq` counts the descriptors
submitted for a group, and `collIn` holds the parts of peers that precede this member's descriptor, by group and its number (R464). -/
structure Die where
  clusters : Tab Cluster
  dsp      : List (Nat × Byte)
  dspBad   : Tab Bool
  l2       : Tab Piece
  tags     : Tab Nat
  tagAge   : Nat
  tlb      : List TlbEnt
  tlbiIn   : List TlbiMsg
  atb      : W64
  window   : Tab (W64 × BitVec 24)
  routes   : Tab Byte
  links    : Tab Link
  pktSent  : Nat
  pktDone  : List (Nat × Nat)
  peerSent : Tab Nat
  flocks   : Tab FlockEnt
  flockIn  : List FlockMsg
  drives   : List Drive
  lastHold : Nat
  stkcfg   : W64
  frames   : Tab FrameSt
  freeFr   : List Nat
  frTaken  : Nat
  caveUsed : Nat
  short    : Bool
  ecnt     : Tab W64
  elog     : List LogRec
  elogOvf  : Bool
  elogSeq  : Nat
  keys     : Tab (BitVec 256)
  extents  : Tab Extent
  pools    : Tab (W64 × W64)
  temp     : Int
  hotAt    : Option Nat
  volt     : BitVec 16
  pkgid    : BitVec 12
  peers    : Tab W64
  exports  : Tab (W64 × W64)
  rings    : Tab (W64 × W64 × W64 × W64)
  groups   : Tab W128
  collSeq  : Tab Nat
  collIn   : List (Nat × Nat × CollPart)
  ptp      : Tab (List (BitVec 16 × BitVec 4 × Nat))
  ptpOvf   : Tab Bool
deriving DecidableEq, Repr

/-- The states of a node (R370). -/
inductive NodeSt
  | idle | waiting | ready | running | done | failed | cancelled
deriving DecidableEq, Repr

/-- A node slot (R370), with the brand slots of R383, whether its instances run the variant text (R380), its place in its
ready queue, the time it became READY (R447), the format tables of its texts, and the instances that planes hold for a launch which has not
started (R391, R395). -/
structure Node where
  used    : Bool
  gid     : Nat
  pending : Nat
  pcur    : Nat
  pbase   : Nat
  flkreq  : Bool
  killed  : Bool
  fold    : Nat
  vclass  : Nat
  cls     : Nat
  st      : NodeSt
  disp    : Nat
  count   : Nat
  compl   : Nat
  flock   : Option Nat
  text    : W64
  vtext   : W64
  param   : W64
  brands  : W64
  nsucc   : Nat
  succ    : Nat
  slots   : Tab W128
  dropped : List Nat
  bound   : List (Nat × Nat)
  preds   : Nat
  variant : Option Bool
  readyAt : Nat
  readyNs : Nat
  agedAt  : Nat
  early   : List Nat
  fmt     : Tab W32
  vfmt    : Tab W32
deriving DecidableEq, Repr

/-- A record of the buffer table (R381). `freeing` says that the buffer is freed once the invalidation of its last mapping is over (R377). -/
structure Buf where
  pa     : Nat
  len    : Nat
  count  : Nat
  gen    : Nat
  fold   : Nat
  rights : BitVec 6
  graphOwned : Bool
  gid    : Option Nat
  live   : Bool
  freeing : Bool
deriving DecidableEq, Repr

/-- A launch waiting or running (R388 to R391, R395): the request, its validated patches (node index, parameter, value) and whether
they are applied, its id, when it arrived and started, and of a gang launch the folds reserved and the start time once committed. -/
structure Launch where
  req     : LaunchReq
  patches : List (Nat × Nat × W64)
  lid     : Nat
  started : Bool
  startAt : Nat
  arrived : Nat
  patched : Bool
  reserved : List Nat
  commit  : Option Nat
deriving DecidableEq, Repr

/-- A loaded graph (R371, R377): its node slots in index order, its buffer records, fold mask, ASID by fold, its launches, the running
one first, and where its image stands in graph memory. -/
structure Graph where
  nodes    : List Nat
  bufs     : List Nat
  mask     : Nat
  asids    : List (Nat × Nat)
  launches : List Launch
  base     : Nat
  size     : Nat
deriving DecidableEq, Repr

/-- What a swapped team waits for (R186, R187): a full/empty bit, an episode of its flock with its number, device time, a copy, all copies,
that no copy of the team overlaps the range of an access or `CPY` any more, a free entry of the scoreboard, or the retry of a polled wait
of a word. -/
inductive WaitCond
  | fe (site cluster off : Nat) (full : Bool)
  | flock (episode : Nat)
  | time (t : Nat)
  | ticket (t : W64)
  | anyCopy
  | range (ea : W64) (n : Nat) (src : Option W64)
  | board
  | polled (off : Nat)
deriving DecidableEq, Repr

/-- A team away from its core (R184, R187, R188, R374): its saved state, the core it left, the waits of its strands that it was swapped
out for (log 40), none of which is over, whether it may be dispatched again, the handle of its suspension, whether it has ended with copies
still running, and whether it has never started, its assignment having been withdrawn (R179). -/
structure Away where
  team   : TeamSt
  from_  : CoreId
  conds  : List WaitCond
  ready  : Bool
  handle : Option Nat
  dead   : Bool
  fresh  : Bool
deriving DecidableEq, Repr

/-- A suspension (R417): its handle's generation, whether it is live, whether it holds a copy, and whether it may be resumed (one
of a `RESET` record may only be killed). -/
structure Susp where
  gen  : Nat
  live : Bool
  copy : Bool
  mayResume : Bool
deriving DecidableEq, Repr

/-- A fold descriptor as one drover die holds it (R392). -/
structure FoldDesc where
  sites   : BitVec 60
  slot0   : BitVec 16
  slot1   : BitVec 16
  hq0     : BitVec 7
  hq1     : BitVec 7
  acnt    : BitVec 12
  abase   : BitVec 11
  wt      : BitVec 6
  waitmax : W32
  age     : W32
  lock    : Bool
  en      : Bool
deriving DecidableEq, Repr

/-- A queue control block (R409). -/
structure Qcb where
  base   : W64
  age    : W32
  st     : BitVec 2
  slot   : BitVec 6
  fold   : BitVec 3
  prio   : BitVec 3
  log2   : BitVec 5
  rdidx  : W64
  hdr    : W64
  part   : W64
  lgv    : Bool
  lgraph : W32
deriving DecidableEq, Repr

/-- The states of a hardware queue slot (R410). -/
inductive SlotSt
  | free | loaded | serving | stopped
deriving DecidableEq, Repr

/-- A hardware queue slot (R410, R413): its copy of the QCB, the order of its last kick, whether it is to examine its
ring, and the barrier-and it holds: its four signal addresses and its completion signal, as step 2 of R402 read them. -/
structure HwSlot where
  st     : SlotSt
  qcb    : Nat
  copy   : Qcb
  kicked : Nat
  look   : Bool
  barrier : Option (List W64 × W64)
deriving DecidableEq, Repr

/-- A mapping that `BOPEN` made in an ASID's open window (R170, R377): the ASID and its fold, the buffer (drover x 65536 + record), its address
and length, and the teams that opened it (node slot, instance). Of one that has ended, `left` holds the dies that have not acknowledged
its invalidation yet: none while its leaves still stand. -/
structure Window where
  asid  : Nat
  fold  : Nat
  buf   : Nat
  pa    : Nat
  len   : Nat
  users : List (Nat × Nat)
  ended : Bool
  left  : Option (List Nat)
deriving DecidableEq, Repr

/-- A table of an ASID's open window (R377): the page of the fold's BPOOL that holds it, and the address of the PTE that points to it
(log 50). -/
structure WinTable where
  asid : Nat
  fold : Nat
  page : Nat
  at_  : Nat
deriving DecidableEq, Repr

/-- One drover (R369 to R417): graphs, nodes, buffers, folds, queues, faults and the teams away from their cores; `asks` are triggers whose
patch list could not be read yet, in arrival order (R388). -/
structure Drover where
  gmem     : List (Nat × Byte)
  nodes    : Tab Node
  graphs   : Tab Graph
  nextLid  : Nat
  bufs     : Tab Buf
  wins     : List Window
  tables   : List WinTable
  bkeys    : Tab (BitVec 256)
  folds    : Tab FoldDesc
  bpool    : Tab (W64 × W64)
  disc     : Tab W128
  wdcfg    : Tab W64
  qcbs     : Tab Qcb
  slots    : Tab HwSlot
  pend     : Tab Bool
  kickSeq  : Nat
  waitRec  : List Record
  faultQ   : List Record
  susps    : Tab Susp
  away     : List Away
  doneQ    : List (Nat × Bool)
  readySeq : Nat
  fwkick   : Tab Nat
  mbox     : List W64
  pools    : Tab (List (Nat × Nat))
  ageAt    : Tab Nat
  asks     : List (Nat × LaunchReq)
deriving DecidableEq, Repr

/-- The management function, boot ROM, time base and power (R433 to R452, R469 to R473). `slew` is the offset still to apply, in units of
2^-16 ns; `rateRem` and `slewRem` are what TMRATE and the slew leave over of a unit; `mboxHost` holds the messages to the host, each with
the drover die whose vector announces it (R453), `fwlog` is the firmware log ring (R441), and `toRetire` holds the retirements that wait for
the end of a reset, each with its reason (R449). -/
structure Mgmt where
  phase    : Nat
  bootstat : BitVec 8
  rststat  : W32
  pcap     : BitVec 13
  therm    : Bool
  cap      : Bool
  brownout : Bool
  record   : List (Nat × Nat × Nat)
  recSeq   : Nat
  recValid : Bool
  staging  : List (Nat × Byte)
  fwmem    : List (Nat × Byte)
  fwwords  : Nat
  digest   : BitVec 512
  secver   : W32
  mboxHost : List (Nat × W64)
  fwlog    : List (Nat × Byte)
  report   : Option (List Byte)
  apbase   : W64
  hpsel    : BitVec 8
  hostUp   : Tab Bool
  timeSrc  : BitVec 2
  timeHold : Bool
  srcAt    : Nat
  tmrate   : W64
  slew     : Int
  tmfrac   : BitVec 16
  rateRem  : Nat
  slewRem  : Nat
  fwasid   : Nat
  toRetire : List (Nat × Nat)
deriving DecidableEq, Repr

/-- A collective in progress on a ring (R462 to R467): its descriptor and its number among those of its group, whether the engine has read
its inputs, this member's own partial, the children's by port, what it sends up the tree, the result, the package numbers of the ranks, the
gathered elements by package, the status once it has one, and when it started to wait. -/
structure Coll where
  desc    : List W32
  idx     : Nat
  started : Bool
  own     : List CollVal
  kids    : Tab (List CollVal)
  up      : Option (List CollVal)
  final   : Option (List CollVal)
  ranks   : List Nat
  parts   : Tab (List Byte)
  status  : Option Nat
  since   : Nat
deriving DecidableEq, Repr

/-- A page under migration (R341): the core whose `MMIG` asked for it, its old physical page and its new one. -/
structure Mig where
  core : CoreId
  old  : Nat
  new  : Nat
deriving DecidableEq, Repr

/-- What moves next, as the outside of the model decides it: a strand's turn, a step of the opcode table, one word of a
running copy, the drover's invalidation of a mapping that has ended (R377), the completion signal of a launch that a fold reset ended
(R445), or one of these whose accesses of a kind do not complete: 0 CXL, 1 HOST, 2 REMOTE (R346, R455, R461). -/
inductive Sched
  | issue (c : CoreId) (σ : Strand)
  | step (i : Instr) (x : EvArg)
  | copyWord (c : CoreId) (e : Nat)
  | unmap (d asid buf : Nat)
  | signal (d : Nat) (req : LaunchReq) (st : Nat)
  | trigger (d gid : Nat)
  | late (kind aux : Nat) (m : Sched)
deriving DecidableEq, Repr

/-- The state of the package. Memory at home, its poison, errors and counters go by the number that a line has at its home (R315, R316,
log 43): `lineKey` names the key and the physical line that a line is stored under (R321, R346), `treeBad` the counter blocks that the
integrity tree does not match (R323). `waits` holds the requests that had to wait, each with the turn from
which it moves again (log 1). `lapse` is set while an entry `late` of the agenda moves: the kind of the accesses that do not complete, and the
auxiliary word of their failure. `peerNext` is the number of the next request of a peer package to be performed, by source die, package and
class (R460); `up` counts the time that has passed, in units of 2^-16 ns, whatever the time base says (R470). -/
structure State where
  cores    : Tab CoreSt
  dies     : Tab Die
  drovers  : Tab Drover
  mgmt     : Mgmt
  colls    : Tab Coll
  mem      : List Host.Cell
  lineBad  : Tab Bool
  lineKey  : Tab (BitVec 256 × Nat)
  treeBad  : Tab Bool
  minor    : Tab (BitVec 7)
  major    : Tab W64
  latent   : Tab Nat
  hostMem  : List Host.Cell
  peerMem  : Tab (List Host.Cell)
  peerNext : Tab Nat
  lapse    : Option (Nat × Nat)
  migrate  : List Mig
  reply    : Reply
  cyc      : Nat
  ns       : W64
  frac     : BitVec 16
  up       : Nat
  ticks    : Nat
  freeCtr  : Nat
  ev       : EvArg
  agenda   : List Sched
  waits    : List (Nat × Sched)
  cur      : CoreId
  strand   : Strand
  turn     : Nat
deriving DecidableEq, Repr

/-- Why a step stops the machine with a fault. -/
inductive Fault
  /-- Raised by no step of this model: every fault of the manual is taken by the machine itself (R36, R192), so a run never
  stops. Safe: the machine goes on where the hardware goes on. -/
  | never
deriving DecidableEq, Repr

/-- Why the machine has no step. -/
inductive Refusal
  /-- Raised by an arm of `exec` whose instruction has no meaning yet. Safe: the model stops where the hardware goes on. -/
  | notModelled (mnemonic : String)
deriving DecidableEq, Repr

/-- A strand at team start (R18, R20, R24, R34, R181). -/
def StrandSt.reset : StrandSt :=
  { pc := 0, span := 0, exited := false, regs := [], preds := 0, lat := List.replicate 8 0, link := [], loops := [],
    loopSeq := 0, dead := [], waitT := 0, waitV := false, hold := .none, org := none, feDone := none }

/-- A team at its start (R20, R24, R31, R181, R190, R191, R230, R233, R238, R266). A core that holds no team keeps it in
the same form (log 8). -/
def TeamSt.reset : TeamSt :=
  { id := none, c := StrandSt.reset, a := StrandSt.reset, x := StrandSt.reset, brands := [], opened := [],
    ca := [], cx := [], xc := [], ac := [], dq := [], sdq := [], bq := [], lq := [], sq := [], scat := [], claims := [],
    nextId := 0, slip := 8, fmtctl := 0, locsz := 0, waitth := 24000, serr := 0, serra := 0, serrStrand := .C, serrPc := 0,
    board := [], ends := [], tickets := [], copySeq := 0, runCyc := 0, flock := none, join := .idle, arrival := .idle, phase := none,
    vregs := [], vlat := [], masks := [], amask := 7, ports := [], perm := [], tiles := [], ix0 := 0, ix1 := 0, ix2 := 0,
    staging := [(0, 64), (1, 64), (2, 64)], bank := [], kind := .unset, fresh := true, leaseRq := false, tq := [],
    mstat := [], xpandOut := 0, preHeld := none, preNow := false, raised := none, order := 0 }

/-- An EMPTY configuration plane (R179): every word of its window is `c.nop` (R15). -/
def Plane.reset : Plane :=
  { st := .empty, text := [], fmt := [], team := none, pre := none, fresh := false }

/-- A core after reset: no team, planes EMPTY, no valid L1 line (R181, R182, R191, R192, R425; EPC, EADDR and EVEC: log 8).
A DROVER core runs nothing before firmware starts (R435). -/
def CoreSt.reset : CoreSt :=
  { run := false, team := TeamSt.reset, active := Plane.reset, shadow := Plane.reset, l1 := [], l1Next := 0, leave := none,
    leaveAt := 0, loadAt := 0, halted := false, waitmax := 24000, waitAcc := 0, waitAt := none, swapHeld := false, ecause := 0, epc := 0, eaddr := 0, evec := 0,
    pendsel := 0xFF, asideL := [], asideS := [], asideM := [], asideO := [], lease := .none, leaseN := 0, leaseT := 0, leaseU := 0, swait := none,
    tlbi := none, lastIss := 0, since := 0, service := true }

/-- A cluster after reset: scratchpad zero, every full/empty bit empty (R274, R289). -/
def Cluster.fresh : Cluster :=
  { mem := [], full := [], bad := [], waiters := [], reset := none, clearing := false, inbox := [] }

/-- One direction of a link after reset (R306, R309). -/
def Link.reset : Link :=
  { waiting := [], opened := [], flown := [], held := [], nak := [], used := [], sinceB := 0, sinceE := 0, deficit := [], turn := [],
    group := [], seq := 0, acked := 0, sentGrp := [], wire := [], rxSeq := 0, rxOpen := [], drained := [], naks := [], replayRq := none,
    asked := false, replays := 0, down := none, told := false, next := 0, lkcfg := 1 }

/-- STKCFG after reset: CAVEFR 0, LFR 1032192, ENC 0, FOLD 0 (R342). -/
def stkcfgReset : W64 := 1032192#64 <<< 13

/-- A die after reset. -/
def Die.reset : Die :=
  { clusters := [], dsp := [], dspBad := [], l2 := [], tags := [], tagAge := 0, tlb := [], tlbiIn := [], atb := 0,
    window := [], routes := [], links := [], pktSent := 0, pktDone := [], peerSent := [], flocks := [], flockIn := [], drives := [], lastHold := 3, stkcfg := stkcfgReset,
    frames := [], freeFr := [], frTaken := 0, caveUsed := 0, short := false, ecnt := [], elog := [], elogOvf := false, elogSeq := 0,
    keys := [], extents := [], pools := [], temp := 0, hotAt := none, volt := 0, pkgid := 0, peers := [], exports := [], rings := [],
    groups := [], collSeq := [], collIn := [], ptp := [], ptpOvf := [] }

/-- A fold descriptor after reset (R392). -/
def FoldDesc.reset : FoldDesc :=
  { sites := 0, slot0 := 0, slot1 := 0, hq0 := 0, hq1 := 0, acnt := 0, abase := 0, wt := 1, waitmax := 24000, age := 48000,
    lock := false, en := false }

/-- A QCB after reset: DISABLED (R409). -/
def Qcb.reset : Qcb :=
  { base := 0, age := 0, st := 0, slot := 0, fold := 0, prio := 0, log2 := 0, rdidx := 0, hdr := 0, part := 0, lgv := false,
    lgraph := 0 }

/-- A hardware queue slot after reset: FREE (R410). -/
def HwSlot.reset : HwSlot :=
  { st := .free, qcb := 0, copy := Qcb.reset, kicked := 0, look := false, barrier := none }

/-- A node slot after reset (R370). -/
def Node.reset : Node :=
  { used := false, gid := 0, pending := 0, pcur := 0, pbase := 0, flkreq := false, killed := false, fold := 0, vclass := 0,
    cls := 0, st := .idle, disp := 0, count := 0, compl := 0, flock := none, text := 0, vtext := 0, param := 0, brands := 0,
    nsucc := 0, succ := 0, slots := [], dropped := [], bound := [], preds := 0, variant := none, readyAt := 0, readyNs := 0, agedAt := 0, early := [],
    fmt := [], vfmt := [] }

/-- A buffer record that has never been used (R381). -/
def Buf.reset : Buf :=
  { pa := 0, len := 0, count := 0, gen := 0, fold := 0, rights := 0, graphOwned := false, gid := none, live := false, freeing := false }

/-- A drover after reset. -/
def Drover.reset : Drover :=
  { gmem := [], nodes := [], graphs := [], nextLid := 0, bufs := [], wins := [], tables := [], bkeys := [], folds := [], bpool := [],
    disc := [], wdcfg := [], qcbs := [], slots := [], pend := [], kickSeq := 0, waitRec := [], faultQ := [], susps := [],
    away := [], doneQ := [], readySeq := 0, fwkick := [], mbox := [], pools := [], ageAt := [], asks := [] }

/-- The management function after reset (R435, R441 to R443, R470; PCAP and HPSEL: log 8). -/
def Mgmt.reset : Mgmt :=
  { phase := 0, bootstat := 0, rststat := 0, pcap := 5500, therm := false, cap := false,
    brownout := false, record := [], recSeq := 0, recValid := true, staging := [], fwmem := [], fwwords := 0, digest := 0,
    secver := 0, mboxHost := [], fwlog := [], report := none, apbase := 0, hpsel := 0, hostUp := [], timeSrc := 0, timeHold := false, srcAt := 0,
    tmrate := 0, slew := 0, tmfrac := 0, rateRem := 0, slewRem := 0, fwasid := 0, toRetire := [] }

/-- The state after package reset, before the boot ROM has done anything (R435, R446). Numbers without an entry in a table
hold the reset value of that table's kind. -/
def State.reset : State :=
  { cores := [], dies := [], drovers := [], mgmt := Mgmt.reset, colls := [], mem := [], lineBad := [], lineKey := [], treeBad := [], minor := [],
    major := [], latent := [], hostMem := [], peerMem := [], peerNext := [], lapse := none, migrate := [], reply := .nothing, cyc := 0, ns := 0, frac := 0, up := 0, ticks := 0, freeCtr := 0, ev := EvArg.zero, agenda := [], waits := [], cur := ⟨0, 0⟩, strand := .C, turn := 0 }

end Sys2Proof.Machine
end

