-- ==== Sys2Proof/Machine/Bits.lean ====
section
/-! DEFINITION. The small operations that the rest of the machine is written with: tables, memory cells, byte order,
sign extension and bit fields. -/

namespace Sys2Proof.Machine

/-- The entry of number `k`, or `d` where none is listed. -/
def tget {α : Type} (d : α) : Tab α → Nat → α
  | [], _ => d
  | (i, v) :: t, k => if i = k then v else tget d t k

/-- The entry of number `k`, where one is listed. -/
def tget? {α : Type} : Tab α → Nat → Option α
  | [], _ => none
  | (i, v) :: t, k => if i = k then some v else tget? t k

/-- The table with `v` at number `k`; the numbers stay strictly rising. -/
def tset {α : Type} : Tab α → Nat → α → Tab α
  | [], k, v => [(k, v)]
  | (i, w) :: t, k, v =>
    if k < i then (k, v) :: (i, w) :: t else if k = i then (k, v) :: t else (i, w) :: tset t k v

/-- The table without number `k`. -/
def tdel {α : Type} : Tab α → Nat → Tab α
  | [], _ => []
  | (i, w) :: t, k => if i = k then t else (i, w) :: tdel t k

/-- Every listed value changed by `f`. -/
def tmap {α β : Type} (f : Nat → α → β) (t : Tab α) : Tab β := t.map fun e => (e.1, f e.1 e.2)

/-- The entries that satisfy `p`. -/
def tfilter {α : Type} (p : Nat → α → Bool) (t : Tab α) : Tab α := t.filter fun e => p e.1 e.2

/-- The lowest number below `n` that is not listed. -/
def tfree {α : Type} (t : Tab α) (n : Nat) : Option Nat := (List.range n).find? fun k => (tget? t k).isNone

/-- What an address that no cell lists reads as (log 4): 0. -/
def emptyByte : Byte := 0

/-- The byte at an address. -/
def cget : List Host.Cell → Nat → Byte
  | [], _ => emptyByte
  | (i, v) :: t, a => if i = a then v else if a < i then emptyByte else cget t a

/-- The cells after a byte is written, in the one canonical form: addresses strictly rising, and no entry that equals what
an unlisted address reads as. -/
def cset : List Host.Cell → Nat → Byte → List Host.Cell
  | [], a, v => if v = emptyByte then [] else [(a, v)]
  | (i, w) :: t, a, v =>
    if a < i then (if v = emptyByte then (i, w) :: t else (a, v) :: (i, w) :: t)
    else if a = i then (if v = emptyByte then t else (a, v) :: t)
    else (i, w) :: cset t a v

/-- Every address of the cells is above `b`, the addresses rise strictly, and no cell holds `emptyByte`. -/
def cellsFrom : Nat → List Host.Cell → Bool
  | _, [] => true
  | b, (i, v) :: t => decide (b ≤ i) && decide (v ≠ emptyByte) && cellsFrom (i + 1) t

/-- The canonical form of a list of cells. -/
def Memory.wf (m : List Host.Cell) : Bool := cellsFrom 0 m

/-- The `n` bytes from address `a`. -/
def cread (m : List Host.Cell) (a n : Nat) : List Byte := (List.range n).map fun k => cget m (a + k)

/-- The cells after the bytes are written from address `a` on. -/
def cwrite (m : List Host.Cell) (a : Nat) : List Byte → List Host.Cell
  | [] => m
  | b :: t => cwrite (cset m a b) (a + 1) t

/-- The cells without those of addresses `a` to `a + n - 1`. -/
def cclear (m : List Host.Cell) (a n : Nat) : List Host.Cell := m.filter fun e => decide (e.1 < a) || decide (a + n ≤ e.1)

/-- The number that the bytes hold, the first byte least significant (R6). -/
def leNat : List Byte → Nat
  | [] => 0
  | b :: t => b.toNat + 256 * leNat t

/-- The `n` low bytes of a number, the least significant first (R6). -/
def leBytes : Nat → Nat → List Byte
  | 0, _ => []
  | n + 1, v => BitVec.ofNat 8 v :: leBytes n (v / 256)

/-- Bits `hi` to `lo` of a number. -/
def bits (v hi lo : Nat) : Nat := v / 2 ^ lo % 2 ^ (hi + 1 - lo)

/-- Bit `k` of a number. -/
def bit (v k : Nat) : Bool := v / 2 ^ k % 2 == 1

/-- A two's complement value of `n` bits. -/
def sextNat (n v : Nat) : Int := if v < 2 ^ (n - 1) then (v : Int) else (v : Int) - 2 ^ n

/-- An integer as a two's complement value of 64 bits. -/
def w64 (v : Int) : W64 := BitVec.ofInt 64 v

/-- The number of a truth value. -/
def b2n (b : Bool) : Nat := if b then 1 else 0

/-- The word of a truth value. -/
def b2w (b : Bool) : W64 := if b then 1 else 0

/-- Bits 31 to 0 of a word. -/
def lo32 (v : W64) : W32 := v.setWidth 32

/-- Bits 63 to 32 of a word. -/
def hi32 (v : W64) : W32 := (v >>> 32).setWidth 32

/-- Two lanes as one 64-bit value, the first in bits 31 to 0 (R100). -/
def lanes64 (l : List W32) : W64 := (l.getD 1 0) ++ (l.getD 0 0)

/-- The lanes of a 64-bit value. -/
def of64 (v : W64) : List W32 := [lo32 v, hi32 v]

/-- `n` lanes whose lanes 1 and 0 hold a scalar, with every other lane zero (R100). -/
def scalarLanes (n : Nat) (v : W64) : List W32 := of64 v ++ List.replicate (n - 2) 0

/-- The bytes of lanes. -/
def laneBytes (l : List W32) : List Byte := l.flatMap fun v => leBytes 4 v.toNat

/-- `n` lanes read from bytes. -/
def bytesLanes : Nat → List Byte → List W32
  | 0, _ => []
  | n + 1, bs => BitVec.ofNat 32 (leNat (bs.take 4)) :: bytesLanes n (bs.drop 4)

/-- The value of a list at a place, changed. -/
def lset {α : Type} (l : List α) (k : Nat) (v : α) : List α := l.set k v

/-- The number of distinct true places. -/
def countTrue (l : List Bool) : Nat := (l.filter id).length

end Sys2Proof.Machine
end

