-- ==== Sys2Proof/Machine/Fmt.lean ====
section
/-! DEFINITION. Number formats and exact arithmetic (R67 to R98): exact values, the value of every code, and rounding an
exact value once into a format. -/

namespace Sys2Proof.Machine

/-- The bits of a format table entry that are not reserved (R84): the others read 0 (R9). -/
def ftbMask : W32 := 0x07FFFF0F

/-- An exact value: NaN, an infinity, or (-1)^neg x m x 2^e. A zero keeps its sign (R81). -/
inductive ExNum
  | nan
  | inf (neg : Bool)
  | fin (neg : Bool) (m : Nat) (e : Int)
deriving DecidableEq, Repr

/-- A binary format as an encoder sees it (R69, R75 to R79): trailing bits, exponent of the least normal value, code of
the largest finite magnitude, the weight of the sign bit (none: unsigned), the canonical NaN (none: the format has none),
the code of +infinity (none: the format has none), and whether a zero keeps its sign. -/
structure FFmt where
  t    : Nat
  emin : Int
  top  : Nat
  sign : Option Nat
  nan  : Option Nat
  inf  : Option Nat
  nz   : Bool
deriving DecidableEq, Repr

/-- FP32 (R69, R72). -/
def fFP32 : FFmt := ⟨23, -126, 0x7F7FFFFF, some 31, some 0x7FC00000, some 0x7F800000, true⟩

/-- BF16 (R69, R72). -/
def fBF16 : FFmt := ⟨7, -126, 0x7F7F, some 15, some 0x7FC0, some 0x7F80, true⟩

/-- FP16 (R69, R72). -/
def fFP16 : FFmt := ⟨10, -14, 0x7BFF, some 15, some 0x7E00, some 0x7C00, true⟩

/-- FP8 E4M3 under a reading (R75). -/
def fE4M3 (read : Nat) : FFmt :=
  if read == 0 then ⟨3, -6, 0x7F, some 7, none, none, true⟩ else ⟨3, -6, 0x7E, some 7, some 0x7F, none, true⟩

/-- FP8 E5M2 under a reading (R75). -/
def fE5M2 (read : Nat) : FFmt :=
  if read == 0 then ⟨2, -14, 0x7F, some 7, none, none, true⟩
  else if read == 1 then ⟨2, -14, 0x7B, some 7, some 0x7E, none, true⟩
  else ⟨2, -14, 0x7B, some 7, some 0x7E, some 0x7C, true⟩

/-- FP4 E2M1 (R76). -/
def fE2M1 : FFmt := ⟨1, 0, 7, some 3, none, none, true⟩

/-- P3109 of precision `p`, signed or unsigned, under a reading (R77 to R79). -/
def fP3109 (p : Nat) (uns : Bool) (read : Nat) : FFmt :=
  let w := if uns then 9 - p else 8 - p
  let b : Int := 2 ^ (w - 1)
  if uns then
    if read == 0 then ⟨p - 1, 1 - b, 0xFF, none, none, none, false⟩
    else if read == 1 then ⟨p - 1, 1 - b, 0xFE, none, some 0xFF, none, false⟩
    else ⟨p - 1, 1 - b, 0xFD, none, some 0xFF, some 0xFE, false⟩
  else
    if read == 0 then ⟨p - 1, 1 - b, 0x7F, some 7, none, none, false⟩
    else if read == 1 then ⟨p - 1, 1 - b, 0x7F, some 7, some 0x80, none, false⟩
    else ⟨p - 1, 1 - b, 0x7E, some 7, some 0x80, some 0x7F, false⟩

/-- The value of a magnitude code: exponent field zero is subnormal (R75, R77). -/
def ffMag (f : FFmt) (neg : Bool) (c : Nat) : ExNum :=
  let ex := c / 2 ^ f.t
  let tr := c % 2 ^ f.t
  if ex == 0 then .fin neg tr (f.emin - f.t) else .fin neg (tr + 2 ^ f.t) (f.emin - f.t + ex - 1)

/-- The exact value of a code of a binary format (R10 `Decode`; R69, R75, R77). -/
def ffDecode (f : FFmt) (c : Nat) : ExNum :=
  match f.sign with
  | some s =>
    let mag := c % 2 ^ s
    let neg := bit c s
    if c % 2 ^ (s + 1) == 2 ^ s && !f.nz && f.nan.isSome then .nan
    else if f.inf == some mag then .inf neg
    else if f.top < mag && f.nan.isSome then .nan
    else ffMag f neg mag
  | none =>
    if f.inf == some c then .inf false
    else if f.top < c && f.nan.isSome then .nan
    else ffMag f false c

/-- Twice the discarded part compared with one unit: rounds `m x 2^e` to a multiple of `2^q` and gives the count of units
for a magnitude, under a mode of R71 applied to a value of the given sign. `odd` says that the lower neighbour's code has
bit 0 set. -/
def roundUp (mode : Nat) (neg odd : Bool) (rem unit : Nat) : Bool :=
  if rem == 0 then false
  else match mode with
    | 0 => decide (unit < 2 * rem) || (2 * rem == unit && odd)
    | 1 => false
    | 2 => !neg
    | _ => neg

/-- floor(log2 m) for m > 0. -/
def ilog2 (m : Nat) : Int := (Nat.log2 m : Int)

/-- The magnitude code of a positive exact value rounded once, as if the exponent range were unbounded above (R81). -/
def ffRoundMag (f : FFmt) (mode : Nat) (neg : Bool) (m : Nat) (e : Int) : Nat :=
  let qmin := f.emin - f.t
  let q := max (ilog2 m + e - f.t) qmin
  let base := (q - qmin).toNat * 2 ^ f.t
  if e ≥ q then base + m * 2 ^ (e - q).toNat
  else
    let unit := 2 ^ (q - e).toNat
    let lo := base + m / unit
    if roundUp mode neg (lo % 2 == 1) (m % unit) unit then lo + 1 else lo

/-- The code with its sign bit. -/
def ffSign (f : FFmt) (neg : Bool) (mag : Nat) : Nat :=
  match f.sign with
  | some s => if neg then mag + 2 ^ s else mag
  | none => mag

/-- The code of a zero (R81). -/
def ffZero (f : FFmt) (neg : Bool) : Nat := if f.nz then ffSign f neg 0 else 0

/-- What an overflowing result is encoded as (R81). -/
def ffOver (f : FFmt) (mode : Nat) (sat neg : Bool) : Nat :=
  match f.nan, f.inf with
  | none, _ => ffSign f neg f.top
  | some n, none => if sat then ffSign f neg f.top else n
  | some _, some i =>
    if sat || mode == 1 || (mode == 2 && neg) || (mode == 3 && !neg) then ffSign f neg f.top else ffSign f neg i

/-- An infinity encoded into a format (R82). -/
def ffInf (f : FFmt) (sat neg : Bool) : Nat :=
  match f.nan, f.inf with
  | none, _ => ffSign f neg f.top
  | some n, none => if sat then ffSign f neg f.top else n
  | some _, some i => if sat then ffSign f neg f.top else ffSign f neg i

/-- An exact value encoded into a format: rounded once in a mode (R71, R81, R82). -/
def ffEncode (f : FFmt) (mode : Nat) (sat : Bool) : ExNum → Nat
  | .nan => f.nan.getD 0
  | .inf neg => if neg && f.sign.isNone then 0 else ffInf f sat neg
  | .fin neg m e =>
    if m == 0 then ffZero f neg
    else if neg && f.sign.isNone then 0
    else
      let c := ffRoundMag f mode neg m e
      if f.top < c then ffOver f mode sat neg
      else if c == 0 then ffZero f neg
      else ffSign f neg c

/-- An exact value rounded to an integer in a mode of R71. -/
def roundInt (mode : Nat) (neg : Bool) (m : Nat) (e : Int) : Int :=
  let mag : Nat :=
    if 0 ≤ e then m * 2 ^ e.toNat
    else
      let unit := 2 ^ (-e).toNat
      let lo := m / unit
      if roundUp mode neg (lo % 2 == 1) (m % unit) unit then lo + 1 else lo
  if neg then -(mag : Int) else mag

/-- An integer clamped to a range (R67). -/
def clampI (lo hi v : Int) : Int := if v < lo then lo else if hi < v then hi else v

/-- A value converted into an integer format of the range: rounds, saturates, NaN gives 0 (R83). -/
def toIntSat (lo hi : Int) (mode : Nat) : ExNum → Int
  | .nan => 0
  | .inf neg => if neg then lo else hi
  | .fin neg m e => clampI lo hi (roundInt mode neg m e)

/-- The exact value of an integer. -/
def ofInt (v : Int) : ExNum := .fin (decide (v < 0)) v.natAbs 0

/-- The sign of a value. -/
def ExNum.isNeg : ExNum → Bool
  | .nan => false
  | .inf n => n
  | .fin n _ _ => n

/-- Whether a value is NaN. -/
def ExNum.isNaN : ExNum → Bool
  | .nan => true
  | _ => false

/-- Whether a value is an infinity. -/
def ExNum.isInf : ExNum → Bool
  | .inf _ => true
  | _ => false

/-- Whether a value is a zero. -/
def ExNum.isZero : ExNum → Bool
  | .fin _ m _ => m == 0
  | _ => false

/-- The value with its sign flipped. -/
def ExNum.neg : ExNum → ExNum
  | .nan => .nan
  | .inf n => .inf !n
  | .fin n m e => .fin (!n) m e

/-- The magnitude of a value. -/
def ExNum.abs : ExNum → ExNum
  | .nan => .nan
  | .inf _ => .inf false
  | .fin _ m e => .fin false m e

/-- The exact product (R70, R114): infinity times zero is NaN. -/
def mulN : ExNum → ExNum → ExNum
  | .nan, _ => .nan
  | _, .nan => .nan
  | .inf a, .inf b => .inf (a != b)
  | .inf a, .fin b m _ => if m == 0 then .nan else .inf (a != b)
  | .fin a m _, .inf b => if m == 0 then .nan else .inf (a != b)
  | .fin a m e, .fin b n f => .fin (a != b) (m * n) (e + f)

/-- A signed multiple of 2^q, for q no greater than the value's exponent. -/
def scaled (neg : Bool) (m : Nat) (e q : Int) : Int :=
  let v : Int := m * 2 ^ (e - q).toNat
  if neg then -v else v

/-- The exact sum (R70, R114); an exact zero sum of unlike signs is +0, or -0 toward minus infinity (mode 3). -/
def addN (mode : Nat) : ExNum → ExNum → ExNum
  | .nan, _ => .nan
  | _, .nan => .nan
  | .inf a, .inf b => if a == b then .inf a else .nan
  | .inf a, .fin _ _ _ => .inf a
  | .fin _ _ _, .inf b => .inf b
  | .fin a m e, .fin b n f =>
    let q := min e f
    let v := scaled a m e q + scaled b n f q
    if v == 0 then (if a == b then .fin a 0 0 else .fin (mode == 3) 0 0) else .fin (decide (v < 0)) v.natAbs q

/-- The order of two values that are not NaN: less (R115, R116), with -0 equal to +0. -/
def ltN : ExNum → ExNum → Bool
  | .inf a, .inf b => a && !b
  | .inf a, .fin _ _ _ => a
  | .fin _ _ _, .inf b => !b
  | .fin a m e, .fin b n f => let q := min e f; decide (scaled a m e q < scaled b n f q)
  | _, _ => false

/-- Equality of two values that are not NaN, with -0 equal to +0 (R116). -/
def eqN (a b : ExNum) : Bool := !a.isNaN && !b.isNaN && !ltN a b && !ltN b a

/-- The lesser of two values that are not NaN, with -0 less than +0 (R115). -/
def minV (a b : ExNum) : ExNum := if ltN a b then a else if ltN b a then b else if a.isNeg then a else b

/-- The greater of two values that are not NaN, with -0 less than +0 (R115). -/
def maxV (a b : ExNum) : ExNum := if ltN a b then b else if ltN b a then a else if a.isNeg then b else a

/-- IEEE 754-2019 minimum (R115). -/
def minN (a b : ExNum) : ExNum := if a.isNaN || b.isNaN then .nan else minV a b

/-- IEEE 754-2019 maximum (R115). -/
def maxN (a b : ExNum) : ExNum := if a.isNaN || b.isNaN then .nan else maxV a b

/-- minimumNumber (R115). -/
def minNum (a b : ExNum) : ExNum := if a.isNaN then b else if b.isNaN then a else minV a b

/-- maximumNumber (R115). -/
def maxNum (a b : ExNum) : ExNum := if a.isNaN then b else if b.isNaN then a else maxV a b

/-- The FP32 value of 32 bits (R69). -/
def f32 (v : W32) : ExNum := ffDecode fFP32 v.toNat

/-- An exact value rounded once to FP32 in a mode; overflow under the IEEE rule (R71, R81). -/
def r32 (mode : Nat) (x : ExNum) : W32 := BitVec.ofNat 32 (ffEncode fFP32 mode false x)

/-- `Canon` into FP32 without SAT (R10, R72). -/
def canon32 (v : W32) : W32 := r32 0 (f32 v)

/-! ### Square roots, reciprocals, powers and logarithms, correctly rounded (R73) -/

/-- The integer square root of `n`, bit by bit from bit `k`. -/
def isqrtFrom : Nat → Nat → Nat → Nat
  | 0, n, r => if (r + 1) * (r + 1) ≤ n then r + 1 else r
  | k + 1, n, r =>
    let r' := r + 2 ^ (k + 1)
    isqrtFrom k n (if r' * r' ≤ n then r' else r)

/-- The integer square root. -/
def isqrt (n : Nat) : Nat := isqrtFrom (Nat.log2 n / 2 + 1) n 0

/-- A value known to 66 bits or more, with what is left out noted in a last bit: it rounds into every format as the exact
value does. -/
def withSticky (neg : Bool) (q : Nat) (exact : Bool) (e : Int) : ExNum :=
  .fin neg (2 * q + (if exact then 0 else 1)) (e - 1)

/-- 1 / x (R73). -/
def recipN : ExNum → ExNum
  | .nan => .nan
  | .inf n => .fin n 0 0
  | .fin n m e =>
    if m == 0 then .inf n
    else
      let k := 68 + Nat.log2 m
      withSticky n (2 ^ k / m) (2 ^ k % m == 0) (-(k : Int) - e)

/-- sqrt x (R73). -/
def sqrtN : ExNum → ExNum
  | .nan => .nan
  | .inf n => if n then .nan else .inf false
  | .fin n m e =>
    if m == 0 then .fin n 0 0
    else if n then .nan
    else
      let odd := e % 2 == 1
      let m' := (if odd then 2 * m else m) * 2 ^ 140
      let e' := (if odd then e - 1 else e) - 140
      let r := isqrt m'
      withSticky false r (r * r == m') (e' / 2)

/-- 1 / sqrt x (R73). -/
def rsqrtN : ExNum → ExNum
  | .nan => .nan
  | .inf n => if n then .nan else .fin false 0 0
  | .fin n m e =>
    if m == 0 then .inf n
    else if n then .nan
    else
      let odd := e % 2 == 1
      let m' := if odd then 2 * m else m
      let e' := if odd then e - 1 else e
      let k := 70 + Nat.log2 m'
      let r := isqrt (2 ^ (2 * k) / m')
      withSticky false r (r * r * m' == 2 ^ (2 * k)) (-(k : Int) - e' / 2)

/-- ln 2 in units of 2^-s, not greater than the true value and off by less than 2 s units. -/
def ln2At (s : Nat) : Nat := ((List.range (s + 1)).map fun k => 2 ^ s / (2 ^ (k + 1) * (k + 1))).foldl (· + ·) 0

/-- e^y for y below 1, in units of 2^-s: the first `n` terms of the series. -/
def expSum (s y : Nat) : Nat → Nat → Nat → Nat
  | 0, _, _ => 0
  | n + 1, k, term => term + expSum s y n (k + 1) (term * y / 2 ^ s / k)

/-- atanh w for w below 1/2, in units of 2^-s: the first `n` terms of the series. -/
def atanhSum (s w2 : Nat) : Nat → Nat → Nat → Nat
  | 0, _, _ => 0
  | n + 1, k, pw => pw / k + atanhSum s w2 n (k + 2) (pw * w2 / 2 ^ s)

/-- 2^x between two bounds for a finite x that is no integer, at precision `s`: the power's exponent, and a lower and
an upper mantissa in units of 2^-s. -/
def exp2Bounds (s : Nat) (neg : Bool) (m : Nat) (e : Int) : Int × Nat × Nat :=
  let d := (-e).toNat
  let v : Int := if neg then -(m : Int) else m
  let n := v / 2 ^ d
  let frac := (v % 2 ^ d).toNat
  let f := frac * 2 ^ s / 2 ^ d
  let y := f * ln2At s / 2 ^ s
  let r := expSum s y (s / 4 + 20) 1 (2 ^ s)
  (n, r - 8 * s, r + 8 * s)

/-- The code of 2^x in a format: correctly rounded by raising the precision until both bounds round alike (R73). -/
def exp2Enc (f : FFmt) (mode : Nat) (sat neg : Bool) (m : Nat) (e : Int) : List Nat → Nat
  | [] => 0
  | s :: t =>
    let b := exp2Bounds s neg m e
    let lo := ffEncode f mode sat (.fin false b.2.1 (b.1 - s))
    let hi := ffEncode f mode sat (.fin false b.2.2 (b.1 - s))
    if lo == hi || t.isEmpty then lo else exp2Enc f mode sat neg m e t

/-- The code of 2^x (R73). An x beyond every exponent of a format is replaced by one that is just beyond it. -/
def exp2F (f : FFmt) (mode : Nat) (sat : Bool) : ExNum → Nat
  | .nan => ffEncode f mode sat .nan
  | .inf n => ffEncode f mode sat (if n then .fin false 0 0 else .inf false)
  | .fin neg m e =>
    if m == 0 then ffEncode f mode sat (.fin false 1 0)
    else if 12 ≤ ilog2 m + e then ffEncode f mode sat (.fin false 1 (if neg then -4096 else 4096))
    else if 0 ≤ e || m % 2 ^ (-e).toNat == 0 then ffEncode f mode sat (.fin false 1 (roundInt 1 neg m e))
    else exp2Enc f mode sat neg m e [128, 256, 512, 1024]

/-- log2 x in units of 2^-s between two bounds, for x = z x 2^k with z in [1, 2). -/
def log2Bounds (s : Nat) (m : Nat) (e : Int) : Int × Int :=
  let l := Nat.log2 m
  let k : Int := l + e
  let z := m * 2 ^ s / 2 ^ l
  let w := (z - 2 ^ s) * 2 ^ s / (z + 2 ^ s)
  let a := 2 * atanhSum s (w * w / 2 ^ s) (s / 3 + 8) 1 w
  let v : Int := k * 2 ^ s + (a * 2 ^ s / ln2At s : Nat)
  (v - 16 * s, v + 16 * s)

/-- The code of log2 x in a format, for a positive x that is no power of two (R73). -/
def log2Enc (f : FFmt) (mode : Nat) (sat : Bool) (m : Nat) (e : Int) : List Nat → Nat
  | [] => 0
  | s :: t =>
    let b := log2Bounds s m e
    let num (v : Int) : ExNum := .fin (decide (v < 0)) v.natAbs (-(s : Int))
    let lo := ffEncode f mode sat (num b.1)
    let hi := ffEncode f mode sat (num b.2)
    if lo == hi || t.isEmpty then lo else log2Enc f mode sat m e t

/-- The code of log2 x (R73). -/
def log2F (f : FFmt) (mode : Nat) (sat : Bool) : ExNum → Nat
  | .nan => ffEncode f mode sat .nan
  | .inf n => ffEncode f mode sat (if n then .nan else .inf false)
  | .fin neg m e =>
    if m == 0 then ffEncode f mode sat (.inf true)
    else if neg then ffEncode f mode sat .nan
    else if m == 2 ^ Nat.log2 m then ffEncode f mode sat (ofInt (ilog2 m + e))
    else log2Enc f mode sat m e [128, 256, 512, 1024]

/-! ### Format table entries (R84, R85) -/

/-- ELEM of an entry. -/
def enElem (w : W32) : Nat := bits w.toNat 3 0
/-- PREC of an entry. -/
def enPrec (w : W32) : Nat := bits w.toNat 10 8
/-- UNS of an entry. -/
def enUns (w : W32) : Bool := bit w.toNat 11
/-- READ of an entry. -/
def enRead (w : W32) : Nat := bits w.toNat 13 12
/-- BLK of an entry. -/
def enBlk (w : W32) : Nat := bits w.toNat 17 14
/-- SCALE of an entry. -/
def enScale (w : W32) : Nat := bits w.toNat 21 18
/-- SREAD of an entry. -/
def enSread (w : W32) : Nat := bits w.toNat 23 22
/-- RND of an entry. -/
def enRnd (w : W32) : Nat := bits w.toNat 25 24
/-- SAT of an entry. -/
def enSat (w : W32) : Bool := bit w.toNat 26

/-- Whether an entry is well formed (R85). -/
def enOk (w : W32) : Bool :=
  let el := enElem w
  decide (el ≤ 10) && bits w.toNat 31 27 == 0 && bits w.toNat 7 4 == 0 && enRead w != 3 && enSread w != 3
  && decide (enBlk w ≤ 3) && decide (enScale w ≤ 4) && ((enPrec w == 0) != (el == 6)) && (!enUns w || el == 6)
  && ((enBlk w == 0) == (enScale w == 0)) && (enBlk w == 0 || (el != 0 && el != 10)) && (enSread w == 0 || enScale w != 0)

/-- The block size of an entry, 0 for none (R84). -/
def enBlock (w : W32) : Nat := if enBlk w == 0 then 0 else 4 * 2 ^ enBlk w

/-- Bits of an element of an entry (R84). -/
def enBits (w : W32) : Nat :=
  match enElem w with
  | 0 => 32 | 1 => 16 | 2 => 16 | 3 => 8 | 4 => 8 | 5 => 4 | 6 => 8 | 7 => 8 | 8 => 8 | 9 => 4 | _ => 32

/-- Whether an entry's elements are integers (R84). -/
def enInt (w : W32) : Bool := decide (7 ≤ enElem w)

/-- The range of an integer element format (R67). -/
def intRange (el : Nat) : Int × Int :=
  match el with
  | 7 => (-128, 127) | 8 => (0, 255) | 9 => (-8, 7) | _ => (-2147483648, 2147483647)

/-- The binary format of an entry's elements (R75 to R79). -/
def enFmt (w : W32) : FFmt :=
  match enElem w with
  | 0 => fFP32 | 1 => fBF16 | 2 => fFP16 | 3 => fE4M3 (enRead w) | 4 => fE5M2 (enRead w) | 5 => fE2M1
  | _ => fP3109 (enPrec w) (enUns w) (enRead w)

/-- The exact value of an element code under an entry (R10 `Decode`). -/
def decElem (w : W32) (c : Nat) : ExNum :=
  match enElem w with
  | 7 => ofInt (sextNat 8 (c % 256))
  | 8 => ofInt (c % 256 : Nat)
  | 9 => ofInt (sextNat 4 (c % 16))
  | 10 => ofInt (sextNat 32 (c % 2 ^ 32))
  | _ => ffDecode (enFmt w) (c % 2 ^ enBits w)

/-- The exact value of a scale code under an entry (R80). -/
def decScale (w : W32) (c : Nat) : ExNum :=
  match enScale w with
  | 1 => if c % 256 == 255 && enSread w != 0 then .nan else .fin false 1 ((c % 256 : Nat) - 127)
  | 2 => ffDecode (fE5M2 (enSread w)) (c % 256)
  | 3 => ffDecode (fE4M3 (enSread w)) (c % 256)
  | 4 => ffDecode fBF16 (c % 2 ^ 16)
  | _ => .fin false 1 0

/-- An exact value encoded as an element of an entry, rounded in a mode (R81 to R83). -/
def encElem (w : W32) (mode : Nat) (x : ExNum) : Nat :=
  if enInt w then
    let r := intRange (enElem w)
    (BitVec.ofInt (enBits w) (toIntSat r.1 r.2 mode x)).toNat
  else ffEncode (enFmt w) mode (enSat w) x

/-- The exact sum of values with special values deciding first (R92, R203): NaN, infinities, else the sum; an exact zero
gives +0. -/
def sumN (l : List ExNum) : ExNum :=
  if l.any ExNum.isNaN then .nan
  else
    let pos := l.any fun x => x == .inf false
    let neg := l.any fun x => x == .inf true
    if pos && neg then .nan
    else if pos then .inf false
    else if neg then .inf true
    else
      let q := l.foldl (fun a x => match x with | .fin _ m e => if m == 0 then a else min a e | _ => a) 4096
      let v := l.foldl (fun (a : Int) x => match x with | .fin n m e => if m == 0 then a else a + scaled n m e q | _ => a) 0
      if v == 0 then .fin false 0 0 else .fin (decide (v < 0)) v.natAbs q

/-! ### The exact accumulator XA (R95 to R97) -/

/-- XA: the value V in units of 2^-160 and the status bits NAN, PINF, NINF, OVF. -/
structure Xa where
  v  : Int
  st : BitVec 4
deriving DecidableEq, Repr

/-- An empty XA (R95). -/
def Xa.empty : Xa := ⟨0, 0⟩

/-- Whether V is in the range of R95. -/
def xaFits (v : Int) : Bool := decide (-(2 : Int) ^ 319 ≤ v) && decide (v < (2 : Int) ^ 319)

/-- A partial enters XA (R96). -/
def xaAdd (x : Xa) : ExNum → Xa
  | .nan => { x with st := x.st ||| 1 }
  | .inf n => { x with st := x.st ||| (if n then 4 else 2) }
  | .fin n m e =>
    let q := e + 160
    let s : Int := if n then -(m : Int) else m
    let v := if 0 ≤ q then s * 2 ^ q.toNat else s / 2 ^ (-q).toNat
    if xaFits v && xaFits (x.v + v) then { x with v := x.v + v } else { x with st := x.st ||| 8 }

/-- Two XA values combined (R96). -/
def xaMerge (x y : Xa) : Xa :=
  if xaFits (x.v + y.v) then ⟨x.v + y.v, x.st ||| y.st⟩ else ⟨x.v, x.st ||| y.st ||| 8⟩

/-- XA read out as an exact value (R97). -/
def xaNum (x : Xa) : ExNum :=
  let nan := x.st.getLsbD 0
  let pinf := x.st.getLsbD 1
  let ninf := x.st.getLsbD 2
  if nan || (pinf && ninf) then .nan
  else if pinf then .inf false
  else if ninf then .inf true
  else if x.st.getLsbD 3 then .nan
  else .fin (decide (x.v < 0)) x.v.natAbs (-160)

/-- The 48-byte image of XA (R95). -/
def xaBytes (x : Xa) : List Byte :=
  leBytes 40 (BitVec.ofInt 320 x.v).toNat ++ [x.st.setWidth 8] ++ List.replicate 7 0

end Sys2Proof.Machine
end

