-- ==== Sys2Proof/Machine/Mem.lean ====
section
/-! DEFINITION. Memory below the instructions: homes of lines (R313 to R328, R345), the L2 slices and the directory rules
(R293 to R297), the L1 of a core (R182, R355, R356), scratchpads with their waiter records (R272 to R278), and translation
(R299 to R304, R377). -/

namespace Sys2Proof.Machine

/-- Who makes an access: its die, its team's fold (none for a firmware core, R397), ASID and LOC page, and its drover; and which team it is,
where it is one. -/
structure Who where
  c    : CoreId
  fold : Option Nat
  asid : Nat
  loc  : Nat
  drv  : Nat
  size : Nat
  team : Option TeamId := none
deriving DecidableEq, Repr

/-- A line of memory that a requester's access found bad, with the kind that the error log gives it (R343); kind 6 is a PTE, by its address,
whose D bit the walker has set before the access failed (R302). -/
structure Bad where
  who  : Who
  line : Nat
  kind : Nat
deriving DecidableEq, Repr

/-- A fault as it is found: its code, the record's address and auxiliary word, and the lines of memory that the access
found bad on its way, whether it is the failure that SERR holds (R140), and the read port whose poisoned operand raises it (R219). -/
structure Flt where
  code : Code
  addr : W64
  aux  : Nat
  bad  : List Bad
  serr : Bool
  port : Option Nat
deriving DecidableEq, Repr

/-- Why a word does not retire: it is held, or it faults. -/
inductive Stop
  | stall (h : Hold)
  | fault (f : Flt)
deriving DecidableEq, Repr

/-- The outcome of part of an instruction. -/
abbrev Iss (α : Type) := Except Stop α

/-- A plain hold (R35). -/
def hold {α : Type} : Iss α := .error (.stall .stall)

/-- A hold on a range of the scoreboard (R152, R187): the pointer and length that overlap it, and for a `CPY` its source. -/
def rangeHold {α : Type} (ea : W64) (n : Nat) (src : Option W64) : Iss α := .error (.stall (.rangeWait ea n src))

/-- A hold that counts toward WAITTH (R187). -/
def longHold {α : Type} (k : Nat) : Iss α := .error (.stall (.longWait k))

/-- A fault with an address and an auxiliary word. -/
def flt {α : Type} (c : Code) (addr : W64) (aux : Nat) : Iss α := .error (.fault ⟨c, addr, aux, [], false, none⟩)

/-- A fault that a check finds. -/
def need (b : Bool) (c : Code) (addr : W64) (aux : Nat) : Iss Unit := if b then .ok () else flt c addr aux

/-- A hold unless the condition is met. -/
def needWait (b : Bool) : Iss Unit := if b then .ok () else hold

/-! ### Parts of the state by number -/

/-- The place of a core in the table of cores. -/
def coreKey (c : CoreId) : Nat := c.site * 128 + c.core

/-- A core. -/
def State.core (s : State) (c : CoreId) : CoreSt := tget CoreSt.reset s.cores (coreKey c)

/-- The state with a core changed. -/
def State.setCore (s : State) (c : CoreId) (v : CoreSt) : State := { s with cores := tset s.cores (coreKey c) v }

/-- A die. -/
def State.die (s : State) (site : Nat) : Die := tget Die.reset s.dies site

/-- The state with a die changed. -/
def State.setDie (s : State) (site : Nat) (d : Die) : State := { s with dies := tset s.dies site d }

/-- A drover. -/
def State.drv (s : State) (d : Nat) : Drover := tget Drover.reset s.drovers d

/-- The state with a drover changed. -/
def State.setDrv (s : State) (d : Nat) (v : Drover) : State := { s with drovers := tset s.drovers d v }

/-- The status of a site in a drover's discovery table (R379). -/
def State.siteStatus (s : State) (d site : Nat) : Nat := bits (tget 0 (s.drv d).disc site).toNat 55 48

/-- The drover die that holds the package time base and HPSEL: die 0, or die 1 once die 0 is retired (R450). -/
def State.timeDrv (s : State) : Nat := if s.siteStatus 0 (Config.drvSite 0) == 3 then 1 else 0

/-- How far the follower counter of a die stands ahead of the time base, in units of 2^-16 ns: at most 8 ns, and nothing at the die that holds
the base (R450, R469, log 21). -/
def State.skewAt (s : State) (site : Nat) : Nat := if site == Config.drvSite s.timeDrv then 0 else Config.followSkew site % 524289

/-- The follower counter of a die, in units of 2^-16 ns (R469). -/
def State.countAt (s : State) (site : Nat) : Nat := s.ns.toNat * 65536 + s.frac.toNat + s.skewAt site

/-- Device time as a die reads it, in whole nanoseconds (R469). -/
def State.nsAt (s : State) (site : Nat) : W64 := BitVec.ofNat 64 (s.countAt site / 65536)

/-- The nanoseconds that the package has run, whatever device time is set to: what limits of R289, R311, R346, R395, R424, R447 and R473 are
counted in. -/
def State.runNs (s : State) : Nat := s.up / 65536

/-- The team of a core. -/
def State.team (s : State) (c : CoreId) : TeamSt := (s.core c).team

/-- The state with the team of a core changed. -/
def State.setTeam (s : State) (c : CoreId) (t : TeamSt) : State := s.setCore c { s.core c with team := t }

/-- The engine class of a core (R2, R3). -/
def coreCls (c : CoreId) : Cls := (Config.kindClass (Config.kindAt c.site)).getD .drover

/-- The cluster of a core on its die (R191, R272). -/
def clusterOf (c : CoreId) : Nat :=
  let n := Config.clusterCores (Config.kindAt c.site)
  if n == 0 then 0 else c.core / n

/-- A cluster of a die. -/
def State.cluster (s : State) (site cl : Nat) : Cluster := tget Cluster.fresh (s.die site).clusters cl

/-- The state with a cluster changed. -/
def State.setCluster (s : State) (site cl : Nat) (v : Cluster) : State :=
  s.setDie site { s.die site with clusters := tset (s.die site).clusters cl v }

/-- The clusters of a site (R272): none on a die without clusters. -/
def clustersOf (site : Nat) : Nat :=
  let k := Config.kindAt site
  if Config.clusterCores k == 0 then 0 else Config.kindCores k / Config.clusterCores k

/-- The requester that a team on a core is. -/
def whoOf (c : CoreId) (t : TeamSt) : Who :=
  match t.id with
  | some i => { c := c, fold := if i.fw then none else some i.fold, asid := i.asid, loc := i.loc, drv := i.drv,
                size := t.locsz.toNat, team := some i }
  | none => { c := c, fold := none, asid := 0, loc := 0, drv := Config.siteDrv c.site, size := t.locsz.toNat }

/-- The requester at a core. -/
def State.who (s : State) (c : CoreId) : Who := whoOf c (s.team c)

/-! ### Windows, stacks and frames (R313 to R317, R325 to R327) -/

/-- The stacks that a window entry names as live, in ascending order (R315). -/
def liveList (m : BitVec 24) : List Nat := (List.range 24).filter fun k => m.getLsbD k

/-- STKCFG.LFR (R342). -/
def lfrOf (d : Die) : Nat := bits d.stkcfg.toNat 32 13
/-- STKCFG.CAVEFR (R342). -/
def cavefrOf (d : Die) : Nat := bits d.stkcfg.toNat 52 33
/-- STKCFG.ENC (R342). -/
def encOf (d : Die) : Bool := bit d.stkcfg.toNat 4
/-- STKCFG.FOLD (R342). -/
def sfoldOf (d : Die) : Nat := bits d.stkcfg.toNat 2 0

/-- The entry of a fold in a die's window table (R315). -/
def State.winEnt (s : State) (site f : Nat) : W64 × BitVec 24 := tget (0, 0) (s.die site).window f

/-- Fmin of a list of live stacks (R317). -/
def State.fmin (s : State) (live : List Nat) : Nat :=
  (live.map fun n => lfrOf (s.die (Config.stackSite n))).foldl min 1048576

/-- Whether a physical page lies in a fold's window as a die holds it (R317). -/
def State.inWindow (s : State) (site f page : Nat) : Bool :=
  let e := s.winEnt site f
  let live := liveList e.2
  decide (e.1.toNat ≤ page) && decide (page < e.1.toNat + live.length * s.fmin live)

/-- The stack and logical frame of a page of a fold's window (R316). -/
def State.stackFrame (s : State) (site f page : Nat) : Nat × Nat :=
  let e := s.winEnt site f
  let live := liveList e.2
  let p := page - e.1.toNat
  let n := live.length
  let stripe := p / n
  (live.getD ((p % n + 7 * stripe) % n) 0, stripe)

/-- The first fold whose window holds a page. -/
def State.foldOfPage (s : State) (site page : Nat) : Option Nat := (List.range 8).find? fun f => s.inWindow site f page

/-- The least physical address of the far tier (R299). -/
def farBase : Nat := 0x100000000000

/-- The first physical address above the far tier (R345). -/
def farTop : Nat := 0x300000000000

/-- The stack and logical frame that hold a physical address of the device tier, as a requester's die maps it (R315, R316): through
its fold's window, or for a firmware core through the first window that holds it. -/
def State.homeOf (s : State) (site : Nat) (fold : Option Nat) (pa : Nat) : Option (Nat × Nat) :=
  let page := pa / 65536
  match fold with
  | some f => if s.inWindow site f page then some (s.stackFrame site f page) else none
  | none => (s.foldOfPage site page).map fun f => s.stackFrame site f page

/-- The device frames of a stack's pool (R327). -/
def poolSize (d : Die) : Nat := 1032192 - cavefrOf d

/-- What the map holds of a logical frame that it has never changed (R325, R327, log 12): its own frame of the pool, or, where more logical
frames are offered than the pool has, ZERO for those beyond. -/
def bootFrame (d : Die) (lf : Nat) : FrameSt := if lf < poolSize d then .resident (cavefrOf d + lf) else .zero

/-- The frame map entry of a logical frame (R325). -/
def frameSt (d : Die) (lf : Nat) : FrameSt := tget (bootFrame d lf) d.frames lf

/-- A free frame of the pool, with the die that no longer has it (R326, R327). -/
def takeFrame (d : Die) : Option (Nat × Die) :=
  match d.freeFr with
  | f :: t => some (f, { d with freeFr := t })
  | [] =>
    if d.frTaken < poolSize d - lfrOf d then
      some (cavefrOf d + lfrOf d + d.frTaken, { d with frTaken := d.frTaken + 1 })
    else none

/-- The chunks that a frame map entry holds in the cave (R325). -/
def chunksOf : FrameSt → Nat
  | .cave n _ => n
  | _ => 0

/-- A logical frame made RESIDENT in a free pool frame (R328); none where the pool has no frame. -/
def expandFrame (d : Die) (lf : Nat) : Option Die :=
  match frameSt d lf with
  | .resident _ => some d
  | st => (takeFrame d).map fun r =>
      { r.2 with frames := tset r.2.frames lf (.resident r.1), caveUsed := r.2.caveUsed - chunksOf st }

/-! ### The error log (R343) -/

/-- A saturating 32-bit count. -/
def satInc (v : Nat) : Nat := if v + 1 < 2 ^ 32 then v + 1 else v

/-- An error of a kind at a line, counted and recorded at a die (R343): corrected errors in CE, every other in UE. -/
def logError (d : Die) (kind pa ns : Nat) : Die :=
  let pc := pa / 1024 % 64
  let e := (tget 0 d.ecnt pc).toNat
  let e' : W64 :=
    if kind == 1 then BitVec.ofNat 64 (e / 2 ^ 32 * 2 ^ 32 + satInc (e % 2 ^ 32))
    else BitVec.ofNat 64 (satInc (e / 2 ^ 32) * 2 ^ 32 + e % 2 ^ 32)
  let r : LogRec := { seq := d.elogSeq, kind := kind, pc := pc, addr := pa, ecnt := e', time := ns }
  let full := decide (32 ≤ d.elog.length)
  { d with ecnt := tset d.ecnt pc e', elogSeq := (d.elogSeq + 1) % 2 ^ 32,
           elog := if full then d.elog else d.elog ++ [r], elogOvf := d.elogOvf || full }

/-- The die at which a physical address has its home: its stack's MEM die, or the FAR die whose extent covers it. -/
def State.homeSite (s : State) (site : Nat) (fold : Option Nat) (pa : Nat) : Option Nat :=
  if farBase ≤ pa then
    ([21, 38] : List Nat).find? fun fs => (s.die fs).extents.any fun e => decide (e.2.base ≤ pa) && decide (pa < e.2.base + e.2.len)
  else (s.homeOf site fold pa).map fun h => Config.stackSite h.1

/-- The live extent that covers a far address (R345, R349). -/
def State.extentOf (s : State) (pa : Nat) : Option Extent :=
  ((s.die 21).extents ++ (s.die 38).extents).findSome? fun e =>
    if e.2.base ≤ pa ∧ pa < e.2.base + e.2.len ∧ e.2.gone = false then some e.2 else none

/-- The line numbers of a logical frame of a stack begin here (log 43). -/
def frameLine (stack lf : Nat) : Nat := (stack * 1048576 + lf) * 1024

/-- The number that a line of a requester has at its home (R315, R316, log 43): that of its stack's logical frame and its place there, as the
requester's die maps it; for the far tier the physical line. A line that no stack holds has one that no stack has. -/
def State.homeLine (s : State) (w : Who) (line : Nat) : Nat :=
  if farBase ≤ line * 64 then line
  else match s.homeOf w.c.site w.fold (line * 64) with
    | some (n, lf) => frameLine n lf + line % 1024
    | none => 2 ^ 60 + line

/-- The 64 lines of a counter block poisoned, and the block made anew (R323). -/
def State.spoilBlock (s : State) (b : Nat) : State :=
  { s with lineBad := (List.range 64).foldl (fun t k => tset t (b * 64 + k) true) s.lineBad, treeBad := tdel s.treeBad b }

/-- A page whose cave chunk fails its check: RESIDENT, with every line poisoned (R328); `page` is its number at home. -/
def State.spoilPage (s : State) (site lf page : Nat) : State :=
  let s1 := { s with lineBad := (List.range 1024).foldl (fun t k => tset t (page * 1024 + k) true) s.lineBad,
                     latent := tfilter (fun k _ => k / 1024 != page) s.latent }
  match expandFrame (s1.die site) lf with
  | some d => s1.setDie site d
  | none => s1

/-- A line found bad by an access poisoned and logged at its home (R296, R323, R343); kind 4 is its counter block, kind 5 a cave chunk
(R328). -/
def State.markLine (s : State) (w : Who) (line kind : Nat) : State :=
  let h := s.homeLine w line
  let s1 := if kind == 5 then
      match s.homeOf w.c.site w.fold (line * 64) with
      | some f => s.spoilPage (Config.stackSite f.1) f.2 (h / 1024)
      | none => s
    else if kind == 4 then s.spoilBlock (h / 64)
    else { s with lineBad := tset s.lineBad h true, latent := tdel s.latent h }
  match s1.homeSite w.c.site w.fold (line * 64) with
  | some d => s1.setDie d (logError (s1.die d) kind (line * 64) (s1.nsAt d).toNat)
  | none => s1

/-! ### Routes (R305) -/

/-- The site to which a UCIe port of a die leads (R305, log 44): ports 0 to 2 north, 3 to 5 east, 6 to 8 south, 9 to 11 west on the grid of
R497. A port toward the edge of the grid does not exist. -/
def portSite (site p : Nat) : Option Nat :=
  match p / 3 with
  | 0 => if 10 ≤ site then some (site - 10) else none
  | 1 => if site % 10 < 9 then some (site + 1) else none
  | 2 => if site < 50 then some (site + 10) else none
  | 3 => if 0 < site % 10 then some (site - 1) else none
  | _ => none

/-- Whether a packet at a die reaches a site, each die on the way sending it on by its own route table (R305). The bound is the number of
sites. -/
def State.reaches (s : State) (tgt : Nat) : Nat → Nat → Bool
  | 0, at_ => at_ == tgt
  | n + 1, at_ =>
    let r := tget 0 (s.die at_).routes tgt
    at_ == tgt || (r.getLsbD 7 && (match portSite at_ (r.toNat % 16) with | some x => s.reaches tgt n x | none => false))

/-- Whether a die's packets reach a site (R305). -/
def State.routed (s : State) (site tgt : Nat) : Bool := s.reaches tgt 60 site

/-- Whether a request of a die reaches a site and the answer finds its way back (R305). -/
def State.twoWay (s : State) (site tgt : Nat) : Bool := s.routed site tgt && s.routed tgt site

/-! ### A line at its home (R320 to R324) -/

/-- The stack die and the logical frame that a physical address of the device tier reaches (R305, R317): an access that its stack
refuses, or that has no route, completes as poison. -/
def State.atStack (s : State) (w : Who) (pa : Nat) (ea : W64) : Iss (Nat × Nat) :=
  match s.homeOf w.c.site w.fold pa with
  | none => flt .POISON ea 0
  | some (n, lf) =>
    let site := Config.stackSite n
    let d := s.die site
    if !s.twoWay w.c.site site then flt .POISON ea 0
    else if (match w.fold with | some f => f != sfoldOf d | none => false) then flt .POISON ea 0
    else .ok (site, lf)

/-- Whether a line of a page holds an error that cannot be corrected; `page` is its number at home. -/
def State.pageSpoilt (s : State) (page : Nat) : Bool := s.latent.any fun e => e.1 / 1024 == page && e.2 == 2

/-- The key of the fold that owns a stack (R320, R326). -/
def foldKey (d : Die) : BitVec 256 := tget 0 d.keys (sfoldOf d)

/-- Whether the chunks of a compressed page pass their integrity check under the fold key of now (R326, R328). -/
def State.chunksOk (s : State) (d : Die) (st : FrameSt) (page : Nat) : Bool :=
  match st with
  | .cave _ k => k == foldKey d && !s.pageSpoilt page
  | _ => true

/-- The fifth `MSTAT` counter of a team, for the team that a requester is (R340). -/
def TeamSt.countPage (t : TeamSt) (w : Who) : TeamSt :=
  if t.id == w.team then { t with mstat := tset t.mstat 4 (tget 0 t.mstat 4 + 1) } else t

/-- A page expanded for a team that is away, which its resume adds to the counter. -/
def Away.countPage (a : Away) (w : Who) : Away :=
  if a.team.id == w.team then { a with team := { a.team with xpandOut := a.team.xpandOut + 1 } } else a

/-- A page expanded on behalf of a team of a MEM core, which its fifth `MSTAT` counter counts (R340): that of the team on its core, or, where
its copies run on while it is away, a count that its resume adds. -/
def State.expanded (s : State) (w : Who) : State :=
  if (match w.team with | some i => i.cls == Cls.mem | none => false) then
    { s with cores := tmap (fun _ (k : CoreSt) => { k with team := k.team.countPage w }) s.cores,
             drovers := tmap (fun _ (d : Drover) => { d with away := d.away.map fun (a : Away) => a.countPage w }) s.drovers }
  else s

/-- A page of which every byte is zero and no frame holds anything (R325); `page` is its number at home. -/
def State.blankPage (s : State) (page : Nat) : State :=
  { s with mem := cclear s.mem (page * 65536) 65536, lineBad := tfilter (fun k _ => k / 1024 != page) s.lineBad,
           lineKey := tfilter (fun k _ => k / 1024 != page) s.lineKey, minor := tfilter (fun k _ => k / 1024 != page) s.minor,
           latent := tfilter (fun k _ => k / 1024 != page) s.latent }

/-- The number at home of the page of a logical frame of a die's stack (log 43). -/
def stackPage (site lf : Nat) : Nat := frameLine ((Config.siteStack site).getD 24) lf / 1024

/-- A page's frame made RESIDENT (R328), a ZERO page filled with zeros; held while the pool has no frame. A chunk that fails its integrity check raises `INTEGRITY`
(the error that finds it is a cave chunk, kind 5). -/
def State.makeResident (s : State) (w : Who) (site lf pa : Nat) (ea : W64) : Iss State :=
  let d := s.die site
  match frameSt d lf with
  | .resident _ => .ok s
  | st =>
    match expandFrame d lf with
    | none => .error (.stall (.dry site))
    | some d' =>
      if !s.chunksOk d st (stackPage site lf) then .error (.fault ⟨.INTEGRITY, ea, 0, [⟨w, pa / 65536 * 1024, 5⟩], false, none⟩)
      else .ok (((if st == .zero then s.blankPage (stackPage site lf) else s).setDie site d').expanded w)

/-- The failure of an access of a kind that does not complete (R346, R455, R461): auxiliary word 0 of a REMOTE access is bad data at the
peer. -/
def State.lapsed (s : State) (kind : Nat) (ea : W64) : Iss Unit :=
  match s.lapse with
  | none => .ok ()
  | some (k, a) => if k != kind then .ok () else if kind == 2 && a == 0 then flt .POISON ea 0 else flt .FAR_TIMEOUT ea a

/-- Whether a physical address can be reached at its home (R305, R317, R345, R348), and the page's frame made RESIDENT (R328). -/
def State.reachHome (s : State) (w : Who) (pa : Nat) (ea : W64) : Iss State :=
  if farBase ≤ pa then
    match s.extentOf pa with
    | none => flt .EXTENT_GONE ea 0
    | some e =>
      if (match s.homeSite w.c.site w.fold pa with | some h => !s.twoWay w.c.site h | none => false) then flt .POISON ea 0
      else if e.sweep then hold else (s.lapsed 0 ea).map fun _ => s
  else do
    let h ← s.atStack w pa ea
    s.makeResident w h.1 h.2 pa ea

/-- The key under which a line of the device tier is stored now (R320): none for an unencrypted stack, and for the far tier, which has no
MAC (R346). -/
def State.keyOf (s : State) (w : Who) (pa : Nat) : Option (BitVec 256) :=
  if farBase ≤ pa then none
  else match s.homeOf w.c.site w.fold pa with
    | none => none
    | some (n, _) =>
      let d := s.die (Config.stackSite n)
      if encOf d then some (foldKey d) else none

/-- The key of the extent that holds a far line (R346). -/
def State.farKey (s : State) (pa : Nat) : BitVec 256 :=
  match s.extentOf pa with
  | some e => match ([21, 38] : List Nat).find? fun fs => (s.die fs).extents.any fun x => x.2 == e with
    | some fs => tget 0 (s.die fs).keys e.fold
    | none => 0
  | none => 0

/-- Whether a line reads as zeros because its MINOR is 0 (R324). -/
def State.zeroLine (s : State) (w : Who) (line : Nat) : Bool :=
  (s.keyOf w (line * 64)).isSome && tget 0 s.minor (s.homeLine w line) == 0

/-- Whether a line's MAC fails under the key of now and its physical address (R321, R323). -/
def State.macFails (s : State) (w : Who) (line : Nat) : Bool :=
  match s.keyOf w (line * 64) with
  | none => false
  | some k => tget 0 s.minor (s.homeLine w line) != 0 && tget? s.lineKey (s.homeLine w line) != some (k, line)

/-- Whether the integrity tree does not match the counter block of a line of an encrypted stack (R323). -/
def State.treeFails (s : State) (w : Who) (line : Nat) : Bool :=
  (s.keyOf w (line * 64)).isSome && tget false s.treeBad (s.homeLine w line / 64)

/-- The bytes of a line as they show without a check: a line stored in plain text or under the key and address of now as written; one stored
under a key and met by an unencrypted stack as its ciphertext (R321); a far line written under another key as a free value (R346). -/
def State.shown (s : State) (w : Who) (line : Nat) : List Byte :=
  let h := s.homeLine w line
  let b := cread s.mem (h * 64) 64
  match tget? s.lineKey h with
  | none => b
  | some (k, p) =>
    if farBase ≤ line * 64 then
      let now := s.farKey (line * 64)
      if k == now && p == line then b else (List.range 64).map (Config.farOpen k now line b)
    else if (s.keyOf w (line * 64)).isSome then b
    else List.zipWith (· ^^^ ·) b (lineStream k p (tget 0 s.major (h / 64)) (tget 0 s.minor h))

/-- A line that an operation hides behind the zero value, without a write of its row (R324, R332): its DRAM keeps what it holds, of a line
stored under a key the ciphertext. -/
def State.leaveRow (s : State) (h : Nat) : State :=
  match tget? s.lineKey h with
  | none => s
  | some (k, p) =>
    let b := List.zipWith (· ^^^ ·) (cread s.mem (h * 64) 64) (lineStream k p (tget 0 s.major (h / 64)) (tget 0 s.minor h))
    { s with mem := cwrite s.mem (h * 64) b, lineKey := tdel s.lineKey h }

/-- The 64 bytes of a line at home (R323, R324, R296), for a line that can be reached. -/
def State.homeRead (s : State) (w : Who) (line : Nat) (ea : W64) : Iss (List Byte × State) :=
  let h := s.homeLine w line
  if tget false s.lineBad h then flt .POISON ea 0
  else if s.treeFails w line then .error (.fault ⟨.INTEGRITY, ea, 0, [⟨w, line, 4⟩], false, none⟩)
  else if s.zeroLine w line then .ok (List.replicate 64 0, s)
  else if tget 0 s.latent h == 2 then .error (.fault ⟨.POISON, ea, 0, [⟨w, line, 2⟩], false, none⟩)
  else if s.macFails w line then .error (.fault ⟨.INTEGRITY, ea, 0, [⟨w, line, 3⟩], false, none⟩)
  else if tget 0 s.latent h == 1 then
    let s0 := { s with latent := tdel s.latent h }
    .ok (s.shown w line, match s0.homeSite w.c.site w.fold (line * 64) with
      | some d => s0.setDie d (logError (s0.die d) 1 (line * 64) (s0.nsAt d).toNat)
      | none => s0)
  else .ok (s.shown w line, s)

/-- A line at home before a write of part of it (R296, R323, R343): what the reading of the rest finds bad is poisoned and logged, and one
that fails its integrity check fails the write; a write of a poisoned line is performed. -/
def State.homeOpen (s : State) (w : Who) (line : Nat) (ea : W64) : Iss State :=
  match s.homeRead w line ea with
  | .ok r => .ok r.2
  | .error (.stall k) => .error (.stall k)
  | .error (.fault f) =>
    if f.code == .POISON then .ok (f.bad.foldl (fun u e => u.markLine e.who e.line e.kind) s) else .error (.fault f)

/-- MINOR and MAJOR after one more write of a line of an encrypted stack (R321, R322), by its number at home. -/
def State.bumpMinor (s : State) (line : Nat) : State :=
  let m := tget 0 s.minor line
  if m.toNat < 127 then { s with minor := tset s.minor line (m + 1) }
  else
    let blk := line / 64
    let mj := tget 0 s.major blk
    if mj.toNat == 2 ^ 64 - 1 then
      { s with lineBad := (List.range 64).foldl (fun t k => tset t (blk * 64 + k) true) s.lineBad }
    else { s with major := tset s.major blk (mj + 1), minor := tmap (fun l v => if l / 64 == blk && v != 0 then 1 else v) s.minor }

/-- Bytes of a list replaced from an offset on. -/
def overlay (base : List Byte) (off : Nat) (data : List Byte) : List Byte :=
  base.take off ++ data ++ base.drop (off + data.length)

/-- Bytes written at home within one line, by one operation (R296, R321, R323, R324, R346), after `homeOpen` where they are not the whole
line: the line is stored under the key of now and its physical address. A whole line makes good what was bad, but a counter block that
the tree does not match spoils its other lines. -/
def State.homeWrite (s : State) (w : Who) (pa : Nat) (data : List Byte) : State :=
  let line := pa / 64
  let h := s.homeLine w line
  let full := decide (data.length = 64)
  let s0 := if s.treeFails w line then s.markLine w line 4 else s
  let old := if full then List.replicate 64 0 else if s0.zeroLine w line then List.replicate 64 0 else s0.shown w line
  let s1 : State := { s0 with
    mem := cwrite s0.mem (h * 64) (overlay old (pa % 64) data),
    lineBad := if full then tdel s0.lineBad h else s0.lineBad,
    latent := tdel s0.latent h }
  if farBase ≤ pa then { s1 with lineKey := tset s1.lineKey h (s.farKey pa, line) }
  else match s.keyOf w pa with
    | none => { s1 with lineKey := tdel s1.lineKey h }
    | some k => { s1.bumpMinor h with lineKey := tset s1.lineKey h (k, line) }

/-! ### L2 slices and the directory rules (R293 to R296) -/

/-- Whether a site's die has L2 slices (R292). -/
def hasL2 (site : Nat) : Bool := decide (0 < Config.slices (Config.kindAt site))

/-- A piece of a die's L2. -/
def State.piece (s : State) (site p : Nat) : Option Piece := tget? (s.die site).l2 p

/-- The state with a piece of a die's L2 changed. -/
def State.setPiece (s : State) (site p : Nat) (v : Piece) : State :=
  s.setDie site { s.die site with l2 := tset (s.die site).l2 p v }

/-- A die's copy of a piece dropped. -/
def State.dropPiece (s : State) (site p : Nat) : State :=
  s.setDie site { s.die site with l2 := tdel (s.die site).l2 p }

/-- A die as a requester of its own, mapping through its own copy of the window table (R315). -/
def dieWho (site : Nat) : Who := { c := ⟨site, 0⟩, fold := none, asid := 0, loc := 0, drv := Config.siteDrv site, size := 0 }

/-- Whether a die that holds a piece and the piece's home, as that die maps it, reach each other (R305). -/
def State.homeLinked (s : State) (site p : Nat) : Bool :=
  match s.homeSite site none (p * 64) with
  | some h => s.twoWay site h
  | none => true

/-- A dirty piece of a die written back to its home, as that die maps it, with its poison (R296, R315). One whose packets find no route stays
dirty where it is (R305, log 64, DEDUCED). -/
def State.pieceHome (s : State) (site p : Nat) : State :=
  match s.piece site p with
  | some v =>
    if v.dirty && s.homeLinked site p then
      let w := dieWho site
      let s1 := s.homeWrite w (p * 64) v.bytes
      let s2 := if v.poison then { s1 with lineBad := tset s1.lineBad (s1.homeLine w p) true } else s1
      s2.setPiece site p { v with dirty := false }
    else s
  | none => s

/-- A piece of a die written back and dropped, unless its bytes cannot be brought home. -/
def State.pieceLeave (s : State) (site p : Nat) : State :=
  let u := s.pieceHome site p
  if (match u.piece site p with | some v => v.dirty | none => false) then u else u.dropPiece site p

/-- The dies that hold a copy of a piece (the directory's view of it, R319). -/
def State.holders (s : State) (p : Nat) : List Nat :=
  (s.dies.filter fun e => (tget? e.2.l2 p).isSome).map (·.1)

/-- The die that holds a piece dirty, if any (R319). -/
def State.dirtyHolder (s : State) (p : Nat) : Option Nat :=
  (s.dies.find? fun e => match tget? e.2.l2 p with | some v => v.dirty | none => false).map (·.1)

/-- Whether the home of a piece, as a requester's die maps it, reaches the dies of a list, so that it can recall or invalidate what they hold
(R305, R312): an access that needs one of them which it does not reach completes as poison. -/
def State.reachCopies (s : State) (w : Who) (p : Nat) (l : List Nat) (ea : W64) : Iss Unit :=
  need (match s.homeSite w.c.site w.fold (p * 64) with | some h => l.all (s.twoWay h) | none => true) .POISON ea 0

/-- Every dirty copy of a piece on the listed dies written back. -/
def State.recallAll (s : State) (p : Nat) : List Nat → State
  | [] => s
  | h :: t => (s.pieceHome h p).recallAll p t

/-- Every copy of a piece on the listed dies dropped. -/
def State.dropAll (s : State) (p : Nat) : List Nat → State
  | [] => s
  | h :: t => (s.dropPiece h p).dropAll p t

/-- The dirty copy of a piece recalled, and every copy invalidated (R295). -/
def State.recallInv (s : State) (p : Nat) : State :=
  let hs := s.holders p
  (s.recallAll p hs).dropAll p hs

/-- The set of a granule in its slice on a die (R293). -/
def granuleSet (site g : Nat) : Nat × Nat :=
  let n := Config.slices (Config.kindAt site)
  (g % n, g / n % 128)

/-- Every piece of a granule on a die written back and dropped, and then its tag (R294). -/
def State.evictGranule (s : State) (site g : Nat) : State :=
  let s1 := (List.range 32).foldl (fun t k => t.pieceLeave site (g * 32 + k)) s
  if (s1.die site).l2.any fun e => e.1 / 32 == g then s1 else s1.setDie site { s1.die site with tags := tdel (s1.die site).tags g }

/-- A granule's tag made the youngest of its set, the least recently used one evicted where the set is full (R293, R294). -/
def State.touchGranule (s : State) (site g : Nat) : State :=
  let d := s.die site
  let same := d.tags.filter fun e => granuleSet site e.1 == granuleSet site g
  let s1 := if (tget? d.tags g).isNone && decide (16 ≤ same.length) then
      match same.foldl (fun (m : Option (Nat × Nat)) e => match m with
          | some b => if e.2 < b.2 then some e else some b | none => some e) none with
      | some v => s.evictGranule site v.1
      | none => s
    else s
  let d1 := s1.die site
  s1.setDie site { d1 with tags := tset d1.tags g d1.tagAge, tagAge := d1.tagAge + 1 }

/-- Whether a far address lies in an extent that is being swept: accesses to it stall, a copy in an L2 or not (R348). -/
def State.swept (s : State) (pa : Nat) : Bool :=
  decide (farBase ≤ pa) && (match s.extentOf pa with | some e => e.sweep | none => false)

/-- A piece read through a die's own L2 (R295): from the copy there, else from home once a dirty copy elsewhere has been
written back. -/
def State.l2Read (s : State) (w : Who) (site p : Nat) (ea : W64) : Iss (List Byte × State) :=
  match s.piece site p with
  | some v => do
    needWait (!s.swept (p * 64))
    need (!v.poison) .POISON ea 0
    .ok (v.bytes, s.touchGranule site (p / 32))
  | none => do
    let s1 ← s.reachHome w (p * 64) ea
    s1.reachCopies w p (s1.dirtyHolder p).toList ea
    let s2 := s1.recallAll p (s1.holders p)
    let r ← s2.homeRead w p ea
    let s3 := r.2.touchGranule site (p / 32)
    .ok (r.1, s3.setPiece site p { bytes := r.1, dirty := false, poison := false })

/-- A die's own copy of a piece, owned: every other copy written back and invalidated (R295); a clean copy is owned only once its home has
been asked (R305, R319). A poisoned line is taken in as a poisoned
piece; for a write of the whole piece nothing is read. -/
def State.l2Own (s : State) (w : Who) (site p : Nat) (full : Bool) (ea : W64) : Iss State :=
  match s.piece site p with
  | some v => do
    needWait (!s.swept (p * 64))
    let s ← if v.dirty then .ok s else do
      let u ← s.reachHome w (p * 64) ea
      u.reachCopies w p ((u.holders p).filter (· != site)) ea
      .ok u
    .ok ((s.dropAll p ((s.holders p).filter (· != site))).touchGranule site (p / 32))
  | none => do
    let s1 ← s.reachHome w (p * 64) ea
    s1.reachCopies w p (s1.holders p) ea
    let s2 := s1.recallInv p
    let s3 ← if full then .ok s2 else s2.homeOpen w p ea
    let bytes := if full || s3.zeroLine w p then List.replicate 64 0 else s3.shown w p
    let s4 := s3.touchGranule site (p / 32)
    .ok (s4.setPiece site p { bytes := bytes, dirty := false, poison := tget false s3.lineBad (s3.homeLine w p) })

/-- The level at which a die performs a beyond-L1 access: a die without slices performs `.l2` accesses at home (R292). -/
def lvlAt (site : Nat) : Lvl → Lvl
  | .home => .home
  | .strm => .strm
  | _ => if hasL2 site then .l2 else .home

/-- The address at which an access to a page under migration is performed: its new frame (R341). -/
def State.forward (s : State) (pa : Nat) : Nat :=
  match s.migrate.find? fun m => m.old == pa / 65536 with
  | some m => m.new * 65536 + pa % 65536
  | none => pa

/-- The level at which an access of a physical address is performed: an address of the far tier at the coherence point under `.l1` too (R350,
log 74, DEDUCED). -/
def State.tierLvl (s : State) (pa : Nat) (lvl : Lvl) : Lvl := if lvl == .l1 && decide (farBase ≤ s.forward pa) then .l2 else lvl

/-- Bytes within one piece read at the coherence point (R295, R341, R350). -/
def State.cohRead (s : State) (w : Who) (lvl : Lvl) (at_ n : Nat) (ea : W64) : Iss (List Byte × State) :=
  let pa := s.forward at_
  let p := pa / 64
  if lvlAt w.c.site lvl == .l2 then do
    let r ← s.l2Read w w.c.site p ea
    .ok ((r.1.drop (pa % 64)).take n, r.2)
  else do
    let s1 ← s.reachHome w pa ea
    s1.reachCopies w p (s1.holders p) ea
    let r ← (s1.recallInv p).homeRead w p ea
    .ok ((r.1.drop (pa % 64)).take n, r.2)

/-- Bytes within one piece written at the coherence point by one operation (R295, R296, R341, R350). -/
def State.cohWrite (s : State) (w : Who) (lvl : Lvl) (at_ : Nat) (data : List Byte) (ea : W64) : Iss State :=
  let pa := s.forward at_
  let p := pa / 64
  if lvlAt w.c.site lvl == .l2 then do
    let s1 ← s.l2Own w w.c.site p (decide (data.length = 64)) ea
    match s1.piece w.c.site p with
    | some v =>
      .ok (s1.setPiece w.c.site p { v with bytes := overlay v.bytes (pa % 64) data, dirty := true,
                                           poison := v.poison && decide (data.length ≠ 64) })
    | none => .ok s1
  else do
    let s1 ← s.reachHome w pa ea
    s1.reachCopies w p (s1.holders p) ea
    let s2 := s1.recallInv p
    let s3 ← if data.length = 64 then .ok s2 else s2.homeOpen w p ea
    .ok (s3.homeWrite w pa data)

/-- The D bit set in a PTE by an atomic OR at its home (R302); nothing where it cannot be reached. -/
def State.orD (s : State) (w : Who) (at_ : Nat) : State :=
  let v := { w with fold := none }
  match (do
    let r ← s.cohRead v .home at_ 8 0
    r.2.cohWrite v .home at_ (leBytes 8 ((BitVec.ofNat 64 (leNat r.1) ||| 0x100).toNat)) 0 : Iss State) with
  | .ok u => u
  | .error _ => s

/-- What an access has found bad, marked at its home as the requester that found it maps it (R296, R323, R343). -/
def State.markBad (s : State) : List Bad → State
  | [] => s
  | b :: t => (if b.kind == 6 then s.orD b.who b.line else s.markLine b.who b.line b.kind).markBad t

/-! ### The L1 of a core (R182, R351, R355, R356) -/

/-- The current copy of a line in a core's L1: the one that is not stale. -/
def l1Find (c : CoreSt) (line : Nat) : Option (Nat × L1Line) := c.l1.find? fun e => e.2.line == line && !e.2.stale

/-- The copies of a line in an L1: the current one first, then the stale ones (R356). -/
def copiesOf (t : Tab L1Line) (line : Nat) : List L1Line :=
  let l := (t.filter fun e => e.2.line == line).map (·.2)
  l.filter (!·.stale) ++ l.filter (·.stale)

/-- The dirty bytes of a line over all its copies as one copy of it: no byte is written back twice (R352, R356). -/
def unionLine (t : Tab L1Line) (line : Nat) : L1Line :=
  let l := copiesOf t line
  { line := line, bytes := (List.range 64).map fun k => ((l.find? fun e => e.dirty.getLsbD k).map fun e => e.bytes.getD k 0).getD 0,
    dirty := l.foldl (fun m e => m ||| e.dirty) 0, locks := 0, stale := false, brief := false, filled := false }

/-- The dirty places of a line as runs: first offset and bytes. -/
def dirtyRuns (l : L1Line) : List (Nat × List Byte) :=
  let step := fun (acc : List (Nat × List Byte)) (k : Nat) =>
    if l.dirty.getLsbD k then
      let b := l.bytes.getD k 0
      match acc with
      | (o, bs) :: t => if o + bs.length == k then (o, bs ++ [b]) :: t else (k, [b]) :: acc
      | [] => [(k, [b])]
    else acc
  ((List.range 64).foldl step []).reverse

/-- Runs of bytes written at the coherence point, or the hold of one that has to wait; a run that fails there is dropped. -/
def State.writeRuns (s : State) (w : Who) (line : Nat) : List (Nat × List Byte) → Except Hold State
  | [] => .ok s
  | (o, bs) :: t =>
    match s.cohWrite w .l2 (line * 64 + o) bs 0 with
    | .ok s' => s'.writeRuns w line t
    | .error (.stall h) => .error h
    | .error (.fault f) => (s.markBad f.bad).writeRuns w line t

/-- An L1 line with its dirty bytes marked clean. -/
def L1Line.cleaned (l : L1Line) : L1Line := { l with dirty := 0 }

/-- The dirty bytes of a line, in whichever of its copies, written back by one operation (R351 to R353); the copies stay, but for one
whose bytes were never filled. A write-back that has to wait changes nothing: its bytes stay dirty. -/
def State.cleanLine (s : State) (w : Who) (line : Nat) : State :=
  match s.writeRuns w line (dirtyRuns (unionLine (s.core w.c).l1 line)) with
  | .error _ => s
  | .ok s1 =>
    let k := s1.core w.c
    s1.setCore w.c { k with
      l1 := tmap (fun _ l => if l.line == line then l.cleaned else l) (tfilter (fun _ l => l.line != line || l.filled) k.l1) }

/-- Whether a core's L1 holds dirty bytes of a line: its write-back has to wait. -/
def State.lineDirty (s : State) (c : CoreId) (line : Nat) : Bool := (copiesOf (s.core c).l1 line).any fun l => l.dirty != 0

/-- What holds the write-back of a line of a core's L1 (R328, R348). -/
def State.backHold (s : State) (w : Who) (line : Nat) : Hold :=
  match s.writeRuns w line (dirtyRuns (unionLine (s.core w.c).l1 line)) with
  | .error h => h
  | .ok _ => .stall

/-- The line of one L1 copy of a core written back (R351). -/
def State.l1Clean (s : State) (w : Who) (id : Nat) : State :=
  match tget? (s.core w.c).l1 id with
  | none => s
  | some l => s.cleanLine w l.line

/-- One L1 line of a core dropped. -/
def State.l1Drop (s : State) (c : CoreId) (id : Nat) : State :=
  let k := s.core c
  s.setCore c { k with l1 := tdel k.l1 id }

/-- One L1 line of a core leaves the L1: its dirty bytes are written back first, and a locked line becomes stale (R356). One whose
write-back has to wait stays. -/
def State.l1Leave (s : State) (w : Who) (id : Nat) : State :=
  let s1 := s.l1Clean w id
  let k := s1.core w.c
  match tget? k.l1 id with
  | none => s1
  | some l =>
    if l.dirty != 0 then s1
    else if l.locks == 0 then s1.l1Drop w.c id
    else s1.setCore w.c { k with l1 := tset k.l1 id { l with stale := true } }

/-- Lines of the list leave the L1. -/
def State.l1LeaveAll (s : State) (w : Who) : List Nat → State
  | [] => s
  | id :: t => (s.l1Leave w id).l1LeaveAll w t

/-- Lines of the list written back. -/
def State.l1CleanAll (s : State) (w : Who) : List Nat → State
  | [] => s
  | id :: t => (s.l1Clean w id).l1CleanAll w t

/-- What an acquire of scope 1 or wider does to the L1 (R158, R356): unlocked lines are written back and invalidated, locked
ones become stale. -/
def State.l1Acquire (s : State) (w : Who) : State := s.l1LeaveAll w ((s.core w.c).l1.map (·.1))

/-- What a release of scope 1 or wider does to the L1: every dirty line is written back (R158, R182). -/
def State.l1Release (s : State) (w : Who) : State := s.l1CleanAll w ((s.core w.c).l1.map (·.1))

/-- Whether a core's L1 holds a dirty byte: after a release or an acquire, one whose write-back has to wait. -/
def State.l1Dirty (s : State) (c : CoreId) : Bool := (s.core c).l1.any fun e => e.2.dirty != 0

/-- What holds the first write-back that a core's L1 still has to make. -/
def State.flushHold (s : State) (w : Who) : Hold :=
  match (s.core w.c).l1.find? fun e => e.2.dirty != 0 with
  | some e => s.backHold w e.2.line
  | none => .stall

/-- The state once its write-backs are made; held while one has to wait (R328, R348, R357). -/
def State.writtenBack (s : State) (w : Who) : Iss State := if s.l1Dirty w.c then .error (.stall (s.flushHold w)) else .ok s

/-- A release finished: every dirty line is written back (R357). -/
def State.released (s : State) (w : Who) : Iss State := (s.l1Release w).writtenBack w

/-- An acquire finished (R357). -/
def State.acquired (s : State) (w : Who) : Iss State := (s.l1Acquire w).writtenBack w

/-- The L1 after a save or a team's end: everything written back and invalidated (R184, R365), or what its write-back has to wait for. -/
def State.l1Flush (s : State) (w : Who) : Except Hold State :=
  let s1 := s.l1Release w
  if s1.l1Dirty w.c then .error (s1.flushHold w) else .ok (s1.setCore w.c { s1.core w.c with l1 := [] })

/-- Before an access beyond the L1: the dirty bytes of the line are written back, and the core's current copy leaves (R138). -/
def State.l1Beyond (s : State) (w : Who) (line : Nat) : Iss State :=
  let s1 := match l1Find (s.core w.c) line with
    | some (id, _) => s.l1Leave w id
    | none => s.cleanLine w line
  if s1.lineDirty w.c line then .error (.stall (s1.backHold w line)) else .ok s1

/-- One lock of a line released; a stale or brief line leaves when its count reaches zero (R182, R356), or, where its write-back has to
wait, once that is made. -/
def State.l1Unlock (s : State) (w : Who) (id : Nat) : State :=
  match tget? (s.core w.c).l1 id with
  | none => s
  | some l =>
    let k := s.core w.c
    let s1 := s.setCore w.c { k with l1 := tset k.l1 id { l with locks := l.locks - 1, stale := l.stale || (l.brief && decide (l.locks ≤ 1)) } }
    if l.locks ≤ 1 && (l.stale || l.brief) then s1.l1Leave w id else s1

/-- Locks of the listed lines released. -/
def State.l1UnlockAll (s : State) (w : Who) : List Nat → State
  | [] => s
  | id :: t => (s.l1Unlock w id).l1UnlockAll w t

/-- The lines of an L1 in the set of a line (R182). -/
def l1Set (k : CoreSt) (line : Nat) : Tab L1Line := k.l1.filter fun e => e.2.line % 256 == line % 256

/-- Whether the set of a line has a way that no `dq` entry locks (R182). -/
def l1Way (k : CoreSt) (line : Nat) : Bool := decide ((l1Set k line).length < 8) || (l1Set k line).any fun e => e.2.locks == 0

/-- Room for one more line in the set of a line: as it is, after an eviction of the oldest unlocked line (log 77, DESIGN
CHOICE), or none where all 8 ways are locked (R182); held while that line's write-back has to wait. -/
def State.l1Room (s : State) (w : Who) (line : Nat) : Iss (Option State) :=
  let set := l1Set (s.core w.c) line
  if set.length < 8 then .ok (some s)
  else match set.find? fun e => e.2.locks == 0 with
    | none => .ok none
    | some e =>
      let s1 := s.l1Clean w e.1
      if s1.lineDirty w.c e.2.line then .error (.stall (s1.backHold w e.2.line)) else .ok (some (s1.l1Drop w.c e.1))

/-- A line's dirty bytes, in stale copies of it, written back before a fresh copy of it is made (R351, R356). -/
def State.staleHome (s : State) (w : Who) (line : Nat) : Iss State :=
  let s1 := s.cleanLine w line
  if s1.lineDirty w.c line then .error (.stall (s1.backHold w line)) else .ok s1

/-- A new line put into a core's L1, with its number. -/
def State.l1Put (s : State) (c : CoreId) (l : L1Line) : Nat × State :=
  let k := s.core c
  (k.l1Next, s.setCore c { k with l1 := tset k.l1 k.l1Next l, l1Next := k.l1Next + 1 })

/-- A line's bytes where its dirty bytes stand and another's elsewhere. -/
def mergeDirty (l : L1Line) (base : List Byte) : List Byte :=
  (List.range 64).map fun k => if l.dirty.getLsbD k then l.bytes.getD k 0 else base.getD k 0

/-- The bits of `n` bytes from an offset in a line. -/
def lineMask (off n : Nat) : BitVec 64 := BitVec.ofNat 64 ((2 ^ n - 1) * 2 ^ off)

/-- A filled current copy of a line in the L1, with its number: the one there, or a new one filled from the coherence point
at the level of the access (R182, R351). None where every way of the set is locked. -/
def State.l1Fill (s : State) (w : Who) (line : Nat) (lvl : Lvl) (brief : Bool) (ea : W64) : Iss (Option Nat × State) :=
  match l1Find (s.core w.c) line with
  | some (id, l) =>
    if l.filled then .ok (some id, s)
    else do
      let r ← s.cohRead w lvl (line * 64) 64 ea
      let k := r.2.core w.c
      .ok (some id, r.2.setCore w.c { k with l1 := tset k.l1 id { l with bytes := mergeDirty l r.1, filled := true } })
  | none => do
    let s0 ← s.staleHome w line
    match ← s0.l1Room w line with
    | none => .ok (none, s0)
    | some s1 => do
      let r ← s1.cohRead w lvl (line * 64) 64 ea
      let p := r.2.l1Put w.c { line := line, bytes := r.1, dirty := 0, locks := 0, stale := false, brief := brief, filled := true }
      .ok (some p.1, p.2)

/-- A load within one line under `.l1` (R182, R351): an unlocked way where there is one, else at `.l2`. -/
def State.l1Read (s : State) (w : Who) (pa n : Nat) (ea : W64) : Iss (List Byte × State) :=
  let line := pa / 64
  let hit := match l1Find (s.core w.c) line with
    | some (_, l) =>
      if l.filled || (l.dirty &&& lineMask (pa % 64) n) == lineMask (pa % 64) n then some ((l.bytes.drop (pa % 64)).take n)
      else none
    | none => none
  match hit with
  | some b => .ok (b, s)
  | none => do
    let r ← s.l1Fill w line .l2 false ea
    match r.1 with
    | some id => match tget? (r.2.core w.c).l1 id with
      | some l => .ok ((l.bytes.drop (pa % 64)).take n, r.2)
      | none => .ok ([], r.2)
    | none => r.2.cohRead w .l2 pa n ea

/-- Bytes stored into every copy of a line that a core's L1 holds (R356): dirty there where the store is performed in the L1, and not where
it is performed beyond it. -/
def storeCopies (t : Tab L1Line) (line off : Nat) (data : List Byte) (dirty : Bool) : Tab L1Line :=
  tmap (fun _ l => if l.line == line then
    { l with bytes := overlay l.bytes off data, dirty := if dirty then l.dirty ||| lineMask off data.length else l.dirty } else l) t

/-- A store into the copies of its line (R356). -/
def State.intoCopies (s : State) (c : CoreId) (pa : Nat) (data : List Byte) (dirty : Bool) : State :=
  let k := s.core c
  s.setCore c { k with l1 := storeCopies k.l1 (pa / 64) (pa % 64) data dirty }

/-- A store within one line performed beyond the L1 (R138, R356): the line's dirty bytes go first, the current copy leaves, and the stale
copies that `dq` entries lock receive the store too. -/
def State.writePast (s : State) (w : Who) (lvl : Lvl) (pa : Nat) (data : List Byte) (ea : W64) : Iss State := do
  let s1 ← s.l1Beyond w (pa / 64)
  let s2 ← s1.cohWrite w lvl pa data ea
  .ok (s2.intoCopies w.c pa data false)

/-- A store within one line under `.l1` (R182): into every copy, after a line has been taken in where there was none; beyond
the L1 where every way is locked. -/
def State.l1Write (s : State) (w : Who) (pa : Nat) (data : List Byte) (ea : W64) : Iss State :=
  let line := pa / 64
  match l1Find (s.core w.c) line with
  | some _ => .ok (s.intoCopies w.c pa data true)
  | none => do
    let s0 ← s.staleHome w line
    let s1 ← s0.reachHome w pa ea
    match ← s1.l1Room w line with
    | some s2 =>
      .ok ((s2.l1Put w.c { line := line, bytes := List.replicate 64 0, dirty := 0, locks := 0, stale := false,
                           brief := false, filled := false }).2.intoCopies w.c pa data true)
    | none => s1.writePast w .l2 pa data ea

/-! ### Scratchpads (R272 to R278) -/

/-- Whether a word of a scratchpad range is poisoned. -/
def anyBad (bad : Tab Bool) (off n : Nat) : Bool :=
  (List.range (n / 4 + 2)).any fun k => decide (off / 4 + k < (off + n + 3) / 4) && tget false bad (off / 4 + k)

/-- Poison marks after a store of bytes: a word whose 4 bytes are all written is clean (R273). -/
def clearBad (bad : Tab Bool) (off n : Nat) : Tab Bool :=
  tfilter (fun k _ => !(decide (off ≤ 4 * k) && decide (4 * k + 4 ≤ off + n))) bad

/-- Bytes of a cluster scratchpad (R273). -/
def State.cspRead (s : State) (site cl off n : Nat) (ea : W64) : Iss (List Byte) :=
  let c := s.cluster site cl
  if anyBad c.bad off n then flt .POISON ea 0 else .ok (cread c.mem off n)

/-- Bytes stored into a cluster scratchpad (R273). -/
def State.cspWrite (s : State) (site cl off : Nat) (data : List Byte) : State :=
  let c := s.cluster site cl
  s.setCluster site cl { c with mem := cwrite c.mem off data, bad := clearBad c.bad off data.length }

/-- Bytes of a die scratchpad (R272, R273). -/
def State.dspRead (s : State) (site off n : Nat) (ea : W64) : Iss (List Byte) :=
  let d := s.die site
  if anyBad d.dspBad off n then flt .POISON ea 0 else .ok (cread d.dsp off n)

/-- Bytes stored into a die scratchpad. -/
def State.dspWrite (s : State) (site off : Nat) (data : List Byte) : State :=
  let d := s.die site
  s.setDie site { d with dsp := cwrite d.dsp off data, dspBad := clearBad d.dspBad off data.length }

/-- A strand of a team. -/
def TeamSt.str (t : TeamSt) : Strand → StrandSt
  | .C => t.c
  | .A => t.a
  | .X => t.x

/-- A team with one strand changed. -/
def TeamSt.setStr (t : TeamSt) (σ : Strand) (v : StrandSt) : TeamSt :=
  match σ with
  | .C => { t with c := v }
  | .A => { t with a := v }
  | .X => { t with x := v }

/-- Whether a waiter's condition holds for the state of its word. -/
def waiterReady (c : Cluster) (x : Waiter) : Bool := tget false c.full (x.off / 4) == x.full

/-- A record performed at its turn (R276): the word's new bit and bytes, and the value an `LDF` receives. -/
def waiterDo (c : Cluster) (x : Waiter) : Cluster :=
  match x.datum with
  | some v => { c with mem := cwrite c.mem x.off (leBytes 4 v.toNat), full := tset c.full (x.off / 4) true }
  | none => if x.take then { c with full := tset c.full (x.off / 4) false } else c

/-- The value that a full/empty operation gives its strand (R146). -/
def waiterVal (c : Cluster) (x : Waiter) : W64 := BitVec.ofNat 64 (leNat (cread c.mem x.off 4))

/-- The strand of a record given its value: its word retires at its next issue, or raises the POISON that it met (R273, R276). -/
def State.waiterDone (s : State) (site : Nat) (x : Waiter) (v : Option W64) : State :=
  let c : CoreId := ⟨site, x.core⟩
  let t := s.team c
  s.setTeam c (t.setStr x.strand { t.str x.strand with feDone := some v })

/-- Which team this is, as a number: its drover, node slot and instance (R161). -/
def teamTag (t : TeamSt) : Nat :=
  match t.id with
  | some i => (i.drv * 65536 + i.slot) * 65536 + i.inst
  | none => 0

/-- An away team one of whose waits is over: nothing more keeps it from its core (R187). -/
def Away.met (a : Away) (p : WaitCond → Bool) : Away := if a.conds.any p then { a with conds := [] } else a

/-- An away team told that its full/empty wait is met, where it waits for that word (R277). -/
def awayMet (team site cl off : Nat) (a : Away) : Away :=
  if teamTag a.team == team then
    a.met fun w => match w with | .fe st k o _ => st == site && k == cl && o == off | _ => false
  else a

/-- The drovers told that a swapped record's condition is met (R277). -/
def State.feMet (s : State) (team site cl off : Nat) : State :=
  { s with drovers := tmap (fun _ (d : Drover) => { d with away := d.away.map (awayMet team site cl off) }) s.drovers }

/-- One pass over the records of a word, oldest first (R276, R277): the records that stay, and whether any was performed. -/
def State.scanPass (s : State) (site cl word : Nat) : List Waiter → List Waiter → Bool → State × List Waiter × Bool
  | [], kept, did => (s, kept.reverse, did)
  | x :: t, kept, did =>
    let c := s.cluster site cl
    if x.off / 4 == word && waiterReady c x && !x.polled then
      if x.swapped then
        let s1 := s.feMet x.team site cl x.off
        s1.scanPass site cl word t kept did
      else
        if x.datum.isNone && tget false c.bad word then (s.waiterDone site x none).scanPass site cl word t kept true
        else ((s.setCluster site cl (waiterDo c x)).waiterDone site x (some (waiterVal c x))).scanPass site cl word t kept true
    else s.scanPass site cl word t (x :: kept) did

/-- The service scan of a word after its state changed (R276), repeated until a pass performs nothing. -/
def State.scanWord (s : State) (site cl word : Nat) : Nat → State
  | 0 => s
  | n + 1 =>
    let r := s.scanPass site cl word (s.cluster site cl).waiters [] false
    let c := r.1.cluster site cl
    let s1 := r.1.setCluster site cl { c with waiters := r.2.1 }
    if r.2.2 then s1.scanWord site cl word n else s1

/-- The service scan with a bound that no scan exceeds: each pass frees a record, and a cluster has 256 (R275, R276). -/
def State.serviceScan (s : State) (site cl off : Nat) : State := s.scanWord site cl (off / 4) 257

/-- A word marked full or empty, with its service scan (R147, R151). -/
def State.markWord (s : State) (site cl off : Nat) (full : Bool) : State :=
  let c := s.cluster site cl
  (s.setCluster site cl { c with full := tset c.full (off / 4) full }).serviceScan site cl off

/-! ### Translation (R299 to R304, R377) -/

/-- What an access asks of a page. -/
inductive Need
  | read | write | both | either | mapped
deriving DecidableEq, Repr

/-- Whether the access stores. -/
def Need.stores : Need → Bool
  | .write => true
  | .both => true
  | _ => false

/-- A translated address: physical address, non-cacheable, memory-side. -/
structure Xlat where
  pa : Nat
  nc : Bool
  ms : Bool
deriving DecidableEq, Repr

/-- Whether rights meet a need (R300). -/
def rightsOk (r w : Bool) : Need → Bool
  | .read => r
  | .write => w
  | .both => r && w
  | .either => r || w
  | .mapped => true

/-- The walker as a requester: it reads tables whatever fold's window holds them. -/
def Who.walker (w : Who) : Who := { w with fold := none }

/-- An 8-byte load by the walker, performed at `.home` (R302). -/
def State.walkLoad (s : State) (w : Who) (pa : Nat) (ea : W64) : Iss (Nat × State) := do
  let r ← s.cohRead w.walker .home pa 8 ea
  .ok (leNat r.1, r.2)

/-- The bytes that a leaf at a level maps (R299). -/
def leafSize (level : Nat) : Nat := 2 ^ (52 - 9 * (level + 1))

/-- The bits above bit 47 and bits 11 to 9 of a PTE that must be zero (R300). -/
def pteMbz (p : Nat) : Bool := p / 2 ^ 48 == 0 && bits p 11 9 == 0

/-- A table walk from a level on (R300, R302): the leaf's PTE, its address and its level. -/
def State.walkFrom (s : State) (w : Who) (va : Nat) (ea : W64) : Nat → Nat → Nat → Iss (Nat × Nat × Nat × State)
  | 0, _, level => flt .PAGE ea level
  | n + 1, base, level => do
    let at_ := base + 8 * bits va (51 - 9 * level) (43 - 9 * level)
    let r ← s.walkLoad w at_ ea
    let p := r.1
    if !bit p 0 then flt .PAGE ea level
    else if !pteMbz p then flt .PAGE ea (level + 256)
    else if bits p 3 1 == 0 then
      if level == 3 then flt .PAGE ea (level + 256) else r.2.walkFrom w va ea n (bits p 47 12 * 4096) (level + 1)
    else if level == 0 || bits p 47 12 * 4096 % leafSize level != 0 then flt .PAGE ea (level + 256)
    else .ok (p, at_, level, r.2)

/-- The root table of an ASID (R301): the entry must be valid, well formed and of the requester's fold. -/
def State.walkRoot (s : State) (w : Who) (ea : W64) : Iss (Nat × State) := do
  let r ← s.walkLoad w ((s.die w.c.site).atb.toNat + 8 * w.asid) ea
  let e := r.1
  let foldOk := match w.fold with | some f => bits e 3 1 == f | none => true
  if bit e 0 && e / 2 ^ 48 == 0 && bits e 11 4 == 0 && foldOk then .ok (bits e 47 12 * 4096, r.2) else flt .PAGE ea 512

/-- The TLB entry of a leaf. -/
def leafEnt (asid va p at_ level : Nat) : TlbEnt :=
  let size := leafSize level
  { asid := asid, glob := bit p 4, va := va / size * size, size := size, pa := bits p 47 12 * 4096, r := bit p 1, w := bit p 2,
    nc := bit p 6, ms := bit p 5, d := bit p 8, pte := at_ }

/-- The level of the leaf of a TLB entry (R299), which a fault record of it holds in auxiliary bits [1:0] (R300). -/
def TlbEnt.level (e : TlbEnt) : Nat := if e.size == leafSize 3 then 3 else if e.size == leafSize 2 then 2 else 1

/-- Whether a TLB entry translates an address of an ASID. -/
def tlbHit (e : TlbEnt) (asid va : Nat) : Bool :=
  (e.glob || e.asid == asid) && decide (e.va ≤ va) && decide (va < e.va + e.size)

/-- Whether the leaf's page may be used by the requester's fold (R317). -/
def State.leafFoldOk (s : State) (w : Who) (pa : Nat) : Bool :=
  match w.fold with
  | some f => decide (farBase ≤ pa) || s.inWindow w.c.site f (pa / 65536)
  | none => true

/-- A walk that installs the leaf (R302): A is set with the first use, D with the first store, by an atomic OR at `.home`. -/
def State.walk (s : State) (w : Who) (va : Nat) (need : Need) (ea : W64) : Iss (TlbEnt × State) := do
  let r ← s.walkRoot w ea
  let q ← r.2.walkFrom w va ea 4 r.1 0
  let e := leafEnt w.asid va q.1 q.2.1 q.2.2.1
  let s1 := q.2.2.2
  if !s1.leafFoldOk w (e.pa + (va - e.va)) then flt .PAGE ea (1024 + e.level)
  else if !rightsOk e.r e.w need then flt .PERM ea e.level
  else
    let new := (BitVec.ofNat 64 q.1 ||| 0x80 ||| (if need.stores then 0x100 else 0)).toNat
    let s2 ← if new == q.1 then pure s1 else s1.cohWrite w.walker .home q.2.1 (leBytes 8 new) ea
    let e' := { e with d := e.d || need.stores }
    let d := s2.die w.c.site
    .ok (e', s2.setDie w.c.site { d with tlb := e' :: d.tlb.filter fun x => !(x.pte == e'.pte && x.asid == e'.asid && x.va == e'.va) })

/-- A leaf that a die has installed with D clear, met by a store (R302): D is set in that leaf's PTE by an atomic OR at `.home`, and the PTE is
read again. One that is no valid leaf with the needed rights any more gives the fault that it shows; where the PTE has become a pointer to a
table, the walker walks anew from the root (log 61, DESIGN CHOICE). -/
def State.dirtyLeaf (s : State) (w : Who) (e : TlbEnt) (va : Nat) (need : Need) (ea : W64) : Iss (TlbEnt × State) := do
  let r ← s.walkLoad w e.pte ea
  let p := (BitVec.ofNat 64 r.1 ||| 0x100).toNat
  let bad := fun (c : Code) (aux : Nat) => (.error (.fault ⟨c, ea, aux, [⟨w, e.pte, 6⟩], false, none⟩) : Iss (TlbEnt × State))
  let e' := leafEnt e.asid va p e.pte e.level
  if !bit p 0 then bad .PAGE e.level
  else if !pteMbz p then bad .PAGE (e.level + 256)
  else if bits p 3 1 == 0 then if e.level == 3 then bad .PAGE (e.level + 256) else (r.2.orD w e.pte).walk w va need ea
  else if bits p 47 12 * 4096 % leafSize e.level != 0 then bad .PAGE (e.level + 256)
  else if !s.leafFoldOk w (e'.pa + (va - e'.va)) then bad .PAGE (1024 + e.level)
  else if !rightsOk e'.r e'.w need then bad .PERM e.level
  else do
    let u ← r.2.cohWrite w.walker .home e.pte (leBytes 8 p) ea
    let d := u.die w.c.site
    .ok (e', u.setDie w.c.site { d with tlb := e' :: d.tlb.filter fun x => x != e })

/-- The first address of a mapping in its open window (R377). -/
def Window.va (x : Window) : Nat := 2 ^ 51 + x.pa

/-- The open window's mapping that covers an address of an ASID (R170, R377). -/
def State.windowAt (s : State) (w : Who) (va : Nat) : Option Window :=
  if w.fold.isNone || decide (va < 2 ^ 51) then none
  else (s.drv w.drv).wins.find? fun x =>
    x.asid == w.asid && decide (x.va ≤ va) && decide (va < x.va + (x.len + 65535) / 65536 * 65536)

/-- Whether an access of `n` bytes lies within the mapping of the open window that covers it, which has not ended (R170). -/
def State.windowOk (s : State) (w : Who) (va n : Nat) : Bool :=
  match s.windowAt w va with
  | some x => !x.ended && decide (va + n ≤ x.va + x.len)
  | none => true

/-- A DEV access of `n` bytes translated (R137 orders 5 and 6, R170, R299 to R302). -/
def State.translate (s : State) (w : Who) (va n : Nat) (need : Need) (ea : W64) : Iss (Xlat × State) :=
  if !s.windowOk w va n then flt .BOUNDS ea 0
  else
    match (s.die w.c.site).tlb.find? fun e => tlbHit e w.asid va with
    | some e =>
      if !s.leafFoldOk w (e.pa + (va - e.va)) then flt .PAGE ea (1024 + e.level)
      else if !rightsOk e.r e.w need then flt .PERM ea e.level
      else if need.stores && !e.d then do
        let r ← s.dirtyLeaf w e va need ea
        .ok ({ pa := r.1.pa + (va - r.1.va), nc := r.1.nc, ms := r.1.ms }, r.2)
      else .ok ({ pa := e.pa + (va - e.va), nc := e.nc, ms := e.ms }, s)
    | none => do
      let r ← s.walk w va need ea
      .ok ({ pa := r.1.pa + (va - r.1.va), nc := r.1.nc, ms := r.1.ms }, r.2)

end Sys2Proof.Machine
end

