-- ==== Sys2Proof/Machine/Mmio.lean ====
section
/-! DEFINITION. Registers in the MMIO space (R8, R9, R399) and the kick words of queues and rings (R411, R412, R462). A window is
read and written by 8-byte words, a write with the mask of the bytes it writes. -/

namespace Sys2Proof.Machine

/-- The number of a fault code (R415). -/
def Code.num : Code → Nat
  | .ILLEGAL => 0x01 | .PRIV => 0x02 | .SPAN => 0x03 | .QUEUE => 0x04 | .STACK => 0x05
  | .PAGE => 0x10 | .PERM => 0x11 | .SPACE => 0x12 | .ALIGN => 0x13 | .BOUNDS => 0x14 | .FE => 0x15
  | .INTEGRITY => 0x20 | .POISON => 0x21 | .EXTENT_GONE => 0x22 | .FAR_TIMEOUT => 0x23
  | .SHAPE => 0x30 | .LEASE => 0x31 | .TILETYPE => 0x32
  | .XCOLLIDE => 0x40 | .FLOCK => 0x41 | .XPHASE => 0x42
  | .BRAND => 0x50 | .RIGHTS => 0x51 | .SLOT => 0x52
  | .FMT => 0x60 | .TRAP => 0x70 | .RING_MALFORMED => 0x80 | .NO_CLASS => 0x85
  | .ROW_RANGE => 0x90 | .ROW_TIER => 0x91 | .ROW_BUSY => 0x92
  | .WATCHDOG => 0xF0 | .RESET => 0xF1

/-- The fault code of a number (R415). -/
def codeOf (n : Nat) : Option Code :=
  [Code.ILLEGAL, .PRIV, .SPAN, .QUEUE, .STACK, .PAGE, .PERM, .SPACE, .ALIGN, .BOUNDS, .FE, .INTEGRITY, .POISON, .EXTENT_GONE,
   .FAR_TIMEOUT, .SHAPE, .LEASE, .TILETYPE, .XCOLLIDE, .FLOCK, .XPHASE, .BRAND, .RIGHTS, .SLOT, .FMT, .TRAP, .RING_MALFORMED,
   .NO_CLASS, .ROW_RANGE, .ROW_TIER, .ROW_BUSY, .WATCHDOG, .RESET].find? fun c => c.num == n

/-- A word of fields, each a value at a bit. -/
def packW (l : List (Nat × Nat)) : W64 := BitVec.ofNat 64 (l.foldl (fun a e => a + e.1 * 2 ^ e.2) 0)

/-- A register's new value: the bytes that the mask names come from the write. -/
def mergeW (old val mask : W64) : W64 := (old &&& ~~~mask) ||| (val &&& mask)

/-- A field of a word. -/
def fieldW (v : W64) (hi lo : Nat) : Nat := bits v.toNat hi lo

/-- A fold's descriptor as a drover holds it (R392). -/
def State.fold (s : State) (d f : Nat) : FoldDesc := tget FoldDesc.reset (s.drv d).folds f

/-- Whether a fold is enabled (R392). -/
def State.foldOn (s : State) (d f : Nat) : Bool := (s.fold d f).en

/-- The number of a node's state (R370). -/
def NodeSt.num : NodeSt → Nat
  | .idle => 0 | .waiting => 1 | .ready => 2 | .running => 3 | .done => 4 | .failed => 5 | .cancelled => 6

/-- The eight words of a node slot (R370). -/
def nodeWord (n : Node) : Nat → W64
  | 0 => packW [(n.st.num, 0), (n.cls, 4), (n.vclass, 8), (n.fold, 12), (b2n n.killed, 15), (b2n n.flkreq, 16), (n.pbase, 17),
                (n.pcur, 20), (n.pending, 32)]
  | 1 => packW [(n.count, 0), (n.disp, 32)]
  | 2 => packW [(n.flock.getD 0, 0), (n.compl, 32)]
  | 3 => n.text
  | 4 => n.vtext
  | 5 => n.param
  | 6 => n.brands
  | _ => packW [(n.succ, 0), (n.nsucc, 48)]

/-- The four words of a buffer record (R381). -/
def bufWord (b : Buf) : Nat → W64
  | 0 => BitVec.ofNat 64 b.pa
  | 1 => BitVec.ofNat 64 b.len
  | 2 => packW [(b.count, 0), (b.gen, 32), (b.fold, 48), (b.rights.toNat, 51), (b2n b.graphOwned, 57)]
  | _ => BitVec.ofNat 64 (b.gid.getD 0xFFFFFFFF)

/-- The physical address of the kick word of QCB `q` of drover `d` (R411). -/
def kickAddr (d q : Nat) : Nat := 0xF00000000000 + 0x10000 * d + 8 * q

/-- The eight words of a QCB (R409). -/
def qcbWord (d q : Nat) (b : Qcb) : Nat → W64
  | 0 => b.base
  | 1 => packW [(b.log2.toNat, 0), (b.prio.toNat, 8), (b.fold.toNat, 12), (b.slot.toNat, 24), (b.st.toNat, 30), (b.age.toNat, 32)]
  | 2 => b.rdidx
  | 3 => b.hdr
  | 4 => BitVec.ofNat 64 (kickAddr d q)
  | 5 => b.part
  | 6 => packW [(b.lgraph.toNat, 0), (b2n b.lgv, 32)]
  | _ => 0

/-- A QCB as it stands: while it is MAPPED its slot holds the live copy (R409). -/
def liveQcb (v : Drover) (q : Nat) : Qcb :=
  let b := tget Qcb.reset v.qcbs q
  if b.st == 2 then (tget HwSlot.reset v.slots b.slot.toNat).copy else b

/-- A QCB after firmware writes one of its words (R409): only while DISABLED or UNMAPPED, and STATE only to 0 or 1. -/
def qcbWrite (b : Qcb) (k : Nat) (val mask : W64) : Qcb :=
  if b.st == 2 || b.st == 3 then b
  else match k with
    | 0 => { b with base := mergeW b.base val mask }
    | 1 =>
      let w := mergeW (qcbWord 0 0 b 1) val mask
      let st : BitVec 2 := if fieldW w 31 30 < 2 then BitVec.ofNat 2 (fieldW w 31 30) else b.st
      { b with log2 := BitVec.ofNat 5 (fieldW w 4 0), prio := BitVec.ofNat 3 (fieldW w 10 8),
               fold := BitVec.ofNat 3 (fieldW w 14 12), st := st, age := BitVec.ofNat 32 (fieldW w 63 32) }
    | 2 => { b with rdidx := mergeW b.rdidx val mask }
    | 3 => { b with hdr := mergeW b.hdr val mask }
    | 5 => { b with part := mergeW b.part val mask }
    | 6 =>
      let w := mergeW (qcbWord 0 0 b 6) val mask
      { b with lgraph := BitVec.ofNat 32 (fieldW w 31 0), lgv := bit w.toNat 32 }
    | _ => b

/-- The eight words of a fold descriptor (R392). -/
def foldWord (f : FoldDesc) : Nat → W64
  | 0 => f.sites.setWidth 64
  | 1 => packW [(f.slot0.toNat, 0), (f.slot1.toNat, 16)]
  | 2 => packW [(f.hq0.toNat, 0), (f.hq1.toNat, 8)]
  | 3 => packW [(f.abase.toNat, 0), (f.acnt.toNat, 16)]
  | 4 => packW [(if f.wt == 0 then 1 else f.wt.toNat, 0)]
  | 5 => packW [(f.age.toNat, 0), (f.waitmax.toNat, 32)]
  | 6 => packW [(b2n f.en, 0), (b2n f.lock, 1)]
  | _ => 0

/-- The bits of a discovery entry that are not zero (R379). -/
def discMask : W128 := 0x00000107FFFFFFFFFFFFFFFFFFFFFFFF

/-- The bits of a group table entry that are not zero (R464). -/
def groupMask : W128 := 0xFFFFFFFFFFFFFFFFFFFFFFFFFF00FFFF

/-- A fold descriptor after firmware writes one of its words: nothing while LOCK is set (R392). -/
def foldWrite (f : FoldDesc) (k : Nat) (val mask : W64) : FoldDesc :=
  if f.lock then f
  else
    let w := mergeW (foldWord f k) val mask
    match k with
    | 0 => { f with sites := w.setWidth 60 }
    | 1 => { f with slot0 := w.setWidth 16, slot1 := (w >>> 16).setWidth 16 }
    | 2 => { f with hq0 := w.setWidth 7, hq1 := (w >>> 8).setWidth 7 }
    | 3 => { f with abase := w.setWidth 11, acnt := (w >>> 16).setWidth 12 }
    | 4 => { f with wt := w.setWidth 6 }
    | 5 => { f with age := w.setWidth 32, waitmax := (w >>> 32).setWidth 32 }
    | 6 => { f with en := bit w.toNat 0, lock := bit w.toNat 1 }
    | _ => f

/-- The number of a slot's state (R398, R410). -/
def SlotSt.num : SlotSt → Nat
  | .free => 0 | .loaded => 1 | .serving => 2 | .stopped => 3

/-- Eight pending bits' worth of PEND words: bits 64 j to 64 j + 63 as a word (R398). -/
def pendWord (t : Tab Bool) (j : Nat) : W64 :=
  BitVec.ofNat 64 ((List.range 64).foldl (fun a k => a + b2n (tget false t (64 * j + k)) * 2 ^ k) 0)

/-- Offset-th word of a block, where the offset lies in it. -/
def inBlk (o base size : Nat) : Bool := decide (base ≤ o) && decide (o < base + size)

/-- A word of the drover die's own blocks (R398). -/
def State.drvWord (s : State) (d o : Nat) : Option W64 :=
  let v := s.drv d
  if inBlk o 0x2000 0x200 then some (foldWord (s.fold d ((o - 0x2000) / 64)) ((o - 0x2000) % 64 / 8))
  else if inBlk o 0x3000 512 then some (pendWord v.pend ((o - 0x3000) / 8))
  else if o == 0x3200 then some (BitVec.ofNat 64 v.faultQ.length)
  else if inBlk o 0x3400 128 then
    let e := tget (0, 0) v.bpool ((o - 0x3400) / 16)
    some (if o % 16 == 0 then e.1 else e.2)
  else if inBlk o 0x3600 128 then some (if o % 16 == 0 then tget 0 v.wdcfg ((o - 0x3600) / 16) else 0)
  else if o == 0x3700 && d == s.timeDrv then some (s.mgmt.hpsel.setWidth 64)
  else if inBlk o 0x3800 0x30 && d == s.timeDrv then
    some (match (o - 0x3800) / 8 with
      | 0 => s.ns
      | 1 => s.mgmt.tmfrac.setWidth 64
      | 2 => packW [(min ((s.mgmt.slew.natAbs + 65535) / 65536) 0xFFFFFF, 0), (b2n s.mgmt.timeHold, 29), (s.mgmt.timeSrc.toNat, 30)]
      | 3 => s.mgmt.tmrate
      | _ => 0)
  else if inBlk o 0x3900 128 then some 0
  else if o == 0x3A00 then some 0
  else if inBlk o 0x10000 0x40000 then
    let q := (o - 0x10000) / 64
    some (qcbWord d q (liveQcb v q) ((o - 0x10000) % 64 / 8))
  else if inBlk o 0x50000 1024 then
    let k := tget HwSlot.reset v.slots ((o - 0x50000) / 16)
    some (if o % 16 == 0 then packW [(k.st.num, 0), (k.qcb, 32)] else 0)
  else if inBlk o 0x51000 256 then some 0
  else if inBlk o 0x60000 1024 then
    let e := tget 0 v.disc ((o - 0x60000) / 16)
    some (if o % 16 == 0 then e.setWidth 64 else (e >>> 64).setWidth 64)
  else if inBlk o 0x80000 0x200000 then
    some (bufWord (tget Buf.reset v.bufs ((o - 0x80000) / 32)) ((o - 0x80000) % 32 / 8))
  else if inBlk o 0x400000 0x400000 then
    some (nodeWord (tget Node.reset v.nodes ((o - 0x400000) / 64)) ((o - 0x400000) % 64 / 8))
  else none

/-- A word of a log record (R343). -/
def logWord (r : LogRec) : Nat → W64
  | 0 => packW [(r.seq, 0), (r.kind, 32), (r.pc, 40)]
  | 1 => BitVec.ofNat 64 r.addr
  | 2 => r.ecnt
  | _ => BitVec.ofNat 64 r.time

/-- A word of the blocks that a MEM, FAR or FAB die adds (R342, R347, R439, R457 to R464). -/
def State.kindWord (s : State) (site o : Nat) : Option W64 :=
  let d := s.die site
  match Config.kindAt site with
  | .mem =>
    if o == 0 then some d.stkcfg
    else if o == 8 then some (packW [(d.elog.length, 0), (b2n d.elogOvf, 31)])
    else if o == 16 then some 0
    else if inBlk o 0x100 512 then some (tget 0 d.ecnt ((o - 0x100) / 8))
    else if inBlk o 0x400 1024 then
      some (match d.elog[(o - 0x400) / 32]? with | some r => logWord r ((o - 0x400) % 32 / 8) | none => 0)
    else if inBlk o 0x1000 256 then some 0
    else none
  | .far =>
    if inBlk o 0x1000 256 then some 0
    else if inBlk o 0x2000 256 then
      let k := (o - 0x2000) % 32 / 16
      let e := tget (0, 0) d.pools ((o - 0x2000) / 32 * 2 + k)
      some (if o % 16 == 0 then e.1 else e.2)
    else none
  | .fab =>
    if o == 0 then some (d.pkgid.setWidth 64)
    else if inBlk o 0x10000 0x10000 then some (if o % 16 == 0 then tget 0 d.peers ((o - 0x10000) / 16) else 0)
    else if inBlk o 0x20000 128 then
      let e := tget (0, 0) d.exports ((o - 0x20000) / 16)
      some (if o % 16 == 0 then e.1 else e.2)
    else if inBlk o 0x30000 0x1000 then
      let r := tget (0, 0, 0, 0) d.rings ((o - 0x30000) / 64)
      some (match (o - 0x30000) % 64 / 8 with
        | 0 => r.1 | 1 => r.2.1 | 2 => r.2.2.1 | 3 => r.2.2.2 | _ => 0)
    else if inBlk o 0x40000 0x1000 then
      let e := tget 0 d.groups ((o - 0x40000) / 16)
      some (if o % 16 == 0 then e.setWidth 64 else (e >>> 64).setWidth 64)
    else none
  | _ => none

/-- A word of the blocks that every die has (R399). -/
def State.commonWord (s : State) (site o : Nat) : Option W64 :=
  let d := s.die site
  if inBlk o 0xF00000 0x300 then
    some (if o % 64 == 0 then (tget Link.reset d.links ((o - 0xF00000) / 64)).lkcfg.setWidth 64 else 0)
  else if o == 0xF10000 then some d.atb
  else if inBlk o 0xF10100 256 then
    let e := s.winEnt site ((o - 0xF10100) / 32)
    some (match (o - 0xF10100) % 32 / 8 with
      | 0 => e.1
      | 1 => packW [((liveList e.2).length, 0), (e.2.toNat, 8)]
      | _ => 0)
  else if inBlk o 0xF10200 64 then
    some (packW ((List.range 8).map fun k => ((tget 0 d.routes (o - 0xF10200 + k)).toNat, 8 * k)))
  else none

/-- The site and the offset in its window that an MMIO offset names, for a firmware core of drover `d` (R399). -/
def mmioSite (d off : Nat) : Option (Nat × Nat) :=
  if off < 0x1000000 then some (Config.drvSite d, off)
  else if off < 0x3D000000 then some (off / 0x1000000 - 1, off % 0x1000000)
  else none

/-- Whether a site answers MMIO accesses (R379, R399): neither absent nor retired. -/
def State.siteThere (s : State) (d site : Nat) : Bool :=
  Config.kindAt site != .none && (s.siteStatus d site == 1 || s.siteStatus d site == 2)

/-- The word at an 8-aligned offset of a site's window. -/
def State.winWord (s : State) (site o : Nat) : Option W64 :=
  match s.commonWord site o with
  | some v => some v
  | none => if Config.kindAt site == .drv then s.drvWord (Config.siteDrv site) o else s.kindWord site o

/-- Bytes read from the MMIO space by a firmware core of drover `d` (R399): none where the read fails. A read of TMNS latches
TMFRAC (R470). -/
def State.mmioRead (s : State) (d off n : Nat) : Option (List Byte × State) :=
  match mmioSite d off with
  | none => none
  | some (site, o) =>
    if !s.siteThere d site || (inBlk o 0xF10200 64 && decide (0xF1023C < o + n)) then none
    else (s.winWord site (o / 8 * 8)).map fun v =>
      let bs := ((leBytes 8 v.toNat).drop (o % 8)).take n
      if site == Config.drvSite s.timeDrv && o / 8 * 8 == 0x3800 then (bs, { s with mgmt := { s.mgmt with tmfrac := s.frac } })
      else (bs, s)

/-- Pending bits cleared by ones written (R398, W1C). -/
def pendClear (t : Tab Bool) (j : Nat) (v : W64) : Tab Bool := tfilter (fun q _ => !(q / 64 == j && v.getLsbD (q % 64))) t

/-- A write to a register of a drover die (R398). -/
def State.drvWrite (s : State) (d o : Nat) (val mask : W64) : Option State :=
  let v := s.drv d
  if inBlk o 0x2000 0x200 then
    let f := (o - 0x2000) / 64
    some (s.setDrv d { v with folds := tset v.folds f (foldWrite (s.fold d f) ((o - 0x2000) % 64 / 8) val mask) })
  else if inBlk o 0x3000 512 then some (s.setDrv d { v with pend := pendClear v.pend ((o - 0x3000) / 8) (val &&& mask) })
  else if o == 0x3200 then some s
  else if inBlk o 0x3400 128 then
    let f := (o - 0x3400) / 16
    let e := tget (0, 0) v.bpool f
    some (s.setDrv d { v with bpool := tset v.bpool f (if o % 16 == 0 then (mergeW e.1 val mask, e.2) else (e.1, mergeW e.2 val mask)),
                              pools := tdel v.pools f })
  else if inBlk o 0x3600 128 then
    let f := (o - 0x3600) / 16
    some (if o % 16 == 0 then s.setDrv d { v with wdcfg := tset v.wdcfg f (mergeW (tget 0 v.wdcfg f) val mask) } else s)
  else if o == 0x3700 && d == s.timeDrv then
    some { s with mgmt := { s.mgmt with hpsel := (mergeW (s.mgmt.hpsel.setWidth 64) val mask).setWidth 8 } }
  else if inBlk o 0x3800 0x30 && d == s.timeDrv then
    match (o - 0x3800) / 8 with
    | 2 =>
      let src := fieldW (mergeW (packW [(s.mgmt.timeSrc.toNat, 30)]) val mask) 31 30
      some (if src == 3 then s else { s with mgmt := { s.mgmt with timeSrc := BitVec.ofNat 2 src, srcAt := if s.mgmt.timeSrc.toNat == src then s.mgmt.srcAt else s.runNs } })
    | 3 => some { s with mgmt := { s.mgmt with tmrate := mergeW s.mgmt.tmrate val mask } }
    | 4 => some { s with agenda := .step .tmslew { EvArg.zero with word := val &&& mask } :: s.agenda }
    | 5 => some { s with agenda := .step .tmset { EvArg.zero with word := val &&& mask } :: s.agenda }
    | _ => some s
  else if inBlk o 0x3900 128 then some (s.setDrv d { v with fwkick := tset v.fwkick ((o - 0x3900) / 8) s.runNs })
  else if o == 0x3A00 then
    let i : Option Instr := match fieldW val 2 0 with
      | 1 => some .rstreqCluster | 2 => some .rstreqFold | 3 => some .rstreqPackage | 4 => some .rstreqRelease
      | _ => none
    some (match i with | some i => { s with agenda := .step i { EvArg.zero with word := val &&& mask } :: s.agenda } | none => s)
  else if inBlk o 0x10000 0x40000 then
    let q := (o - 0x10000) / 64
    some (s.setDrv d { v with qcbs := tset v.qcbs q (qcbWrite (tget Qcb.reset v.qcbs q) ((o - 0x10000) % 64 / 8) val mask) })
  else if inBlk o 0x50000 1024 then some s
  else if inBlk o 0x51000 256 then
    let f := (o - 0x51000) / 32
    let sh := 64 * ((o - 0x51000) % 32 / 8)
    if s.foldOn d f then some s
    else
      let m : BitVec 256 := mask.setWidth 256 <<< sh
      let old := tget 0 v.bkeys f
      some (s.setDrv d { v with bkeys := tset v.bkeys f ((old &&& ~~~m) ||| ((val.setWidth 256 <<< sh) &&& m)) })
  else if inBlk o 0x60000 1024 then
    let i := (o - 0x60000) / 16
    let sh := 64 * (o % 16 / 8)
    let m : W128 := mask.setWidth 128 <<< sh
    some (if i < 60 then
      s.setDrv d { v with disc := tset v.disc i (((tget 0 v.disc i &&& ~~~m) ||| ((val.setWidth 128 <<< sh) &&& m)) &&& discMask) } else s)
  else if inBlk o 0x80000 0x200000 || inBlk o 0x400000 0x400000 then some s
  else none

/-- Whether a memory die is quiesced, so that STKCFG may be written (R342, log 14): the fold that owns the stack is not enabled, as from a
package reset until firmware enables it (R438), and once firmware has cleared EN after a fold reset (R445). A fold reset and a rebuild are
one step each, so no write falls inside them. -/
def State.dieQuiet (s : State) (site : Nat) : Bool := !s.foldOn s.timeDrv (sfoldOf (s.die site))

/-- A write of a 32-byte key register (R439): only while EN of the fold is 0. -/
def State.keyWrite (s : State) (site f o : Nat) (val mask : W64) : State :=
  if s.foldOn s.timeDrv f then s
  else
    let d := s.die site
    let sh := 64 * (o % 32 / 8)
    let m : BitVec 256 := mask.setWidth 256 <<< sh
    s.setDie site { d with keys := tset d.keys f ((tget 0 d.keys f &&& ~~~m) ||| ((val.setWidth 256 <<< sh) &&& m)) }

/-- A write to a register that a MEM, FAR or FAB die adds. -/
def State.kindWrite (s : State) (site o : Nat) (val mask : W64) : Option State :=
  let d := s.die site
  match Config.kindAt site with
  | .mem =>
    if o == 0 then
      some (if s.dieQuiet site then s.setDie site { d with stkcfg := mergeW d.stkcfg val mask &&& 0x1FFFFFFFFFE017 } else s)
    else if o == 8 then
      some (if bit (val &&& mask).toNat 31 then s.setDie site { d with elogOvf := false } else s)
    else if o == 16 then some { s with agenda := .step .elogclr { EvArg.zero with site := site, word := val &&& mask } :: s.agenda }
    else if inBlk o 0x100 512 || inBlk o 0x400 1024 then some s
    else if inBlk o 0x1000 256 then some (s.keyWrite site ((o - 0x1000) / 32) (o - 0x1000) val mask)
    else none
  | .far =>
    if inBlk o 0x1000 256 then some (s.keyWrite site ((o - 0x1000) / 32) (o - 0x1000) val mask)
    else if inBlk o 0x2000 256 then
      let k := (o - 0x2000) / 32 * 2 + (o - 0x2000) % 32 / 16
      let e := tget (0, 0) d.pools k
      some (s.setDie site { d with pools := tset d.pools k (if o % 16 == 0 then (mergeW e.1 val mask, e.2) else (e.1, mergeW e.2 val mask)) })
    else none
  | .fab =>
    if o == 0 then some (s.setDie site { d with pkgid := (mergeW (d.pkgid.setWidth 64) val mask).setWidth 12 })
    else if inBlk o 0x10000 0x10000 then
      let n := (o - 0x10000) / 16
      some (if o % 16 == 0 then
        s.setDie site { d with peers := tset d.peers n (mergeW (tget 0 d.peers n) val mask &&& 0x87E0FFFFFFFFFFFF) } else s)
    else if inBlk o 0x20000 128 then
      let n := (o - 0x20000) / 16
      let e := tget (0, 0) d.exports n
      some (s.setDie site { d with exports := tset d.exports n (if o % 16 == 0 then (mergeW e.1 val mask, e.2) else (e.1, mergeW e.2 val mask)) })
    else if inBlk o 0x30000 0x1000 then
      let n := (o - 0x30000) / 64
      let r := tget (0, 0, 0, 0) d.rings n
      let r' := match (o - 0x30000) % 64 / 8 with
        | 0 => (mergeW r.1 val mask, r.2)
        | 1 => (r.1, mergeW r.2.1 val mask &&& 0x701F, r.2.2)
        | 2 => (r.1, r.2.1, mergeW r.2.2.1 val mask, r.2.2.2)
        | 3 => (r.1, r.2.1, r.2.2.1, mergeW r.2.2.2 val mask)
        | _ => r
      some (s.setDie site { d with rings := tset d.rings n r' })
    else if inBlk o 0x40000 0x1000 then
      let n := (o - 0x40000) / 16
      let sh := 64 * (o % 16 / 8)
      let m : W128 := mask.setWidth 128 <<< sh
      some (s.setDie site { d with groups := tset d.groups n (((tget 0 d.groups n &&& ~~~m) ||| ((val.setWidth 128 <<< sh) &&& m)) &&& groupMask) })
    else none
  | _ => none

/-- The bytes of a word as a table from a first number on, those that the mask names replaced. -/
def byteTab (t : Tab Byte) (n : Nat) (val mask : W64) : Tab Byte :=
  (List.range 8).foldl (fun t k =>
    if (mask >>> (8 * k)).getLsbD 0 && decide (n + k < 60) then tset t (n + k) ((val >>> (8 * k)).setWidth 8 &&& 0x8F) else t) t

/-- A write to a register that every die has (R399, R309: LKCFG is read-only but for LOCK's own setting while LOCK is set). -/
def State.commonWrite (s : State) (site o : Nat) (val mask : W64) : Option State :=
  let d := s.die site
  if inBlk o 0xF00000 0x300 then
    let p := (o - 0xF00000) / 64
    let l := tget Link.reset d.links p
    some (if o % 64 == 0 && !l.lkcfg.getLsbD 2 then
      s.setDie site { d with links := tset d.links p { l with lkcfg := (mergeW (l.lkcfg.setWidth 64) val mask).setWidth 32 &&& 7 } }
      else s)
  else if o == 0xF10000 then some (s.setDie site { d with atb := mergeW d.atb val mask })
  else if inBlk o 0xF10100 256 then
    let f := (o - 0xF10100) / 32
    let e := s.winEnt site f
    some (match (o - 0xF10100) % 32 / 8 with
      | 0 => s.setDie site { d with window := tset d.window f (mergeW e.1 val mask, e.2) }
      | 1 => s.setDie site { d with window := tset d.window f (e.1, ((mergeW (e.2.setWidth 64 <<< 8) val mask) >>> 8).setWidth 24) }
      | _ => s)
  else if inBlk o 0xF10200 64 then some (s.setDie site { d with routes := byteTab d.routes (o - 0xF10200) val mask })
  else none

/-- A word of a site's window written. -/
def State.winWrite (s : State) (site o : Nat) (val mask : W64) : Option State :=
  match s.commonWrite site o val mask with
  | some t => some t
  | none => if Config.kindAt site == .drv then s.drvWrite (Config.siteDrv site) o val mask else s.kindWrite site o val mask

/-- Bytes written to the MMIO space by a firmware core of drover `d` (R399): none where the write fails. -/
def State.mmioWrite (s : State) (d off : Nat) (data : List Byte) : Option State :=
  match mmioSite d off with
  | none => none
  | some (site, o) =>
    if !s.siteThere d site || (inBlk o 0xF10200 64 && decide (0xF1023C < o + data.length)) then none
    else
      let sh := 8 * (o % 8)
      let val : W64 := BitVec.ofNat 64 (leNat data) <<< sh
      let mask : W64 := BitVec.ofNat 64 (2 ^ (8 * data.length) - 1) <<< sh
      s.winWrite site (o / 8 * 8) val mask

/-! ### SWAIT causes and kick words (R411, R412, R424, R425, R462) -/

/-- The drover die of a DROVER core. -/
def coreDrv (c : CoreId) : Nat := Config.siteDrv c.site

/-- Whether a pending bit selects a core: its QCB's fold has its bit in PENDSEL (R425). -/
def pendFor (d : Drover) (sel : W32) (q : Nat) : Bool :=
  tget false d.pend q && sel.getLsbD (tget Qcb.reset d.qcbs q).fold.toNat

/-- The lowest pending QCB of a fold that PENDSEL selects (R424, R425). -/
def lowPend (d : Drover) (sel : W32) : Option Nat := (d.pend.find? fun e => pendFor d sel e.1).map (·.1)

/-- The cores of a drover die that hold in `SWAIT`, with the time since which each has waited. -/
def State.swaiters (s : State) (d : Nat) : List (CoreId × CoreSt × Swait) :=
  (List.range 16).filterMap fun k =>
    let c : CoreId := ⟨Config.drvSite d, k⟩
    match (s.core c).swait with
    | some w => if w.woken then none else some (c, s.core c, w)
    | none => none

/-- The one core that a cause wakes: among those that select it, the one that has waited longest (R424). -/
def State.wake (s : State) (d : Nat) (sel : CoreSt → Swait → Bool) : State :=
  let l := (s.swaiters d).filter fun e => sel e.2.1 e.2.2
  match l.foldl (fun (m : Option (CoreId × CoreSt × Swait)) e => match m with
      | some b => if e.2.2.start < b.2.2.start then some e else some b
      | none => some e) none with
  | some (c, k, w) => s.setCore c { k with swait := some { w with woken := true } }
  | none => s

/-- A pending bit set, with the signal PEND (R411, R424, R425). -/
def State.raisePend (s : State) (d q : Nat) : State :=
  let v := s.drv d
  let f := (tget Qcb.reset v.qcbs q).fold.toNat
  let s1 := s.setDrv d { v with pend := tset v.pend q true }
  if tget false v.pend q then s1 else s1.wake d fun k w => bit w.mask 0 && k.pendsel.getLsbD f

/-- A kick of a queue (R411, R412): ignored where it carries another fold than the QCB's. -/
def State.kickQueue (s : State) (d q : Nat) (fold : Option Nat) : State :=
  let v := s.drv d
  let b := tget Qcb.reset v.qcbs q
  if (match fold with | some f => f != b.fold.toNat | none => false) then s
  else match b.st.toNat with
    | 0 => s
    | 2 =>
      let k := tget HwSlot.reset v.slots b.slot.toNat
      if k.st == .serving then
        s.setDrv d { v with slots := tset v.slots b.slot.toNat { k with look := true, kicked := v.kickSeq }, kickSeq := v.kickSeq + 1 }
      else s.raisePend d q
    | _ => s.raisePend d q

/-- Whether a physical address lies in the kick words of the queues and rings. -/
def isKick (pa : Nat) : Bool := decide (0xF00000000000 ≤ pa) && decide (pa < 0xF00000040000)

/-- The site of the die that holds a kick word: a drover die's queues, or a FAB die's rings (R411, R462). -/
def kickSite (pa : Nat) : Nat :=
  let d := (pa - 0xF00000000000) / 0x10000
  if d < 2 then Config.drvSite d else Config.fabSite (d - 2)

/-- FOLD of a ring's control block (R462). -/
def State.ringFold (s : State) (fab ring : Nat) : Nat := fieldW (tget (0, 0, 0, 0) (s.die (Config.fabSite (fab % 2))).rings (ring % 64)).2.1 14 12

/-- A store performed on a kick word (R411, R462): a queue's kick, or a ring that is to be examined; a kick of another fold than the ring's
is ignored, as a queue's is. -/
def State.kickStore (s : State) (w : Who) (pa : Nat) : State :=
  let o := pa - 0xF00000000000
  let d := o / 0x10000
  let q := o % 0x10000 / 8
  if d < 2 then (if q < 4096 then s.kickQueue d q w.fold else s)
  else if q < 64 && (match w.fold with | some f => f == s.ringFold (d - 2) q | none => true) then { s with agenda := s.agenda ++ [.step .collectiveKick { EvArg.zero with site := d - 2, n := q }] }
  else s

/-- A store of `n` bytes on kick words: each word that it touches is kicked, where a route leads to its die (R305, R411). -/
def State.kickRange (s : State) (w : Who) (pa n : Nat) (ea : W64) : Iss State := do
  need (s.twoWay w.c.site (kickSite pa)) .POISON ea 0
  .ok ((List.range ((pa % 8 + n + 7) / 8)).foldl (fun (u : State) k => u.kickStore w (pa / 8 * 8 + 8 * k)) s)

/-- A load of kick words: zeros (R411). -/
def State.kickRead (s : State) (w : Who) (pa n : Nat) (ea : W64) : Iss (List Byte × State) := do
  need (s.twoWay w.c.site (kickSite pa)) .POISON ea 0
  .ok (List.replicate n 0, s)

end Sys2Proof.Machine
end

