-- ==== Sys2Proof/Machine/Access.lean ====
section
/-! DEFINITION. Pointers, their checks, and the performing of loads, stores and atomics at their points (R134 to R138, R155, R156,
R350). -/

namespace Sys2Proof.Machine

/-- A checked address in its space, not yet translated (R134). -/
inductive Spot
  | dev (va : Nat)
  | loc (off : Nat)
  | csp (off : Nat)
  | dsp (off : Nat)
  | peer (n off : Nat)
  | host (addr : Nat)
  | mmio (off : Nat)
deriving DecidableEq, Repr

/-- The space tag of a pointer (R134). -/
def tagNum (p : W64) : Nat := (p >>> 60).toNat

/-- Bits 59 to 0 of a pointer. -/
def offOf (p : W64) : Nat := p.toNat % 2 ^ 60

/-- The entry of a peer in the peer table (R457). -/
def State.peerEnt (s : State) (n : Nat) : W64 := tget 0 (s.die (Config.fabSite 0)).peers n

/-- Whether a team may use a peer number (R458). -/
def State.peerOk (s : State) (w : Who) (n : Nat) : Bool :=
  let e := s.peerEnt n
  e.getLsbD 63 && (match w.fold with | some f => fieldW e 58 56 == f | none => true)
  && n != (s.die (Config.fabSite 0)).pkgid.toNat

/-- Step 1 of R135: the space of the base pointer. -/
def State.spaceOk (s : State) (w : Who) (base : W64) (pol : Nat) : Bool :=
  let k := Config.kindAt w.c.site
  match tagNum base with
  | 0 => true
  | 1 => pol == 0 && (decide (0 < Config.clusterCores k))
  | 2 => true
  | 3 => pol == 0 || pol == 3
  | 4 => pol == 0
  | 5 => pol == 0 && decide (0 < Config.dspSize k)
  | 6 => pol == 0
  | _ => false

/-- Step 3 of R135: the bits of ea that must be zero. -/
def mbzOk (ea : W64) : Bool :=
  match tagNum ea with
  | 0 => bits ea.toNat 59 52 == 0
  | 2 => bits ea.toNat 59 48 == 0
  | 4 => bits ea.toNat 59 57 == 0
  | 6 => bits ea.toNat 59 32 == 0
  | _ => true

/-- Step 3 of R135 with the entry of the peer that ea names (R458). -/
def State.eaOk (s : State) (w : Who) (ea : W64) : Bool := mbzOk ea && (tagNum ea != 3 || s.peerOk w (bits ea.toNat 59 48))

/-- Step 5 of R135: the limit of the space for a range. -/
def State.rangeOk (s : State) (w : Who) (ea : W64) (n : Nat) : Bool :=
  let k := Config.kindAt w.c.site
  match tagNum ea with
  | 0 => decide (offOf ea + n ≤ 2 ^ 52)
  | 1 => decide (offOf ea + n ≤ Config.cspSize k)
  | 2 => decide (offOf ea + n ≤ w.size)
  | 3 => decide (bits ea.toNat 47 0 + n ≤ fieldW (s.peerEnt (bits ea.toNat 59 48)) 31 0 * 65536)
  | 4 => decide (offOf ea + n ≤ 2 ^ 57)
  | 5 => decide (offOf ea + n ≤ Config.dspSize k)
  | _ => decide (offOf ea + n ≤ 2 ^ 32)

/-- The address in its space. On a CUB die a DSP offset names the cluster scratchpad's byte (R272). -/
def spotOf (w : Who) (ea : W64) : Spot :=
  match tagNum ea with
  | 0 => .dev (offOf ea)
  | 1 => .csp (offOf ea)
  | 2 => .loc (offOf ea)
  | 3 => .peer (bits ea.toNat 59 48) (bits ea.toNat 47 0)
  | 4 => .host (offOf ea)
  | 5 => if Config.kindAt w.c.site == .cub then .csp (offOf ea) else .dsp (offOf ea)
  | _ => .mmio (offOf ea)

/-- Steps 1 to 4 of R135. -/
def State.checkSpace (s : State) (w : Who) (base ea : W64) (pol : Nat) : Iss Unit := do
  need (s.spaceOk w base pol) .SPACE ea 0
  need (tagNum ea == tagNum base) .BOUNDS ea 0
  need (s.eaOk w ea) .SPACE ea 0
  need (tagNum ea != 6 || coreCls w.c == .drover) .PRIV ea 0

/-- The checks of R135 and R136 in order: `n` bytes, aligned to `al`. -/
def State.checkEa (s : State) (w : Who) (base ea : W64) (n al pol : Nat) : Iss Spot := do
  s.checkSpace w base ea pol
  need (ea.toNat % al == 0) .ALIGN ea 0
  need (s.rangeOk w ea n) .BOUNDS ea 0
  .ok (spotOf w ea)

/-- The level that governs an access of a DEV or LOC address (R138). -/
def polLvl (pol : Nat) (nc ms : Bool) : Lvl :=
  match pol with
  | 0 => if ms then .strm else if nc then .home else .l1
  | 1 => if nc then .home else .l1
  | 2 => if nc then .home else .l2
  | _ => .home

/-- Where an access of a checked address is performed, after translation (R134, R137 orders 5 and 6, R138). -/
def State.placeOf (s : State) (w : Who) (p : Spot) (n pol : Nat) (nd : Need) (ea : W64) : Iss (Place × State) :=
  match p with
  | .dev va => do
    let r ← s.translate w va n nd ea
    .ok (.mem r.1.pa (polLvl pol r.1.nc r.1.ms), r.2)
  | .loc off => .ok (.mem (w.loc + off) (polLvl pol false false), s)
  | .csp off => .ok (.csp w.c.site (clusterOf w.c) off, s)
  | .dsp off => .ok (.dsp w.c.site off, s)
  | .peer k off => .ok (.peer k off, s)
  | .host a => .ok (.host a, s)
  | .mmio off => .ok (.mmio off, s)

/-- Whether a host port is up (R455). -/
def State.hostUp (s : State) : Bool := tget true s.mgmt.hostUp 0 || tget true s.mgmt.hostUp 1

/-- The drover die by whose host port a requester's HOST accesses leave (R450, R455): the one that HPSEL names for its fold, the other one
where that port is down; a firmware core's own die, for which the manual names none (log 46). None where both ports are down. -/
def State.hostDie (s : State) (w : Who) : Option Nat :=
  let d := match w.fold with
    | some f => if s.timeDrv == 1 then 1 else b2n (s.mgmt.hpsel.getLsbD f)
    | none => w.drv
  if tget true s.mgmt.hostUp d then some d else if tget true s.mgmt.hostUp (1 - d) then some (1 - d) else none

/-- A HOST access on its way (R305, R455): its port, a route to that port's die, and the host's answer. -/
def State.hostWay (s : State) (w : Who) (ea : W64) : Iss Unit :=
  match s.hostDie w with
  | none => flt .FAR_TIMEOUT ea 2
  | some d => if s.twoWay w.c.site (Config.drvSite d) then s.lapsed 1 ea else flt .POISON ea 0

/-- A PEER access on its way (R305, R458, R461): a port of the entry's PORTS, on a FAB die that a route leads to, and the peer's answer. A
request that has no port toward its destination is dropped. -/
def State.peerWay (s : State) (w : Who) (k : Nat) (ea : W64) : Iss Unit :=
  let ports := (List.range 16).filter fun p => bit (fieldW (s.peerEnt k) 47 32) p
  if ports.isEmpty then flt .FAR_TIMEOUT ea 2
  else if ports.any fun p => s.twoWay w.c.site (Config.fabSite (p / 8)) then s.lapsed 2 ea else flt .POISON ea 0

/-- An MMIO access on its way: a route to the die whose window it names (R305, R399). -/
def State.mmioWay (s : State) (w : Who) (off : Nat) (ea : W64) : Iss Unit :=
  need (match mmioSite w.drv off with | some x => s.twoWay w.c.site x.1 | none => true) .POISON ea 0

/-- The bytes of a range that lie in the first line of it. -/
def firstPart (pa n : Nat) : Nat := min n (64 - pa % 64)

/-- Bytes read from lines at a level, line by line (R351); `k` bounds the lines. -/
def State.readLines (s : State) (w : Who) (lvl : Lvl) (pa n : Nat) (ea : W64) : Nat → Iss (List Byte × State)
  | 0 => .ok ([], s)
  | k + 1 =>
    if n == 0 then .ok ([], s)
    else do
      let m := firstPart pa n
      let r ← if isKick pa then s.kickRead w pa m ea
              else if s.tierLvl pa lvl == .l1 then s.l1Read w (s.forward pa) m ea
              else (s.l1Beyond w (s.forward pa / 64)).bind fun u => u.cohRead w (s.tierLvl pa lvl) pa m ea
      let q ← r.2.readLines w lvl (pa + m) (n - m) ea k
      .ok (r.1 ++ q.1, q.2)

/-- Bytes written to lines at a level, line by line; a store to a kick word is a kick (R411). -/
def State.writeLines (s : State) (w : Who) (lvl : Lvl) (pa : Nat) (data : List Byte) (ea : W64) : Nat → Iss State
  | 0 => .ok s
  | k + 1 =>
    if data.isEmpty then .ok s
    else do
      let m := firstPart pa data.length
      let t ← if isKick pa then s.kickRange w pa m ea
              else if s.tierLvl pa lvl == .l1 then s.l1Write w (s.forward pa) (data.take m) ea
              else s.writePast w (s.tierLvl pa lvl) (s.forward pa) (data.take m) ea
      t.writeLines w lvl (pa + m) (data.drop m) ea k

/-- A load performed (R350, R351). -/
def State.doLoad (s : State) (w : Who) (p : Place) (n : Nat) (ea : W64) : Iss (List Byte × State) :=
  match p with
  | .mem pa lvl => s.readLines w lvl pa n ea (n / 64 + 2)
  | .csp st cl off => (s.cspRead st cl off n ea).map fun b => (b, s)
  | .dsp st off => (s.dspRead st off n ea).map fun b => (b, s)
  | .peer k off => (s.peerWay w k ea).map fun _ => (cread (tget [] s.peerMem k) off n, s)
  | .host a => (s.hostWay w ea).map fun _ => (cread s.hostMem a n, s)
  | .mmio off => do
    s.mmioWay w off ea
    match s.mmioRead w.drv off n with
    | some r => .ok r
    | none => flt .POISON ea 0

/-- A store performed (R350, R352). -/
def State.doStore (s : State) (w : Who) (p : Place) (data : List Byte) (ea : W64) : Iss State :=
  match p with
  | .mem pa lvl => s.writeLines w lvl pa data ea (data.length / 64 + 2)
  | .csp st cl off => .ok (s.cspWrite st cl off data)
  | .dsp st off => .ok (s.dspWrite st off data)
  | .peer k off => (s.peerWay w k ea).map fun _ => { s with peerMem := tset s.peerMem k (cwrite (tget [] s.peerMem k) off data) }
  | .host a => (s.hostWay w ea).map fun _ => { s with hostMem := cwrite s.hostMem a data }
  | .mmio off => do
    s.mmioWay w off ea
    match s.mmioWrite w.drv off data with
    | some t => .ok t
    | none => flt .POISON ea 0

/-! ### Atomics (R155, R156) -/

/-- The new value of an integer atomic of `n` bits by FN (R155). -/
def amoInt (n fn old op : Nat) : Nat :=
  match fn with
  | 0 => (old + op) % 2 ^ n
  | 1 => old &&& op
  | 2 => old ||| op
  | 3 => old ^^^ op
  | 4 => if sextNat n old ≤ sextNat n op then old else op
  | 5 => if sextNat n old ≤ sextNat n op then op else old
  | 6 => min old op
  | _ => max old op

/-- A sum of two BF16 codes, rounded to nearest with ties to even (R155). -/
def bf16Add (a b : Nat) : Nat := ffEncode fBF16 0 false (addN 0 (ffDecode fBF16 a) (ffDecode fBF16 b))

/-- The new value of a floating atomic by FN (R155). -/
def amoFloat (fn old op : Nat) : Nat :=
  let a := ffDecode fFP32 old
  let b := ffDecode fFP32 op
  match fn with
  | 0 => ffEncode fFP32 0 false (addN 0 a b)
  | 1 => bf16Add (old % 65536) (op % 65536) + 65536 * bf16Add (old / 65536) (op / 65536)
  | 2 => ffEncode fFP32 0 false (maxN a b)
  | _ => ffEncode fFP32 0 false (minN a b)

/-- The size of an atomic (R155). -/
def atomSize : AtomOp → Nat
  | .amo _ => 8
  | .cas => 8
  | _ => 4

/-- The new value of an atomic from the old value, the operand and the expected value (R155). -/
def atomNew (op : AtomOp) (old : Nat) (operand expected : W64) : Nat :=
  match op with
  | .amo f => amoInt 64 f.toNat old operand.toNat
  | .amow f => amoInt 32 f.toNat old (operand.toNat % 2 ^ 32)
  | .cas => if old == expected.toNat then operand.toNat else old
  | .casw => if old == expected.toNat % 2 ^ 32 then operand.toNat % 2 ^ 32 else old
  | .amof f => amoFloat f.toNat old (operand.toNat % 2 ^ 32)

/-- Whether an atomic is allowed in a space (R156). -/
def atomAllowed (op : AtomOp) (tag : Nat) : Bool :=
  match tag with
  | 4 => match op with
    | .amo f => f == 0
    | .amow f => f == 0
    | .cas => true
    | .casw => true
    | .amof _ => false
  | 6 => false
  | _ => true

/-- The value an atomic returns (R155). -/
def atomRet (op : AtomOp) (old : Nat) : W64 :=
  match op with
  | .amow _ => w64 (sextNat 32 old)
  | .casw => w64 (sextNat 32 old)
  | _ => BitVec.ofNat 64 old

/-- An atomic performed in one step: the old value, and the state with the new one (R155, R156, R297). -/
def State.doAtomic (s : State) (w : Who) (p : Place) (op : AtomOp) (operand expected ea : W64) : Iss (Nat × State) := do
  let n := atomSize op
  let r ← s.doLoad w p n ea
  let old := leNat r.1
  let t ← r.2.doStore w p (leBytes n (atomNew op old operand expected)) ea
  .ok (old, t)

/-- The level at which a DEV atomic is performed (R156): never the L1. -/
def atomPlace (p : Spot) (q : Place) : Place :=
  match p, q with
  | .dev _, .mem pa .l1 => .mem pa .l2
  | _, _ => q

end Sys2Proof.Machine
end

