-- ==== Sys2Proof/Machine/Ops.lean ====
section
/-! DEFINITION. The named operations that every word is written with: the running strand, its registers, latches, queues and
branch outcomes, loops, the store and load queues, retirement, and taking an exception with the return from one. -/

namespace Sys2Proof.Machine

/-! ### The running strand -/

/-- The team of the core whose turn it is. -/
def State.tm (s : State) : TeamSt := s.team s.cur

/-- The state with the running team changed. -/
def State.setTm (s : State) (t : TeamSt) : State := s.setTeam s.cur t

/-- The strand whose turn it is. -/
def State.st (s : State) : StrandSt := s.tm.str s.strand

/-- The state with the running strand changed. -/
def State.setSt (s : State) (v : StrandSt) : State := s.setTm (s.tm.setStr s.strand v)

/-- The engine class of the running core. -/
def State.cls (s : State) : Cls := coreCls s.cur

/-- The requester that the running strand is. -/
def State.me (s : State) : Who := s.who s.cur

/-- Whether a class has the vector half (R49). -/
def vecCls : Cls → Bool
  | .vec => true
  | .sparse => true
  | .sort => true
  | _ => false

/-- Whether a class is MEM or DROVER (R48). -/
def memDrv : Cls → Bool
  | .mem => true
  | .drover => true
  | _ => false

/-- Whether the running strand is an X strand with vector results (R20, R23). -/
def State.vecX (s : State) : Bool := s.strand == .X && vecCls s.cls

/-- Whether the running strand is the X strand of a CUBE core, which has no numbered registers (R100). -/
def State.cubeX (s : State) : Bool := s.strand == .X && s.cls == .cube

/-- The lanes of the running core (R193). -/
def State.lanes (s : State) : Nat := Config.lanes s.cls

/-- Whether a strand executes words of a tag (R12, R14). -/
def tagRuns : Tag → Strand → Bool
  | .W, _ => true
  | .C, .C => true
  | .A, .A => true
  | .X, .X => true
  | _, _ => false

/-- The number of a strand in records (R192, R414). -/
def strandNum : Strand → Nat
  | .C => 0
  | .A => 1
  | .X => 2

/-! ### Registers, predicates and latches (R20 to R24, R100) -/

/-- Lanes held in a table: an unlisted register is zero. -/
def laneVec (n : Nat) (l : List W32) : List W32 := if l.isEmpty then List.replicate n 0 else l

/-- A numbered register read as lanes. -/
def State.vreg (s : State) (k : Nat) : List W32 := laneVec s.lanes (tget [] s.tm.vregs k)

/-- A numbered register read as a 64-bit scalar: lanes 1 and 0 of a v register (R100). -/
def State.reg (s : State) (k : Nat) : W64 :=
  if s.vecX then lanes64 (tget [] s.tm.vregs k) else tget 0 s.st.regs k

/-- A numbered register written with lanes. -/
def State.setVreg (s : State) (k : Nat) (v : List W32) : State := s.setTm { s.tm with vregs := tset s.tm.vregs k v }

/-- A numbered register written with a 64-bit scalar: on a v register, lanes 1 and 0, and zero in every other lane (R100). -/
def State.setReg (s : State) (k : Nat) (v : W64) : State :=
  if s.vecX then s.setVreg k (scalarLanes s.lanes v) else s.setSt { s.st with regs := tset s.st.regs k v }

/-- A predicate of the running strand (R21): c7 is true. -/
def State.pred (s : State) (k : Nat) : Bool := k == 7 || s.st.preds.getLsbD k

/-- The byte of predicates that software sees: bit 7 is 1 (R112). -/
def State.predByte (s : State) : BitVec 8 := s.st.preds ||| 0x80

/-- Bit `k` of a bit vector made `b`. -/
def setBit {n : Nat} (v : BitVec n) (k : Nat) (b : Bool) : BitVec n :=
  if b then v ||| BitVec.ofNat n (2 ^ k) else v &&& ~~~BitVec.ofNat n (2 ^ k)

/-- A predicate written; a write of c7 is discarded (R21). -/
def State.setPred (s : State) (k : Nat) (b : Bool) : State :=
  if k == 7 then s else s.setSt { s.st with preds := setBit s.st.preds k b }

/-- Latch y(k+1) read as lanes. -/
def State.vlatch (s : State) (k : Nat) : List W32 := laneVec s.lanes (s.tm.vlat.getD k [])

/-- Latch y(k+1) read as a 64-bit scalar (R100). -/
def State.latch (s : State) (k : Nat) : W64 := if s.vecX then lanes64 (s.tm.vlat.getD k []) else s.st.lat.getD k 0

/-- The latches shifted, with lanes entering y1 (R23). -/
def State.pushVlat (s : State) (v : List W32) : State := s.setTm { s.tm with vlat := v :: s.tm.vlat.take 7 }

/-- The latches shifted, with a 64-bit result entering y1 (R23). -/
def State.pushLat (s : State) (v : W64) : State :=
  if s.vecX then s.pushVlat (scalarLanes s.lanes v) else s.setSt { s.st with lat := v :: s.st.lat.take 7 }

/-! ### Loops and text (R13, R16, R121 to R124) -/

/-- The loop instance that is innermost in a strand: that of the loop opened last, 0 for none (R124). -/
def markOf (st : StrandSt) : Nat :=
  match st.loops with
  | [] => 0
  | l :: _ => l.inst

/-- The loop of a level, where it is open. -/
def loopAt (st : StrandSt) (lv : Nat) : Option Loop := st.loops.find? fun l => l.lv == lv

/-- Whether a word lies in a loop's body. -/
def inBody (l : Loop) (n : Nat) : Bool := decide (l.start ≤ n) && decide (n ≤ l.last)

/-- The tag of a text word (R12). -/
def wordTag (w : W32) : Tag :=
  match (w >>> 30).toNat with
  | 0 => .C
  | 1 => .A
  | 2 => .X
  | _ => .W

/-- The next word at or after `p` that C executes: a word beyond the listed ones is `c.nop` (R13, R15, R179). -/
def nextC : Tab W32 → Nat → Nat
  | [], p => p
  | (i, w) :: t, p =>
    if i < p then nextC t p
    else if p < i then p
    else if tagRuns (wordTag w) .C then p else nextC t (p + 1)

/-- The next word at or after `p` that A or X executes. -/
def nextAX (σ : Strand) : Tab W32 → Nat → Option Nat
  | [], _ => none
  | (i, w) :: t, p => if decide (p ≤ i) && tagRuns (wordTag w) σ then some i else nextAX σ t p

/-- The next word of the text that a strand executes, from word `p` on; none beyond word 16383 (R13, R15). -/
def nextWord (text : Tab W32) (σ : Strand) (p : Nat) : Option Nat :=
  match σ with
  | .C => if nextC text p < 16384 then some (nextC text p) else none
  | _ => if p < 16384 then nextAX σ text p else none

/-- The text of a core's active plane. -/
def State.text (s : State) (c : CoreId) : Tab W32 := (s.core c).active.text

/-- The span number of a word (R16): the W-tagged words at lower addresses. -/
def spanNo (text : Tab W32) (n : Nat) : Nat := (text.filter fun e => decide (e.1 < n) && (wordTag e.2 == .W)).length

/-- Of loops, the newest first, the one whose last word comes first in the text; of several with that last word, the newest (R122). -/
def firstEnd : List Loop → Option Loop
  | [] => none
  | l :: t => match firstEnd t with
    | some m => if m.last < l.last then some m else some l
    | none => some l

/-- The open loop whose end a strand has reached (R122): the next word in sequential flow, skipped words included, lies beyond the last word
of a body that the flow came from or passes through. Of several, the one whose last word the flow passes first. -/
def endedLoop (text : Tab W32) (σ : Strand) (st : StrandSt) : Option Loop :=
  let next := nextWord text σ st.pc
  firstEnd (st.loops.filter fun l => (match next with | some n => decide (l.last < n) | none => true) &&
    (decide (st.pc ≤ l.last) || (match st.org with | some n => inBody l n | none => false)))

/-- Whether a strand's next word is word `n`, no loop end before it. -/
def State.standsAt (s : State) (c : CoreId) (σ : Strand) (n : Nat) : Bool :=
  let st := (s.team c).str σ
  !st.exited && (endedLoop (s.text c) σ st).isNone && nextWord (s.text c) σ st.pc == some n

/-! ### Slip (R18, R19) -/

/-- Whether a strand of a team may pass a span boundary (R19). -/
def slipFree (t : TeamSt) : Strand → Bool
  | .C => decide (t.c.span + 1 ≤ t.a.span + t.slip) && decide (t.c.span + 1 ≤ t.x.span + t.slip)
  | .A => decide (t.a.span + 1 ≤ t.x.span + t.slip) && decide (t.a.span + 1 ≤ t.c.span)
  | .X => decide (t.x.span + 1 ≤ t.a.span)

/-! ### Queues (R28, R30, R31, R33) -/

/-- The named queues of 64-bit entries (R30). -/
inductive QName
  | ca | cx | xc | ac
deriving DecidableEq, Repr

/-- The entries of a named queue. -/
def TeamSt.q (t : TeamSt) : QName → List QEnt
  | .ca => t.ca
  | .cx => t.cx
  | .xc => t.xc
  | .ac => t.ac

/-- A team with the entries of a named queue changed. -/
def TeamSt.setQ (t : TeamSt) (k : QName) (l : List QEnt) : TeamSt :=
  match k with
  | .ca => { t with ca := l }
  | .cx => { t with cx := l }
  | .xc => { t with xc := l }
  | .ac => { t with ac := l }

/-- The strand that pushes a named queue (R30). -/
def QName.producer : QName → Strand
  | .ca => .C
  | .cx => .C
  | .xc => .X
  | .ac => .A

/-- The strand that pops a named queue (R30). -/
def QName.consumer : QName → Strand
  | .ca => .A
  | .cx => .X
  | .xc => .C
  | .ac => .C

/-- The named queue of a number (R128). -/
def qOfNum : Nat → Option QName
  | 0 => some .ca
  | 1 => some .cx
  | 2 => some .xc
  | 3 => some .ac
  | _ => none

/-- Whether a copy with completion action FN 1 is outstanding (R151). -/
def ticketsDue (t : TeamSt) : Bool := !t.tickets.isEmpty || t.board.any fun e => e.2.fn == 1

/-- Whether no entry can come into an empty named queue any more (R31, R151). -/
def qGone (t : TeamSt) (k : QName) : Bool :=
  (t.str k.producer).exited && !(k == .xc && ticketsDue t)

/-- How many loads wait in the load queue (R139). -/
def lqLoads (t : TeamSt) : Nat := (t.lq.filter fun e => match e with | .load .. => true | .marker .. => false).length

/-- Whether no entry can come into an empty `dq` any more. -/
def dqGone (t : TeamSt) : Bool := t.a.exited && lqLoads t == 0

/-- Held while the entries are too few, a fault where none can come (R26, R31). -/
def popCheck (have_ need_ : Nat) (gone : Bool) : Iss Unit :=
  if need_ ≤ have_ then .ok () else if gone then flt .QUEUE 0 0 else hold

/-- A push that a strand makes within a loop instance which its consumer has broken off is discarded on arrival (R124). The instance is the
innermost one at the push: what was pushed within an inner loop that has ended by its count is marked outside the closing instances and is
kept (log 36, DEDUCED). -/
def pushDead (t : TeamSt) (from_ tgt : Strand) : Bool :=
  (t.str tgt).dead.contains (markOf (t.str from_)) && markOf (t.str from_) != 0

/-- The check of a push to a named queue (R31, R124). A push that its consumer's break discards on arrival needs no room and no consumer
(log 36, DEDUCED). -/
def pushCheck (t : TeamSt) (k : QName) : Iss Unit :=
  if pushDead t k.producer k.consumer then .ok ()
  else if (t.str k.consumer).exited then flt .QUEUE 0 0
  else if (t.q k).length < 16 then .ok () else hold

/-- A value pushed to a named queue with its loop mark (R30, R124). -/
def TeamSt.pushQ (t : TeamSt) (k : QName) (v : W64) : TeamSt :=
  if pushDead t k.producer k.consumer then t
  else t.setQ k (t.q k ++ [{ val := v, mark := markOf (t.str k.producer) }])

/-- The entries of `sdq` that a claim still takes (R143, R221). -/
def claimNeeds : Claim → Nat
  | .store _ => 1
  | .port _ n => n

/-- Whether a claim waits for a datum that has not arrived: the claims take more entries than `sdq` holds (R31, R221). -/
def claimOpen (t : TeamSt) : Bool := decide (t.sdq.length < (t.claims.map claimNeeds).foldl (· + ·) 0)

/-- The check of a push to `sdq` (R31). -/
def sdqCheck (t : TeamSt) : Iss Unit :=
  if pushDead t .X .A then .ok ()
  else if t.a.exited && !claimOpen t then flt .QUEUE 0 0
  else if t.sdq.length < 32 then .ok () else hold

/-- The check of a push to `dq`, counting the loads that will come (R28, R31). -/
def dqCheck (t : TeamSt) : Iss Unit :=
  if pushDead t .A .X then .ok ()
  else if t.x.exited then flt .QUEUE 0 0
  else if t.dq.length + lqLoads t < 64 then .ok () else hold

/-- Data given to the store of a number that waits for it (R143). -/
def giveStore (l : List StoreEnt) (id : Nat) (lanes : List W32) : List StoreEnt :=
  l.map fun e => if e.id == id then { e with data := some ((laneBytes lanes).take e.size) } else e

/-- `sdq` entries handed to the store claims at the head (R221); a write port takes its own entries one by one. The bound is the
number of claims. -/
def feedClaims : Nat → TeamSt → TeamSt
  | 0, t => t
  | n + 1, t =>
    match t.claims with
    | [] => t
    | .port p k :: rest => if k == 0 then feedClaims n { t with claims := rest } else { t with claims := .port p k :: rest }
    | .store id :: rest =>
      match t.sdq with
      | [] => t
      | e :: q => feedClaims n { t with claims := rest, sdq := q, sq := giveStore t.sq id e.lanes }

/-- A team whose claims have taken what `sdq` holds. -/
def TeamSt.feed (t : TeamSt) : TeamSt := feedClaims t.claims.length t

/-- Lanes pushed to `sdq` by X (R28, R30). -/
def TeamSt.pushSdq (t : TeamSt) (l : List W32) : TeamSt :=
  if pushDead t .X .A then t else ({ t with sdq := t.sdq ++ [{ lanes := l, mark := markOf t.x }] } : TeamSt).feed

/-- An entry put into `dq`, or discarded on arrival with its locks released (R124, R182). -/
def State.pushDq (s : State) (w : Who) (e : DqEnt) : State :=
  let t := s.team w.c
  if t.x.dead.contains e.mark && e.mark != 0 then s.l1UnlockAll w e.locks
  else s.setTeam w.c { t with dq := t.dq ++ [e] }

/-- A branch outcome pushed by C (R31, R33); a consumer that has retired `EXIT` makes it a fault (log 37). -/
def State.pushBq (s : State) (v : BqVal) : Iss State :=
  let t := s.tm
  if t.a.exited || t.x.exited then flt .QUEUE 0 0
  else if t.bq.length < 32 then .ok (s.setTm { t with bq := t.bq ++ [{ val := v, popA := false, popX := false }] }) else hold

/-- The first outcome that a strand has not popped, and the entries with it popped; one popped by both is freed (R33). -/
def takeBq (σ : Strand) : List BqEnt → Option (BqVal × List BqEnt)
  | [] => none
  | e :: t =>
    let mine := match σ with | .A => e.popA | _ => e.popX
    if mine then (takeBq σ t).map fun r => (r.1, e :: r.2)
    else
      let e' : BqEnt := match σ with | .A => { e with popA := true } | _ => { e with popX := true }
      some (e.val, if e'.popA && e'.popX then t else e' :: t)

/-- A branch outcome popped by A or X (R31, R33). -/
def State.popBq (s : State) : Iss (BqVal × State) :=
  match takeBq s.strand s.tm.bq with
  | some (v, l) => .ok (v, s.setTm { s.tm with bq := l })
  | none => if s.tm.c.exited then flt .QUEUE 0 0 else hold

/-! ### Records and faults (R36, R37, R192, R414, R498) -/

/-- The fault record of a strand of a team on a core (R414); strand 3 is none. -/
def State.recordOf (s : State) (c : CoreId) (t : TeamSt) (strand pc : Nat) (f : Flt) : Record :=
  let who : W32 × W32 := match t.id with
    | some i => (BitVec.ofNat 32 (i.drv * 2 ^ 31 + i.slot), BitVec.ofNat 32 i.inst)
    | none => (0xFFFFFFFF, 0xFFFFFFFF)
  { addr := f.addr, node := who.1, inst := who.2, time := (s.nsAt c.site).toNat % 2 ^ 48, code := f.code, strand := strand, site := c.site,
    core := c.core, pc := pc % 16384, held := false, susp := true, aux := f.aux % 2 ^ 40, handle := none }

/-- The fault record of a strand of a core's team (R414). -/
def State.record (s : State) (c : CoreId) (strand pc : Nat) (f : Flt) : Record := s.recordOf c (s.team c) strand pc f

/-- The drover whose fault queue a team's records go to: that of its node's graph (R416). -/
def droverOf (c : CoreId) (t : TeamSt) : Nat :=
  match t.id with
  | some i => i.drv
  | none => Config.siteDrv c.site

/-- The handle entries of a drover: 12 bits (R417). -/
def suspEntries : Nat := 4096

/-- A suspension that is not live any more. -/
def Susp.none : Susp := { gen := 0, live := false, copy := false, mayResume := false }

/-- A new suspension of a drover, with its entry (R417). -/
def Drover.suspend (d : Drover) (copy mayResume : Bool) : Nat × Drover :=
  let e := ((List.range suspEntries).find? fun k => !(tget Susp.none d.susps k).live).getD 0
  let g := (tget Susp.none d.susps e).gen
  (e, { d with susps := tset d.susps e { gen := if g + 1 < 65536 then g + 1 else 1, live := true, copy := copy, mayResume := mayResume } })

/-- The handle of a suspension (R417). -/
def Drover.handleNo (d : Drover) (e : Nat) : Nat := (tget Susp.none d.susps e).gen * 2 ^ 32 + e

/-- A record on its way to a drover's fault queue (R416). -/
def State.raiseRecord (s : State) (d : Nat) (r : Record) : State :=
  let v := s.drv d
  s.setDrv d { v with waitRec := v.waitRec ++ [r] }

/-- A failed store recorded in SERR and SERRA (R140). -/
def TeamSt.storeFailed (t : TeamSt) (σ : Strand) (pc : Nat) (code : Code) (ea : W64) : TeamSt :=
  if t.serr.getLsbD 31 then
    let n := bits t.serr.toNat 15 8
    { t with serr := (t.serr &&& 0xFFFF00FF) ||| (BitVec.ofNat 32 (min 255 (n + 1)) <<< 8) }
  else { t with serr := 0x80000100 ||| BitVec.ofNat 32 code.num, serra := ea, serrStrand := σ, serrPc := pc }

/-- A value of the manual that is left open: the model's free word, by a counter that each use advances. -/
def State.freshWord (s : State) : W64 × State := (Config.freeWord s.freeCtr, { s with freeCtr := s.freeCtr + 1 })

/-- A cause signalled to firmware (R311, R328, R348): a message in the mailbox of the drover die that holds the package's registers, with the
cause MBOX (R424, R441, log 45). -/
def State.tellFirmware (s : State) : State :=
  let r := s.freshWord
  let d := r.2.timeDrv
  let v := r.2.drv d
  (r.2.setDrv d { v with mbox := v.mbox ++ [r.1] }).wake d fun _ w => v.mbox.isEmpty && bit w.mask 3

/-- The pool of a die has no frame for a page that is asked for: the die signals firmware, once for each time that it runs dry (R328). -/
def State.poolDry (s : State) (site : Nat) : State :=
  let d := s.die site
  if d.short then s else (s.setDie site { d with short := true }).tellFirmware

/-- What an access that has to wait tells others of its wait (R328). -/
def State.waited (s : State) (h : Hold) : State :=
  match h with
  | .dry site => s.poolDry site
  | _ => s

/-- The state after part of an access, or, where that has to wait, the state before it with what its wait tells others (R328). -/
def State.orWaited (s : State) : Except Hold State → State
  | .ok u => u
  | .error h => s.waited h

/-- Where a queued access is performed: at its place, or, for one that was saved with its team, where its address is translated to now
(R304). -/
def State.placeNow (s : State) (w : Who) (p : Place) (ea : W64) (size : Nat) (nd : Need) (again : Bool) : Iss (Place × State) :=
  match p with
  | .mem _ lvl =>
    if again && tagNum ea == 0 then do
      let r ← s.translate w (offOf ea) size nd ea
      .ok (.mem r.1.pa (if r.1.nc then .home else lvl), r.2)
    else .ok (p, s)
  | _ => .ok (p, s)

/-- One store of the store queue performed at its point (R140, R350), or its datum added there (R173); a store that fails is recorded and
not performed. Else what it waits for. -/
def State.performEnt (s : State) (w : Who) (e : StoreEnt) (data : List Byte) : Except Hold State :=
  match (s.placeNow w e.place e.ea e.size (if e.add then .both else .write) e.again).bind fun p =>
      if e.add then (p.2.doAtomic w p.1 (.amo 0) (BitVec.ofNat 64 (leNat data)) 0 e.ea).map (·.2) else p.2.doStore w p.1 data e.ea with
  | .ok s1 => .ok s1
  | .error (.stall h) => .error h
  | .error (.fault f) =>
    let s1 := s.markBad f.bad
    .ok (s1.setTeam w.c ((s1.team w.c).storeFailed e.strand e.pc f.code e.ea))

/-- Whether a store has to wait for a load of its strand that issued before it: the queued loads are A's (R354, R355). -/
def loadFirst (t : TeamSt) (e : StoreEnt) : Bool :=
  e.strand == .A && t.lq.any fun x => match x with | .load _ _ _ _ _ _ _ id _ => decide (id < e.id) | .marker .. => false

/-- The store at the head of the store queue performed (R354), or what it waits for: its datum, an earlier load, or memory; none stands there
where the queue is empty. -/
def State.performStore (s : State) (c : CoreId) : Except Hold State :=
  let t := s.team c
  match t.sq with
  | [] => .error .none
  | e :: rest =>
    match e.data with
    | none => .error .stall
    | some d => if loadFirst t e then .error .stall else (s.setTeam c { t with sq := rest }).performEnt (s.who c) e d

/-- Stores of the store queue performed in queue order, up to a number (R36, R354): a store that waits for a datum of X holds those behind it
(R143). -/
def State.drainStores (s : State) (c : CoreId) : Nat → State
  | 0 => s
  | n + 1 =>
    match s.performStore c with
    | .ok s1 => s1.drainStores c n
    | .error h => s.waited h

/-- The kinds of wait that count toward WAITTH (R187). -/
def waitFe : Nat := 1
/-- A flock episode (R162). -/
def waitFlock : Nat := 2
/-- Device time (R131). -/
def waitTime : Nat := 3
/-- A copy of a ticket, or all copies (R153). -/
def waitCopy : Nat := 4
/-- A range of the scoreboard (R152). -/
def waitRange : Nat := 5
/-- A free entry of the scoreboard (R148). -/
def waitBoard : Nat := 6

/-- The numbers of the stores that a strand has in the store queue. -/
def strandStores (t : TeamSt) (σ : Strand) : List Nat := (t.sq.filter fun e => e.strand == σ).map (·.id)

/-- Whether one of the numbered stores is still in the store queue. -/
def anyStore (t : TeamSt) (ids : List Nat) : Bool := t.sq.any fun e => ids.contains e.id

/-- The lines of an access of `n` bytes. -/
def linesOf (pa n : Nat) : List Nat := (List.range (n / 64 + 2)).filterMap fun k =>
  if (pa / 64 + k) * 64 < pa + n then some (pa / 64 + k) else none

/-- Lines taken into the L1 and locked, one after another (R182): held where a set has no way left. A line of an access beyond the L1 is
filled anew, and a copy that a `dq` entry locks becomes stale (R356). -/
def State.lockLines (s : State) (w : Who) (lvl : Lvl) (brief : Bool) (ea : W64) : List Nat → Iss (List Nat × State)
  | [] => .ok ([], s)
  | line :: t => do
    let s0 ← if brief then s.l1Beyond w line else .ok s
    let r ← s0.l1Fill w line lvl brief ea
    match r.1 with
    | none => hold
    | some id =>
      let k := r.2.core w.c
      let s1 := r.2.setCore w.c { k with l1 := tmap (fun i l => if i == id then { l with locks := l.locks + 1 } else l) k.l1 }
      let q ← s1.lockLines w lvl brief ea t
      .ok (id :: q.1, q.2)

/-- The bytes of locked lines, in order. -/
def State.linesBytes (s : State) (c : CoreId) (ids : List Nat) : List Byte :=
  ids.flatMap fun id => match tget? (s.core c).l1 id with
    | some l => l.bytes
    | none => List.replicate 64 0

/-- The 64-bit value of `n` bytes that a load reads (R141). -/
def loadVal (signed : Bool) (bs : List Byte) : W64 :=
  if signed then w64 (sextNat (8 * bs.length) (leNat bs)) else BitVec.ofNat 64 (leNat bs)

/-- Whether a queued load takes its lines into the L1 and locks them (R182, R183): a vector load of memory, and a scalar one under `.l1`; kick
words are no memory (R411). -/
def State.locksLines (s : State) (p : Place) (vector : Bool) : Bool :=
  match p with
  | .mem pa lvl => !isKick pa && (vector || s.tierLvl pa lvl == .l1)
  | _ => false

/-- The lines that a queued load will lock, each with whether its copy leaves the L1 after its use: such a load takes a way of its own
(R182). -/
def State.lockedBy (s : State) (p : Place) (size : Nat) (vector : Bool) : List (Nat × Bool) :=
  match p with
  | .mem pa lvl => if s.locksLines p vector then (linesOf (s.forward pa) size).map fun l => (l, s.tierLvl pa lvl != .l1) else []
  | _ => []

/-- A queued load performed (R139, R182, R183): its `dq` entry without poison. -/
def State.queuedDatum (s : State) (w : Who) (p : Place) (ea : W64) (size : Nat) (signed vector : Bool) (mark : Nat) :
    Iss (DqEnt × State) :=
  if s.locksLines p vector then
    match p with
    | .mem pa pol => do
      let lvl := s.tierLvl pa pol
      let r ← s.lockLines w (if lvl == .l1 then .l2 else lvl) (lvl != .l1) ea (linesOf (s.forward pa) size)
      if vector then .ok ({ data := .lines r.1, locks := r.1, poison := none, mark := mark }, r.2)
      else do
        let b ← r.2.l1Read w (s.forward pa) size ea
        .ok ({ data := .scalar (loadVal signed b.1), locks := r.1, poison := none, mark := mark }, b.2)
    | _ => hold
  else do
    let r ← s.doLoad w p size ea
    .ok ({ data := if vector then .lanes (bytesLanes (size / 4) r.1) else .scalar (loadVal signed r.1), locks := [], poison := none,
           mark := mark }, r.2)

/-- The first queued load that A's markers let through, with what stands before and behind it (R126, R354). -/
def nextLoad (t : TeamSt) : List LqEnt → List LqEnt → Option (List LqEnt × LqEnt × List LqEnt)
  | _, [] => none
  | pre, .marker σ ids :: rest =>
    if !anyStore t ids then nextLoad t pre rest
    else if σ == .A then none
    else nextLoad t (pre ++ [.marker σ ids]) rest
  | pre, .load p ea size sg vec mark pc id ag :: rest => some (pre, .load p ea size sg vec mark pc id ag, rest)

/-- The `dq` entry of a queued load that failed (R32). -/
def poisoned (f : Flt) (mark : Nat) : DqEnt :=
  { data := .scalar 0, locks := [], poison := some { code := f.code, addr := f.addr, aux := f.aux }, mark := mark }

/-- A queued load performed where no lock is to outlive it: as its entry, or, while no way is left for its lines, as data read beyond the
L1 (R182, R184, log 69, DEDUCED). -/
def State.unlockedDatum (s : State) (w : Who) (p : Place) (ea : W64) (size : Nat) (signed vector : Bool) (mark : Nat) : Iss (DqEnt × State) :=
  match s.queuedDatum w p ea size signed vector mark, p with
  | .error (.stall _), .mem pa lvl => do
    let r ← s.doLoad w (.mem pa (if lvl == .l1 then .l2 else lvl)) size ea
    .ok ({ data := if vector then .lanes (bytesLanes (size / 4) r.1) else .scalar (loadVal signed r.1), locks := [], poison := none,
           mark := mark }, r.2)
  | x, _ => x

/-- The first load of the load queue performed (R139, R354); one that fails leaves a poison mark (R32). Else what it waits
for, if there is one. Where the core stops, or X has retired `EXIT`, no lock is to outlive it. -/
def State.performLoad (s : State) (c : CoreId) (stop : Bool) : Except Hold State :=
  let t := s.team c
  match nextLoad t [] t.lq with
  | some (pre, .load p ea size sg vec mark _ _ ag, rest) =>
    let w := s.who c
    let s0 := s.setTeam c { t with lq := pre ++ rest }
    let datum := if stop || t.x.exited then State.unlockedDatum else State.queuedDatum
    match (s0.placeNow w p ea size .read ag).bind fun q => datum q.2 w q.1 ea size sg vec mark with
    | .ok (e, s1) => .ok (s1.pushDq w e)
    | .error (.stall h) => .error h
    | .error (.fault f) =>
      let s1 := s0.markBad f.bad
      .ok (s1.pushDq w (poisoned f mark))
  | _ => .error .none

/-- Loads of the load queue performed in order, up to a number. -/
def State.drainLoads (s : State) (c : CoreId) (stop : Bool) : Nat → State
  | 0 => s
  | n + 1 =>
    match s.performLoad c stop with
    | .ok s1 => s1.drainLoads c stop n
    | .error h => s.waited h

/-- What a core performs of its queues (R36): loads in flight and stores in their order, as far as they can be. -/
def State.drainQueues (s : State) (c : CoreId) (stop : Bool) : Nat → State
  | 0 => s
  | n + 1 =>
    let s1 := s.drainLoads c stop (s.team c).lq.length
    (s1.drainStores c (s1.team c).sq.length).drainQueues c stop n

/-- The queues of a core drained, as it stops or while it runs on: each round performs a load that waited for a store, or is the last. -/
def State.drainCore (s : State) (c : CoreId) (stop : Bool) : State := s.drainQueues c stop ((s.team c).lq.length + 1)

/-- Whether a team's queues are drained as far as its own X lets them be (log 58): the store queue is empty or waits for a datum at its head,
and no queued load is left but those behind an `ALIGN` marker for such a store. -/
def queuesDone (t : TeamSt) : Bool :=
  (match t.sq with | [] => true | e :: _ => e.data.isNone) && (nextLoad t [] t.lq).isNone

/-- The stores that wait for a datum from `sdq` discarded, as a DROVER core stops (R498): X pushes none any more. -/
def State.dropAwaiting (s : State) (c : CoreId) : State :=
  let t := s.team c
  s.setTeam c { t with sq := t.sq.filter fun e => e.data.isSome, claims := [] }

/-- A DROVER core's queues drained as it stops (R36, R498). -/
def State.drainEntry (s : State) (c : CoreId) : State := (s.dropAwaiting c).drainCore c true

/-- The lock of every `dq` entry released. -/
def State.unlockDq (s : State) (c : CoreId) : State := s.l1UnlockAll (s.who c) ((s.team c).dq.flatMap (·.locks))

/-- Whether a range of `n` bytes at a pointer overlaps one that the scoreboard
records (R152). -/
def overlaps (a n b m : Nat) : Bool := decide (a < b + m) && decide (b < a + n)

/-- Whether an access of a range, or a `CPY` to that range from a source, overlaps a copy of the scoreboard so that it waits (R152). -/
def boardBusy (board : Tab CopyEnt) (ea : W64) (n : Nat) (src : Option W64) : Bool :=
  board.any fun e => overlaps ea.toNat n e.2.dst.toNat e.2.len || overlaps ea.toNat n e.2.src.toNat e.2.len ||
    (match src with | some v => overlaps v.toNat n e.2.dst.toNat e.2.len | none => false)

/-- A load, store or atomic that overlaps a range of the scoreboard waits (R152, R187). -/
def boardFree (t : TeamSt) (ea : W64) (n : Nat) : Iss Unit := if boardBusy t.board ea n none then rangeHold ea n none else .ok ()

/-- A strand at the start of an exception handler (R192, R498): the loop instances that the handler opens are numbered alike in the
three strands, from `seq` on (R124). One that has retired `EXIT` issues nothing there either (R132, log 80, DEDUCED). -/
def handlerStrand (vec seq : Nat) (st : StrandSt) : StrandSt :=
  { st with pc := vec, loops := [], link := [], org := none, hold := .none, feDone := none, dead := [], loopSeq := seq }

/-- The greatest number of a loop instance in a team's strands. -/
def maxSeq (t : TeamSt) : Nat := max t.c.loopSeq (max t.a.loopSeq t.x.loopSeq)

/-- Taking an exception on a DROVER core (R192, R498): stores with their data are performed and those awaiting `sdq` are
discarded, loads in flight complete, the queues and BQ are emptied and the `dq` locks released; EPC, ECAUSE and EADDR are written
and EXA set; loops, link stacks, loop instances and a pending end of a loop body are held aside; a `TLBI` that C waits at is begun anew when
C comes to it again (R176); and every strand goes on at EVEC. -/
def State.enterException (s : State) (c : CoreId) (σ : Strand) (pcE : Nat) (code : Code) (addr : W64) : State :=
  let s2 := (s.drainEntry c).unlockDq c
  let k := s2.core c
  let t := k.team
  let pcOf := fun τ => if τ == σ then pcE else (t.str τ).pc
  let v := k.evec.toNat
  let t' : TeamSt := { t with
    c := handlerStrand v (maxSeq t) t.c, a := handlerStrand v (maxSeq t) t.a, x := handlerStrand v (maxSeq t) t.x,
    ca := [], cx := [], xc := [], ac := [], dq := [], sdq := [], bq := [], lq := [], sq := [], scat := [], claims := [] }
  s2.setCore c { k with
    team := t',
    epc := packW [(pcOf .C % 65536, 0), (pcOf .A % 65536, 16), (pcOf .X % 65536, 32)],
    ecause := BitVec.ofNat 32 (2 ^ 31 + strandNum σ * 2 ^ 16 + code.num),
    eaddr := addr,
    asideL := [t.c.loops, t.a.loops, t.x.loops],
    asideS := [t.c.link, t.a.link, t.x.link],
    asideM := [(t.c.loopSeq, t.c.dead), (t.a.loopSeq, t.a.dead), (t.x.loopSeq, t.x.dead)],
    asideO := [(pcOf .C % 65536, t.c.org), (pcOf .A % 65536, t.a.org), (pcOf .X % 65536, t.x.org)],
    leave := none, swait := none, tlbi := none }

/-- A strand returned from its handler (R177, R498). A strand that comes back to the PC at which it was interrupted still stands at the end of
a loop body where it stood at one, and one that firmware sends elsewhere comes there by a transfer (log 59, DEDUCED). -/
def returnStrand (pc : Nat) (loops : List Loop) (link : List Nat) (m : Nat × List Nat) (o : Nat × Option Nat) (st : StrandSt) : StrandSt :=
  { st with pc := pc, loops := loops, link := link, loopSeq := m.1, dead := m.2, org := if pc == o.1 then o.2 else none, hold := .none }

/-- A team whose queued entries lie in no open loop any more, the loops of a handler having been discarded (R124, R498). -/
def unmarkAll (t : TeamSt) : TeamSt :=
  let q := fun (l : List QEnt) => l.map fun e => { e with mark := 0 }
  { t with
    ca := q t.ca, cx := q t.cx, xc := q t.xc, ac := q t.ac, dq := t.dq.map fun e => { e with mark := 0 },
    sdq := t.sdq.map fun e => { e with mark := 0 }, sq := t.sq.map fun e => { e with mark := 0 },
    lq := t.lq.map fun e => match e with
      | .load p ea n g v _ pc id ag => .load p ea n g v 0 pc id ag
      | .marker σ l => .marker σ l }

/-- The return from an exception (R177, R192, R498): the PCs come from EPC, the held loops and link stacks are restored, and
EXA is cleared. -/
def State.leaveException (s : State) (c : CoreId) : State :=
  let k := s.core c
  let t := unmarkAll k.team
  let pcOf := fun n => fieldW k.epc (16 * n + 15) (16 * n)
  let lo := fun n => k.asideL.getD n []
  let li := fun n => k.asideS.getD n []
  let mk := fun n => k.asideM.getD n (0, [])
  let og := fun n => k.asideO.getD n (0, none)
  s.setCore c { k with
    team := { t with c := returnStrand (pcOf 0) (lo 0) (li 0) (mk 0) (og 0) t.c, a := returnStrand (pcOf 1) (lo 1) (li 1) (mk 1) (og 1) t.a,
                     x := returnStrand (pcOf 2) (lo 2) (li 2) (mk 2) (og 2) t.x },
    ecause := k.ecause &&& 0x7FFFFFFF, asideL := [], asideS := [], asideM := [], asideO := [], swait := none, tlbi := none }

/-- Whether an exception is active on a core (R192). -/
def State.exa (s : State) (c : CoreId) : Bool := (s.core c).ecause.getLsbD 31

/-- A firmware core stopped (R175, R192): its store queue drains, and a store that waits for a datum gets none any more. -/
def State.haltCore (s : State) (c : CoreId) : State :=
  let s1 := s.drainEntry c
  s1.setCore c { s1.core c with halted := true }

/-- A message from the management function to the host, which the MSI-X vector of a drover die announces (R453): what it says is left open
(R192, R447, R449, log 13). -/
def State.tellHost (s : State) (d : Nat) : State :=
  let r := s.freshWord
  { r.2 with mgmt := { r.2.mgmt with mboxHost := r.2.mgmt.mboxHost ++ [(d, r.1)] } }

/-- The strand that waits at a collective of a kind (R163 to R165). -/
def leadStrand : EpKind → Strand
  | .xph => .X
  | _ => .C

/-- A team whose phase, if it is in one, has ended: the save that follows serves a request held for the phase (R168). -/
def endPhase (t : TeamSt) : TeamSt :=
  match t.phase with
  | none => t
  | some p => { t with phase := some { p with ended := true }, preHeld := none }

/-- What a fault changes of a team besides its stop: SERR clears where it is the fault raised (R140), an episode without
effect is consumed by the strand that raises it, and so is a refused join (R162, R283), and X's phase ends (R168). -/
def faultTeam (σ : Strand) (f : Flt) (t : TeamSt) : TeamSt :=
  let u : TeamSt := { t with
    serr := if f.serr then 0 else t.serr,
    arrival := match t.arrival with
      | .complete k none => if f.code == .FLOCK && leadStrand k == σ then .idle else t.arrival
      | _ => t.arrival,
    join := if f.code == .FLOCK && σ == .C && t.join == .refused then .idle else t.join,
    raised := if σ == .X then f.port else t.raised }
  if σ == .X then endPhase u else u

/-- Whether a fault is one that its word has completed with (R133, R167). -/
def completedFault (k : Code) : Bool := k == .TRAP || k == .XCOLLIDE

/-- A pre-emption that falls on a fault is held: until the resumed strand has retired the word that it stopped before, or, where the
word had completed, until the first boundary after the resume (R39, R133). -/
def holdPreempt (σ : Strand) (k : Code) (t : TeamSt) : TeamSt :=
  if completedFault k then { t with preNow := true } else { t with preHeld := some σ }

/-- Whether a strand is held on a wait that counts toward WAITTH (R187). -/
def longHeld (st : StrandSt) : Bool :=
  !st.exited && (match st.hold with | .longWait _ => true | .rangeWait .. => true | _ => false)

/-- The long-wait counter of a core after a strand's hold has changed (R187). -/
def countWait (k : CoreSt) (cyc : Nat) : CoreSt :=
  if longHeld k.team.c || longHeld k.team.a || longHeld k.team.x then
    { k with waitAt := some (k.waitAt.getD cyc) }
  else
    match k.waitAt with
    | some a => { k with waitAcc := k.waitAcc + (cyc - a), waitAt := none }
    | none => k

/-- The running strand held at its word. -/
def State.noteHold (s : State) (h : Hold) : State :=
  let s0 := s.waited h
  let s1 := s0.setSt { s0.st with hold := match h with | .dry _ => .stall | _ => h }
  s1.setCore s.cur (countWait (s1.core s.cur) s.cyc)

/-- Whether a DROVER core can take an exception now: its loads and stores are performed, but for stores that wait for a datum (R498). -/
def State.canEnter (s : State) (c : CoreId) : Bool :=
  let t := (s.drainEntry c).team c
  t.sq.isEmpty && lqLoads t == 0

/-- A core whose team is asked to leave it, since now where it was not asked before (R184, R447). -/
def CoreSt.askLeave (k : CoreSt) (l : Leave) (now : Nat) : CoreSt :=
  { k with leave := some l, leaveAt := if k.leave.isSome then k.leaveAt else now }

/-- Taking a fault (R36, R37, R192): a DROVER core enters its handler once its loads and stores are performed, and issues nothing until then;
or it stops, with a report to the host, where an exception is active. On every other core the team stops and is to be suspended with its
record, the first in the order C, A, X deciding. `XCOLLIDE` of an X whose C or A has faulted in the phase is dropped: the record in the
core stands (log 60, DESIGN CHOICE). `pcF` is the index of the faulting word, `pcE` that of the word at which the strand goes on. -/
def State.takeFault (s : State) (pcF pcE : Nat) (f : Flt) : State :=
  let c := s.cur
  let s1 := ({ s with lapse := none } : State).markBad f.bad
  let s2 := s1.setTeam c (faultTeam s.strand f (s1.team c))
  let s3 := s2.setTeam c ((s2.team c).setStr s.strand { (s2.team c).str s.strand with hold := .none, feDone := none })
  if coreCls c == .drover then
    if s3.exa c then (s3.haltCore c).tellHost (coreDrv c)
    else if s3.canEnter c then s3.enterException c s.strand pcE f.code f.addr
    else
      let s4 := s3.drainEntry c
      s4.setCore c ((s4.core c).askLeave (.entry s.strand pcE f.code f.addr) s.runNs)
  else
    match (s3.core c).leave with
    | some (.fault _) => s3
    | some .preempt =>
      let s4 := s3.setTeam c (holdPreempt s.strand f.code (s3.team c))
      s4.setCore c ((s4.core c).askLeave (.fault (s4.record c (strandNum s.strand) pcF f)) s.runNs)
    | _ => s3.setCore c ((s3.core c).askLeave (.fault (s3.record c (strandNum s.strand) pcF f)) s.runNs)

/-! ### Retirement and holds (R14, R18, R35, R187) -/

/-- A swap that was held through a transfer phase takes effect once X has retired its `XEND` (R165). -/
def heldSwap (σ : Strand) (now : Nat) (k : CoreSt) : CoreSt :=
  if !k.swapHeld || σ != .X || k.team.phase.isSome then k
  else
    let k1 : CoreSt := { k with swapHeld := false }
    if k.team.c.exited || k.team.a.exited || k.team.x.exited then k1 else k1.askLeave (k.leave.getD .swap) now

/-- A pre-emption that was held takes effect once the strand it waits for has retired a word outside a transfer phase; it is discarded
once a strand has retired `EXIT` (R39, R165). -/
def preemptHeld (σ : Strand) (now : Nat) (k : CoreSt) : CoreSt :=
  let t := k.team
  if t.preHeld != some σ || t.phase.isSome then k
  else if t.c.exited || t.a.exited || t.x.exited then { k with team := { t with preHeld := none } }
  else ({ k with team := { t with preHeld := none } } : CoreSt).askLeave (k.leave.getD .preempt) now

/-- The running strand past its word: the next PC, whether it is sequential flow, a span boundary after a W-tagged word, and the
long-wait counter at zero (R14, R18, R187). -/
def State.retire (s : State) (w : Bool) (pc : Nat) (flow : Bool) : State :=
  let st := s.st
  let s1 := s.setSt { st with pc := pc, org := if flow then some st.pc else none, hold := .none, feDone := none, span := if w then st.span + 1 else st.span }
  let k := heldSwap s.strand s.runNs (preemptHeld s.strand s.runNs (s1.core s.cur))
  s1.setCore s.cur { k with waitAcc := 0, waitAt := none, lastIss := s.cyc }

/-- What R53 checks of a word before it issues: its tag, whether tag and fields are allowed here, whether it is privileged, whether X may
issue it in a transfer phase (R165), and the fault of check 5, which a transfer meets before the phase is asked for. -/
structure Head where
  tag    : Tag
  legal  : Bool
  priv   : Bool
  phase  : Bool
  target : Option Flt := none
deriving DecidableEq, Repr

/-- How a word ends: the state with its effect, the next PC, whether that is sequential flow, and the fault it raises as a fault that
has completed (R133, R167). `held` is a wait that the word has begun: its strand stays at the word, and the state keeps what the
wait records (R131, R162, R275). -/
structure Done where
  s    : State
  pc   : Nat
  flow : Bool
  trap : Option Flt
  held : Option Hold
deriving DecidableEq, Repr

/-- A word that goes on with the next word. -/
def State.goOn (s : State) : Done := { s := s, pc := s.st.pc + 1, flow := true, trap := none, held := none }

/-- A transfer of control. -/
def State.goTo (s : State) (n : Nat) : Done := { s := s, pc := n, flow := false, trap := none, held := none }

/-- A word that has begun a wait which counts toward WAITTH (R187). -/
def State.waitOn (s : State) (k : Nat) : Done := { s.goOn with held := some (.longWait k) }

/-- Whether X is in a transfer phase (R165, R168). -/
def inPhase (t : TeamSt) : Bool := t.phase.isSome

/-- The issue of a word by the running strand (R12, R13, R19, R36, R53, R165): a word that is not its own is passed over; one
that is held changes nothing but the hold; one that faults takes the fault and has no effect; every other retires with its
effect. -/
def State.issue (s : State) (h : Head) (body : State → Iss Done) : State :=
  let pc := s.st.pc
  if !tagRuns h.tag s.strand then s.setSt { s.st with pc := pc + 1, org := some pc }
  else if h.tag == .W && !slipFree s.tm s.strand then s.noteHold .stall
  else if !h.legal then s.takeFault pc pc ⟨.ILLEGAL, 0, 0, [], false, none⟩
  else if h.priv && s.cls != .drover then s.takeFault pc pc ⟨.PRIV, 0, 0, [], false, none⟩
  else if s.strand == .X && inPhase s.tm && !h.phase then s.takeFault pc pc (h.target.getD ⟨.XPHASE, 0, 0, [], false, none⟩)
  else
    match body s with
    | .ok d =>
      match d.held with
      | some k => d.s.noteHold k
      | none =>
        let s1 := d.s.retire (h.tag == .W) d.pc d.flow
        match d.trap with
        | none => s1
        | some f => s1.takeFault pc d.pc f
    | .error (.stall k) => s.noteHold k
    | .error (.fault f) => s.takeFault pc pc f

/-- A word of a tag whose fields are checked, not privileged and not for a phase. -/
def headOf (t : Tag) (legal : Bool) : Head := { tag := t, legal := legal, priv := false, phase := false }

/-- The end of a loop body reached by the running strand (R122): the back edge, a span boundary that slip may hold, or the loop's
close, after which the strand goes on behind the last word, or where a `LOOP` of count 0 has sent it beyond that (log 59, DEDUCED). -/
def State.passLoopEnd (s : State) (l : Loop) : State :=
  let st := s.st
  if l.index + 1 < l.count then
    if slipFree s.tm s.strand then
      s.setSt { st with loops := st.loops.map fun x => if x.lv == l.lv then { l with index := l.index + 1 } else x,
                        pc := l.start, org := none, span := st.span + 1, hold := .none }
    else s.noteHold .stall
  else s.setSt { st with loops := st.loops.filter fun x => x.lv != l.lv, pc := max st.pc (l.last + 1), org := if l.last < st.pc then st.org else some l.last }

/-- A store failure of the running strand that is pending is raised (R140). -/
def State.raiseSerr (s : State) : Iss Unit :=
  let t := s.tm
  if t.serr.getLsbD 31 && t.serrStrand == s.strand then
    .error (.fault ⟨(codeOf (bits t.serr.toNat 7 0)).getD .QUEUE, t.serra, t.serrPc, [], true, none⟩)
  else .ok ()

/-- What a word does: the next state, whatever the word's fate. -/
def State.run (s : State) (h : Head) (body : State → Iss Done) : Host.Outcome State Fault Refusal := .next (s.issue h body)

/-! ### Invalidation of translations, and requests that wait -/

/-- The sites that a drover's discovery table lists as holding translations (R176, R379). -/
def State.xlatSites (s : State) (d : Nat) : List Nat :=
  (List.range 60).filter fun k => (tget 0 (s.drv d).disc k).getLsbD 104

/-- A `TLBI` message put on its way to the listed dies; one to a die that no route leads to is discarded (R305). -/
def State.sendTlbi (s : State) (m : TlbiMsg) : List Nat → State
  | [] => s
  | k :: t => (s.setDie k { s.die k with tlbiIn := (s.die k).tlbiIn ++ [{ m with lost := !s.routed m.from_ k }] }).sendTlbi m t

/-- A request that has to wait, to move again after a while (log 1). -/
def State.putOff (s : State) (m : Sched) : State := { s with waits := s.waits ++ [(s.turn + 24, m)] }

end Sys2Proof.Machine
end

