-- ==== Sys2Proof/WellFormed.lean ====
section
/-! DEFINITION. Which terms of `Instr` stand for a step of the part. A term whose opcode fixes bit 31 of the word can hold two of the
four tags only (R48); every other term of a word has an encoding, and a step without a word is well formed. Whether a word is legal
on the strand that meets it is a question of the running machine (R53). -/

namespace Sys2Proof

/-- A tag that a row with bit 31 clear can hold (R48). -/
def tagCA : Tag → Bool
  | .C => true
  | .A => true
  | _ => false

/-- A tag that a row with bit 31 set can hold (R48). -/
def tagXW : Tag → Bool
  | .X => true
  | .W => true
  | _ => false

/-- The terms that stand for a step of the part. -/
def WellFormed : Instr → Bool
  | .nop _ => true
  | .add _ _ _ _ _ _ => true
  | .addi _ _ _ _ _ => true
  | .sub _ _ _ _ _ _ => true
  | .mul _ _ _ _ _ _ => true
  | .div _ _ _ _ _ _ => true
  | .andK _ _ _ _ _ => true
  | .andi _ _ _ _ _ => true
  | .orK _ _ _ _ _ => true
  | .ori _ _ _ _ _ => true
  | .xorK _ _ _ _ _ => true
  | .xori _ _ _ _ _ => true
  | .shl _ _ _ _ _ => true
  | .shli _ _ _ _ _ => true
  | .shr _ _ _ _ _ => true
  | .shri _ _ _ _ _ => true
  | .sra _ _ _ _ _ => true
  | .srai _ _ _ _ _ => true
  | .minK _ _ _ _ _ _ => true
  | .maxK _ _ _ _ _ _ => true
  | .cmp _ _ _ _ _ _ => true
  | .cmpi _ _ _ _ _ _ => true
  | .sel _ _ _ _ _ _ => true
  | .li _ _ _ => true
  | .lsi _ _ _ => true
  | .bfx _ _ _ _ _ _ => true
  | .bfi _ _ _ _ _ => true
  | .bitc _ _ _ _ _ => true
  | .plog _ _ _ _ _ _ => true
  | .pmov _ _ _ _ _ => true
  | .fadd t _ _ _ _ _ => tagCA t
  | .fmul t _ _ _ _ _ => tagCA t
  | .ffma t _ _ _ _ _ => tagCA t
  | .fmnx t _ _ _ _ _ => tagCA t
  | .fcmp t _ _ _ _ _ => tagCA t
  | .fcvt t _ _ _ _ => tagCA t
  | .br _ _ _ => true
  | .call _ _ => true
  | .ret _ => true
  | .jmpr _ _ => true
  | .loop _ _ _ => true
  | .lbrk _ _ => true
  | .lcnt _ _ _ _ => true
  | .slip _ => true
  | .push _ _ _ => true
  | .pop _ _ _ => true
  | .align _ => true
  | .fmtc t _ => tagXW t
  | .time _ _ _ => true
  | .waitt _ _ _ => true
  | .exit => true
  | .trap _ _ _ => true
  | .ldb _ _ _ _ _ _ => true
  | .ldh _ _ _ _ _ _ => true
  | .ldw _ _ _ _ _ _ => true
  | .ldd _ _ _ _ _ _ => true
  | .ldbz _ _ _ _ _ _ => true
  | .ldhz _ _ _ _ _ _ => true
  | .ldwz _ _ _ _ _ _ => true
  | .stb _ _ _ _ _ _ => true
  | .sth _ _ _ _ _ _ => true
  | .stw _ _ _ _ _ _ => true
  | .std _ _ _ _ _ _ => true
  | .ldf t _ _ _ _ _ => tagCA t
  | .stf t _ _ _ _ _ => tagCA t
  | .fefill t _ _ _ _ _ => tagCA t
  | .cpy _ _ _ _ _ => true
  | .cpyw _ _ _ => true
  | .cpys _ _ _ => true
  | .amo _ _ _ _ _ _ => true
  | .amow _ _ _ _ _ _ => true
  | .cas _ _ _ _ => true
  | .casw _ _ _ _ => true
  | .amof _ _ _ _ _ _ => true
  | .fence _ _ _ => true
  | .xfence _ _ _ _ => true
  | .pref _ _ _ _ _ => true
  | .fjoin _ _ => true
  | .fleave => true
  | .fbar _ => true
  | .fred _ _ _ _ => true
  | .xph => true
  | .xmit _ _ _ => true
  | .msel _ _ _ => true
  | .xend => true
  | .bopen _ _ _ => true
  | .bgive _ _ => true
  | .bdup _ _ _ => true
  | .bdrop _ => true
  | .binfo _ _ _ _ => true
  | .nparam _ _ _ _ => true
  | .inst _ _ _ _ => true
  | .signal _ _ _ => true
  | .cfr _ _ _ => true
  | .cfw _ _ _ => true
  | .halt => true
  | .tlbi _ _ _ => true
  | .eret => true
  | .vadd _ _ _ _ _ => true
  | .vsub _ _ _ _ _ => true
  | .vmul _ _ _ _ _ => true
  | .vfma _ _ _ _ _ => true
  | .vfnma _ _ _ _ _ => true
  | .vmin _ _ _ _ _ => true
  | .vmax _ _ _ _ _ => true
  | .vuna _ _ _ _ _ => true
  | .vcmp _ _ _ _ _ _ => true
  | .vsel _ _ _ _ => true
  | .vcvt _ _ _ _ _ => true
  | .vrcp _ _ _ _ => true
  | .vrsq _ _ _ _ => true
  | .vexp2 _ _ _ _ => true
  | .vlog2 _ _ _ _ => true
  | .vscl2 _ _ _ _ _ => true
  | .vdot _ _ _ _ _ => true
  | .vdota _ _ _ _ _ => true
  | .vrsum _ _ _ _ => true
  | .vrmax _ _ _ _ => true
  | .vscan _ _ _ _ => true
  | .vperm _ _ _ _ => true
  | .vrot _ _ _ _ => true
  | .vbcast _ _ _ _ => true
  | .viadd _ _ _ _ _ => true
  | .visub _ _ _ _ _ => true
  | .vimul _ _ _ _ _ => true
  | .vand _ _ _ _ => true
  | .vor _ _ _ _ => true
  | .vxor _ _ _ _ => true
  | .vshl _ _ _ _ _ => true
  | .vshr _ _ _ _ _ => true
  | .vsra _ _ _ _ _ => true
  | .vimnx _ _ _ _ _ => true
  | .vicmp _ _ _ _ _ _ => true
  | .vpack _ _ _ _ _ => true
  | .vunpk _ _ _ _ _ => true
  | .ldv _ _ _ _ => true
  | .stv _ _ _ => true
  | .vgath _ _ _ _ => true
  | .vscat _ _ _ => true
  | .vmset _ => true
  | .vmlog _ _ _ _ _ => true
  | .vmov _ _ _ => true
  | .viota _ _ _ _ => true
  | .vext _ _ => true
  | .vins _ _ _ _ => true
  | .pset _ _ _ _ => true
  | .pgo _ => true
  | .phalt _ => true
  | .pstat _ _ => true
  | .vqnt _ _ _ _ _ => true
  | .vdqnt _ _ _ _ _ => true
  | .mpath _ _ _ _ => true
  | .csrw _ _ _ _ _ => true
  | .segsum _ _ _ _ _ => true
  | .segcar _ _ _ _ => true
  | .vgathx _ _ _ _ => true
  | .sbit _ _ _ _ => true
  | .smrg _ _ _ _ _ => true
  | .skey _ _ _ _ => true
  | .stopk _ _ _ _ => true
  | .spay _ _ _ _ _ => true
  | .clease => true
  | .crel => true
  | .ccfg _ _ => true
  | .tri _ _ _ => true
  | .mma _ _ => true
  | .accz => true
  | .accst _ => true
  | .tzero _ => true
  | .tshape _ _ => true
  | .tld _ _ _ => true
  | .tst _ _ _ => true
  | .tcvt _ _ => true
  | .teadd _ _ _ => true
  | .temul _ _ _ => true
  | .temax _ _ _ => true
  | .tesub _ _ _ => true
  | .tred _ _ _ => true
  | .tix _ => true
  | .cwait => true
  | .tbcast _ _ => true
  | .mrowz _ _ => true
  | .mrowc _ _ _ => true
  | .mloc _ _ _ => true
  | .minv _ _ _ => true
  | .mcomp _ _ _ => true
  | .mexpd _ _ _ _ => true
  | .mscrb _ _ _ _ => true
  | .mmig _ _ _ _ => true
  | .mred _ _ _ _ _ => true
  | .mfill _ _ _ => true
  | .mstat _ _ _ => true
  | .rfetch _ _ _ _ => true
  | .bfxm _ _ _ _ => true
  | .swait _ _ _ _ => true
  | .disp _ _ _ _ => true
  | .qsave _ _ _ => true
  | .qload _ _ _ _ => true
  | .gdec _ _ _ => true
  | .glnch _ _ _ _ => true
  | .brnew _ _ _ _ => true
  | .brfree _ _ _ => true
  | .flknew _ _ _ _ _ => true
  | .fltpop _ _ _ => true
  | .resume _ _ _ => true
  | .kill _ _ _ => true
  | .qmap _ _ _ _ => true
  | .prio _ _ _ _ _ => true
  | .loopEnd => true
  | .loadPerform => true
  | .storePerform => true
  | .copyFaultHold => true
  | .copyComplete => true
  | .polledWaitRetry => true
  | .waittExpire => true
  | .slipRelease => true
  | .portOperandFetch => true
  | .writePortWrite => true
  | .tileTransferEffect => true
  | .leaseGrant => true
  | .leaseBudgetExpiry => true
  | .leaseIdleExpiry => true
  | .flockJoinMessage => true
  | .flockLeaveMessage => true
  | .flockArrivalMessage => true
  | .planeLoadComplete => true
  | .teamComplete => true
  | .preemptRequest => true
  | .longWaitSwap => true
  | .teamSaveComplete => true
  | .teamRequeue => true
  | .nodeDispatch => true
  | .instanceComplete => true
  | .ageingInterval => true
  | .graphUpload => true
  | .graphUnload => true
  | .launchTrigger => true
  | .launchStart => true
  | .launchEnd => true
  | .timedLaunchPreplace => true
  | .timedLaunchFire => true
  | .gangCommit => true
  | .gangRollbackTimeout => true
  | .kick => true
  | .packetLaunch => true
  | .packetRelaunch => true
  | .packetTimedLaunch => true
  | .packetBarrierAnd => true
  | .barrierAndRelease => true
  | .packetSignal => true
  | .packetNop => true
  | .faultRecordEnqueue => true
  | .swaitTimeout => true
  | .tlbiInvalidateMessage => true
  | .tlbiAck => true
  | .pageWalk => true
  | .l2Fill => true
  | .directoryRequest => true
  | .sliceAtomic => true
  | .homeLineWrite => true
  | .homeLineRead => true
  | .pageExpansion => true
  | .extentAdd => true
  | .extentReleaseRequest => true
  | .releaseSweep => true
  | .releaseSweepTimeout => true
  | .extentForcedRemoval => true
  | .cxlTimeout => true
  | .flitSlot => true
  | .flitGroupReceive => true
  | .linkReplay => true
  | .linkRetryFail => true
  | .linkRetrainComplete => true
  | .linkDownTimeout => true
  | .clusterReset => true
  | .clusterResetSaveDeadline => true
  | .foldReset => true
  | .packageReset => true
  | .rstreqCluster => true
  | .rstreqFold => true
  | .rstreqPackage => true
  | .rstreqRelease => true
  | .bootgo => true
  | .firmwareCoreStart => true
  | .attestationRequest => true
  | .mailboxMessage => true
  | .dieDegrade => true
  | .dieRetirement => true
  | .coreWatchdog => true
  | .firmwareWatchdog => true
  | .nodeDeadline => true
  | .clusterWatchdog => true
  | .foldWatchdog => true
  | .fwkick => true
  | .thermalThrottle => true
  | .thermalRetire => true
  | .powerBrownout => true
  | .powerRecover => true
  | .elogclr => true
  | .tmslew => true
  | .tmset => true
  | .ptpEventTimestamp => true
  | .ptmExchange => true
  | .timeSourceLoss => true
  | .hostApertureAccess => true
  | .hostAccessTimeout => true
  | .peerRequestReceive => true
  | .peerRequestForward => true
  | .remoteTimeout => true
  | .collectiveKick => true
  | .allReduce => true
  | .reduceScatter => true
  | .allGather => true
  | .collectiveBroadcast => true
  | .collectiveBarrier => true
  | .collectivePartialReceive => true
  | .collectiveComplete => true
  | .collectiveTimeout => true
  | .registerWrite => true
  | .l1Eviction => true
  | .powerCapping => true
  | .hostPortLinkDown => true
  | .hostPortLinkUp => true
  | .gangStart => true
  | .bootStagingWrite => true
  | .softError => true

end Sys2Proof
end

