-- ==== Sys2Proof/Machine/Operands.lean ====
section
/-! DEFINITION. Operand forms: source and destination selectors on every strand and class (R25 to R29, R99, R100, R195), the
pops and pushes they make, and the frames that most words share. -/

namespace Sys2Proof.Machine

/-- Whether a selector may stand in a source field of the running strand (R25, R54, R100). -/
def State.srcOk (s : State) (sel : BitVec 6) : Bool :=
  let k := sel.toNat
  if k < 48 then !s.cubeX else if k < 56 then true else if k < 62 then s.vecX && decide (k < 60) else true

/-- Whether a value may stand in a destination field of the running strand (R27, R54, R100). -/
def State.destOk (s : State) (sel : BitVec 6) : Bool :=
  let k := sel.toNat
  if k < 48 then !s.cubeX else decide (62 ≤ k)

/-- Whether a field names a register that is both source and destination. -/
def regOk (sel : BitVec 6) : Bool := decide (sel.toNat < 48)

/-- Whether the entries that the default input queue must hold are there (R26, R31). -/
def State.popsIn (s : State) (n : Nat) : Iss Unit :=
  match s.strand with
  | .C => popCheck s.tm.xc.length n (qGone s.tm .xc)
  | .A => popCheck s.tm.ca.length n (qGone s.tm .ca)
  | .X => popCheck s.tm.dq.length n (dqGone s.tm)

/-- A stream port. -/
def portReset : Port :=
  { st := .idle, base := 0, n0 := 0, n1 := 0, n2 := 0, s0 := 0, s1 := 0, s2 := 0, rep := false, pol := 0, pos := 0, buf := [],
    csr := none, row := 0, code := none, pc := 0, wait := false }

/-- A stream port of a team. -/
def TeamSt.port (t : TeamSt) (p : Nat) : Port := tget portReset t.ports p

/-- Whether the operands that a read port must hold are there (R220). -/
def State.popsPort (s : State) (p n : Nat) : Iss Unit :=
  let q := s.tm.port p
  popCheck q.buf.length n (s.tm.a.exited && q.st != .run)

/-- How often a selector stands in a list. -/
def countSel (l : List (BitVec 6)) (k : Nat) : Nat := (l.filter fun x => x.toNat == k).length

/-- Whether every entry that an instruction pops is present (R26). -/
def State.popsOk (s : State) (l : List (BitVec 6)) : Iss Unit := do
  if countSel l 63 == 0 then .ok () else s.popsIn (countSel l 63)
  if countSel l 56 == 0 then .ok () else s.popsPort 0 (countSel l 56)
  if countSel l 57 == 0 then .ok () else s.popsPort 1 (countSel l 57)
  if countSel l 58 == 0 then .ok () else s.popsPort 2 (countSel l 58)
  if countSel l 59 == 0 then .ok () else s.popsPort 3 (countSel l 59)

/-- The lanes that a `dq` entry supplies (R195). -/
def State.dqLanes (s : State) (e : DqEnt) : List W32 :=
  match e.data with
  | .scalar v => scalarLanes s.lanes v
  | .lanes l => l
  | .lines ids => bytesLanes s.lanes (s.linesBytes s.cur ids)

/-- The fault of a poison mark (R32, R220). -/
def poisonCheck (p : Option Poison) : Iss Unit :=
  match p with
  | some m => flt m.code m.addr m.aux
  | none => .ok ()

/-- The oldest `dq` entry popped, its locks released (R32, R182, R183). -/
def State.popDq (s : State) : Iss (List W32 × State) :=
  match s.tm.dq with
  | [] => hold
  | e :: t => do
    poisonCheck e.poison
    .ok (s.dqLanes e, (s.setTm { s.tm with dq := t }).l1UnlockAll s.me e.locks)

/-- The oldest entry of a named queue popped (R30). -/
def State.popNamed (s : State) (k : QName) : Iss (W64 × State) :=
  match s.tm.q k with
  | [] => hold
  | e :: t => .ok (e.val, s.setTm (s.tm.setQ k t))

/-- The oldest operand of a read port popped (R220). -/
def State.popPort (s : State) (p : Nat) : Iss (List W32 × State) :=
  let q := s.tm.port p
  match q.buf with
  | [] => hold
  | e :: t => do
    match e.poison with
    | some m => .error (.fault ⟨m.code, m.addr, m.aux, [], false, some p⟩)
    | none => .ok (e.lanes, s.setTm { s.tm with ports := tset s.tm.ports p { q with buf := t } })

/-- A source selector read as a 64-bit scalar (R25, R100). -/
def State.src (s : State) (sel : BitVec 6) : Iss (W64 × State) :=
  let k := sel.toNat
  if k < 48 then .ok (s.reg k, s)
  else if k < 56 then .ok (s.latch (k - 48), s)
  else if k < 62 then (s.popPort (k - 56)).map fun r => (lanes64 r.1, r.2)
  else if k == 62 then .ok (0, s)
  else match s.strand with
    | .C => s.popNamed .xc
    | .A => s.popNamed .ca
    | .X => s.popDq.map fun r => (lanes64 r.1, r.2)

/-- A source selector of an X instruction read as lanes (R25, R195). -/
def State.vsrc (s : State) (sel : BitVec 6) : Iss (List W32 × State) :=
  let k := sel.toNat
  if k < 48 then .ok (s.vreg k, s)
  else if k < 56 then .ok (s.vlatch (k - 48), s)
  else if k < 62 then s.popPort (k - 56)
  else if k == 62 then .ok (List.replicate s.lanes 0, s)
  else s.popDq

/-- Whether a result has room where it goes (R28, R31). -/
def State.room (s : State) (d : Bool) (sel : BitVec 6) : Iss Unit :=
  if d || sel.toNat != 63 then .ok ()
  else match s.strand with
    | .C => pushCheck s.tm .ca
    | .A => pushCheck s.tm .ac
    | .X => sdqCheck s.tm

/-- A 64-bit result written to a destination (R27, R28). -/
def State.dest (s : State) (sel : BitVec 6) (v : W64) : State :=
  let k := sel.toNat
  if k < 48 then s.setReg k v
  else if k == 63 then
    match s.strand with
    | .C => s.setTm (s.tm.pushQ .ca v)
    | .A => s.setTm (s.tm.pushQ .ac v)
    | .X => s.setTm (s.tm.pushSdq (if s.vecX then scalarLanes s.lanes v else of64 v))
  else s

/-- A vector result written to a destination (R27, R28). -/
def State.vdest (s : State) (sel : BitVec 6) (v : List W32) : State :=
  let k := sel.toNat
  if k < 48 then s.setVreg k v
  else if k == 63 then s.setTm (s.tm.pushSdq v)
  else s

/-- A 64-bit result written, unless D suppresses it, and entering y1 (R23, R29). -/
def State.put (s : State) (d : Bool) (sel : BitVec 6) (v : W64) : State := (if d then s else s.dest sel v).pushLat v

/-- A vector result written, unless D suppresses it, and entering y1 (R23, R29, R196). -/
def State.vput (s : State) (d : Bool) (sel : BitVec 6) (v : List W32) : State := (if d then s else s.vdest sel v).pushVlat v

/-- A signed immediate of 9 bits as 64 bits (R44, R99). -/
def imm9 (i : BitVec 9) : W64 := i.signExtend 64

/-- Whether the tag is one that the scalar integer words may carry on a class (R48). -/
def tagInt (k : Cls) (t : Tag) : Bool :=
  match t with
  | .C => true
  | .A => true
  | _ => memDrv k

/-- Whether the tag is one of C, A and X with X on MEM and DROVER only (R48). -/
def tagMem (k : Cls) (t : Tag) : Bool :=
  match t with
  | .C => true
  | .A => true
  | .X => memDrv k
  | .W => false

/-- Whether the tag is C, A or X (R48). -/
def tagCAX (t : Tag) : Bool := t != .W

/-! ### The frame of R99 -/

/-- A two-source word: K form. -/
def State.frameK (s : State) (d : Bool) (r a b : BitVec 6) (f : W64 → W64 → W64) : Iss Done := do
  s.popsOk [a, b]
  s.room d r
  let x ← s.src a
  let y ← x.2.src b
  .ok (y.2.put d r (f x.1 y.1)).goOn

/-- A word of one source and an immediate: I form. -/
def State.frameI (s : State) (d : Bool) (r a : BitVec 6) (f : W64 → W64) : Iss Done := do
  s.popsOk [a]
  s.room d r
  let x ← s.src a
  .ok (x.2.put d r (f x.1)).goOn

/-- A two-source word whose destination register is a source too (BFI, FFMA). -/
def State.frameD (s : State) (d : Bool) (r a b : BitVec 6) (f : W64 → W64 → W64 → W64) : Iss Done := do
  s.popsOk [a, b]
  let z := s.reg r.toNat
  let x ← s.src a
  let y ← x.2.src b
  .ok (y.2.put d r (f z x.1 y.1)).goOn

/-- A two-source word that sets a predicate (R99, R106). -/
def State.frameP (s : State) (d : Bool) (p : BitVec 3) (a b : BitVec 6) (f : W64 → W64 → Bool) : Iss Done := do
  s.popsOk [a, b]
  let x ← s.src a
  let y ← x.2.src b
  let v := f x.1 y.1
  .ok ((if d then y.2 else y.2.setPred p.toNat v).pushLat (b2w v)).goOn

/-- A word that only gives a result (R99). -/
def State.frameV (s : State) (d : Bool) (r : BitVec 6) (v : W64) : Iss Done := do
  s.room d r
  .ok (s.put d r v).goOn

end Sys2Proof.Machine
end

