-- ==== Sys2Proof/Machine/Flags.lean ====
section
/-! DEFINITION. What sets predicates: the conditions of compares, of branches, and the logic of predicates (R44, R106, R111, R116,
R118). -/

namespace Sys2Proof.Machine

/-- The condition of `CMP` and `CMPI` by code (R106). -/
def cmpCond (code : BitVec 3) (a b : W64) : Bool :=
  match code.toNat with
  | 0 => a == b
  | 1 => a != b
  | 2 => a.slt b
  | 3 => a.sle b
  | 4 => a.ult b
  | 5 => a.ule b
  | 6 => (a &&& b) != 0
  | _ => (a &&& b) == 0

/-- The condition of `FCMP` by FN on bits 31 to 0 (R116). -/
def fcmpCond (fn : BitVec 3) (a b : W64) : Bool :=
  let x := f32 (lo32 a)
  let y := f32 (lo32 b)
  match fn.toNat with
  | 0 => eqN x y
  | 1 => ltN x y
  | 2 => ltN x y || eqN x y
  | _ => x.isNaN || y.isNaN

/-- Whether the condition CND holds for the running strand's predicates (R44, R118). -/
def State.cndHolds (s : State) (cnd : BitVec 4) : Bool :=
  let k := cnd.toNat
  if k < 8 then s.pred k else !s.pred (k - 8)

/-- The logic of `PLOG` by FN (R111). -/
def plogOp (fn : BitVec 3) (a b : Bool) : Bool :=
  match fn.toNat with
  | 0 => a && b
  | 1 => a || b
  | 2 => a != b
  | 3 => a && !b
  | 4 => a || !b
  | _ => !a

end Sys2Proof.Machine
end

