-- ==== Sys2Proof/Machine/Control.lean ====
section
/-! DEFINITION. The control and coordination words, OP 0x00 and 0x30 to 0x3F (R118 to R133). -/

namespace Sys2Proof.Machine

/-- `NOP` (R126). In a phase X may issue it where it is X-tagged (R165). -/
def execNop (t : Tag) (s : State) : Host.Outcome State Fault Refusal :=
  s.run { tag := t, legal := true, priv := false, phase := t == .X } fun s => .ok s.goOn

/-! ### Transfers -/

/-- The target of a displacement (R44). -/
def dispTarget (pc : Nat) (i : BitVec 18) : Int := pc + 1 + i.toInt

/-- Whether a word index lies in the text window. -/
def inText (n : Int) : Bool := decide (0 ≤ n) && decide (n.toNat < 16384)

/-- The check of a transfer's target: a private one stays in its span (R17); a W-tagged one stays in the window where this
strand checks it (R56). -/
def State.targetOk (s : State) (t : Tag) (n : Int) (mine : Bool) : Iss Unit :=
  if t != .W then
    need (inText n && spanNo (s.text s.cur) n.toNat == spanNo (s.text s.cur) s.st.pc) .SPAN 0 0
  else if mine then need (inText n) .ILLEGAL 0 0 else .ok ()

/-- The fault of a check. -/
def faultOf (x : Iss Unit) : Option Flt :=
  match x with
  | .error (.fault f) => some f
  | _ => none

/-- A branch and its target both lie inside or both outside the body of every open loop (R122). The check is made after that of check 5 of R53
and before `QUEUE` (log 33, DEDUCED). -/
def State.bodiesOk (s : State) (n : Int) : Iss Unit :=
  need (s.st.loops.all fun l => inBody l s.st.pc == (decide (0 ≤ n) && inBody l n.toNat)) .ILLEGAL 0 0

/-- Whether the running strand takes an outcome from BQ for a word (R33). -/
def State.follows (s : State) (t : Tag) : Bool := t == .W && s.strand != .C

/-- A branch outcome read as a truth value. An entry of a kind that another word made is read across: the manual does not say what a
strand does that meets one (log 35, DESIGN CHOICE). -/
def bqTrue : BqVal → Bool
  | .taken b => b
  | .brk b => b
  | .target n => n != 0
  | .count n => n != 0

/-- A branch outcome read as a number; an entry of another kind is read across (log 35, DESIGN CHOICE). -/
def bqNum : BqVal → W64
  | .taken b => b2w b
  | .brk b => b2w b
  | .target n => n
  | .count n => n

/-- `BR` (R118). -/
def execBr (t : Tag) (c : BitVec 4) (i : BitVec 18) (s : State) : Host.Outcome State Fault Refusal :=
  s.run { headOf t (c != 15) with target := faultOf (s.targetOk t (dispTarget s.st.pc i) (s.strand == .C)) } fun s => do
    let n := dispTarget s.st.pc i
    s.targetOk t n (s.strand == .C)
    s.bodiesOk n
    let r ← if s.follows t then (s.popBq.map fun r => (bqTrue r.1, r.2))
            else if t == .W then (s.pushBq (.taken (s.cndHolds c))).map fun u => (s.cndHolds c, u)
            else .ok (s.cndHolds c, s)
    .ok (if r.1 then r.2.goTo n.toNat else r.2.goOn)

/-- `CALL` (R119). -/
def execCall (t : Tag) (i : BitVec 18) (s : State) : Host.Outcome State Fault Refusal :=
  s.run { headOf t true with target := faultOf (s.targetOk t (dispTarget s.st.pc i) (s.strand == .C)) } fun s => do
    let n := dispTarget s.st.pc i
    s.targetOk t n (s.strand == .C)
    need (s.st.link.length < 16) .STACK 0 0
    .ok ((s.setSt { s.st with link := (s.st.pc + 1) :: s.st.link }).goTo n.toNat)

/-- `RET` (R119): each strand checks the index that it pops. -/
def execRet (t : Tag) (s : State) : Host.Outcome State Fault Refusal :=
  s.run { headOf t true with target := s.st.link.head?.bind fun n => faultOf (s.targetOk t n true) } fun s =>
    match s.st.link with
    | [] => flt .STACK 0 0
    | n :: rest => do
      s.targetOk t n true
      .ok ((s.setSt { s.st with link := rest }).goTo n)

/-- The fault of check 5 that a `JMPR` meets with the target that its source gives now (R17, R56). -/
def State.jmprFault (s : State) (t : Tag) (a : BitVec 6) : Option Flt :=
  if s.follows t then none
  else match s.src a with
    | .ok x => faultOf (s.targetOk t x.1.toNat true)
    | .error _ => none

/-- `JMPR` (R120): in a W-tagged one only C reads SA. -/
def execJmpr (t : Tag) (a : BitVec 6) (s : State) : Host.Outcome State Fault Refusal :=
  s.run { headOf t (s.follows t || s.srcOk a) with target := s.jmprFault t a } fun s =>
    if s.follows t then do
      let r ← s.popBq
      let n := (bqNum r.1).toNat
      s.bodiesOk n
      .ok (r.2.goTo n)
    else do
      s.popsOk [a]
      let x ← s.src a
      let n := x.1.toNat
      s.targetOk t n true
      s.bodiesOk n
      let u ← if t == .W then x.2.pushBq (.target x.1) else .ok x.2
      .ok (u.goTo n)

/-! ### Loops -/

/-- `LOOP` (R101, R121): W-tagged only; C reads the count and pushes it, A and X take it from BQ, and then the level must be closed. A
loop of count 0 is passed over. -/
def execLoop (l : BitVec 2) (a : BitVec 6) (n : BitVec 14) (s : State) : Host.Outcome State Fault Refusal :=
  s.run { headOf .W (n != 0 && (s.strand != .C || s.srcOk a)) with
      target := faultOf (need (s.st.pc + n.toNat < 16384) .ILLEGAL 0 0) } fun s => do
    let pc := s.st.pc
    let body := n.toNat
    need (pc + body < 16384) .ILLEGAL 0 0
    let r ← if s.strand == .C then do
              s.popsOk [a]
              let x ← s.src a
              let u ← x.2.pushBq (.count x.1)
              pure (x.1, u)
            else (s.popBq.map fun r => (bqNum r.1, r.2))
    need (loopAt s.st l.toNat).isNone .ILLEGAL 0 0
    let st := r.2.st
    let u := r.2.setSt { st with
      loopSeq := st.loopSeq + 1,
      loops := if r.1 == 0 then st.loops
               else { lv := l.toNat, start := pc + 1, last := pc + body, count := r.1.toNat, index := 0, inst := st.loopSeq + 1 } :: st.loops }
    .ok (if r.1 == 0 then { u.goOn with pc := pc + body + 1 } else u.goOn)

/-- Entries of a named queue that are marked with a closing instance are discarded (R124). -/
def dropMarked (l : List QEnt) (closing : List Nat) : List QEnt := l.filter fun e => !closing.contains e.mark

/-- A store that A placed within a closing instance and that still awaits its datum (R124): by the instance that was innermost when A placed
it (log 36, DEDUCED). -/
def closingStore (closing : List Nat) (e : StoreEnt) : Bool :=
  e.strand == .A && e.fromSdq && e.data.isNone && closing.contains e.mark

/-- What the running strand discards when it retires an `LBRK` that breaks the loops of the given instances (R124). -/
def State.discard (s : State) (closing : List Nat) : State :=
  let t := s.tm
  match s.strand with
  | .C => s.setTm { t with xc := dropMarked t.xc closing, ac := dropMarked t.ac closing }
  | .A => s.setTm { t with ca := dropMarked t.ca closing, sdq := t.sdq.filter fun e => !closing.contains e.mark }
  | .X =>
    let gone := t.dq.filter fun e => closing.contains e.mark
    let ids := (t.sq.filter (closingStore closing)).map (·.id)
    let t' : TeamSt := { t with
      cx := dropMarked t.cx closing,
      dq := t.dq.filter fun e => !closing.contains e.mark,
      sq := t.sq.filter fun e => !closingStore closing e,
      claims := t.claims.filter fun c => match c with | .store id => !ids.contains id | .port .. => true }
    (s.setTm t'.feed).l1UnlockAll s.me (gone.flatMap (·.locks))

/-- The loops from the latest opened down to that of a level, and those opened before it. -/
def splitLoops (lv : Nat) : List Loop → List Loop × List Loop
  | [] => ([], [])
  | l :: t => if l.lv == lv then ([l], t) else let r := splitLoops lv t; (l :: r.1, r.2)

/-- Whether an `LBRK` lies in the body of an open loop of its level (R56, R123). -/
def State.lbrkOk (s : State) (l : Nat) : Bool :=
  match loopAt s.st l with
  | none => false
  | some lp => inBody lp s.st.pc

/-- `LBRK` (R123, R124): a break closes the loop of the level and every loop opened after it. -/
def execLbrk (c : BitVec 4) (l : BitVec 2) (s : State) : Host.Outcome State Fault Refusal :=
  s.run { headOf .W (c != 15) with target := faultOf (need (s.lbrkOk l.toNat) .ILLEGAL 0 0) } fun s =>
    match loopAt s.st l.toNat with
    | none => flt .ILLEGAL 0 0
    | some lp => do
      need (inBody lp s.st.pc) .ILLEGAL 0 0
      let r ← if s.strand == .C then (s.pushBq (.brk (s.cndHolds c))).map fun u => (s.cndHolds c, u)
              else (s.popBq.map fun r => (bqTrue r.1, r.2))
      if r.1 then
        let q := splitLoops l.toNat r.2.st.loops
        let closing := q.1.map (·.inst)
        let u := r.2.setSt { r.2.st with loops := q.2, dead := closing ++ r.2.st.dead }
        .ok { (u.discard closing).goOn with pc := lp.last + 1 }
      else .ok r.2.goOn

/-- `LCNT` (R125). -/
def execLcnt (t : Tag) (d : Bool) (r : BitVec 6) (f : BitVec 3) (s : State) : Host.Outcome State Fault Refusal :=
  s.run (headOf t (tagInt s.cls t && s.destOk r && f < 4)) fun s =>
    s.frameV d r (match loopAt s.st f.toNat with | some l => BitVec.ofNat 64 l.index | none => 0)

/-! ### Team coordination -/

/-- `SLIP` (R127): the window changes when X retires the word. -/
def execSlip (i : BitVec 10) (s : State) : Host.Outcome State Fault Refusal :=
  s.run (headOf .W (i != 0 && i ≤ 64)) fun s =>
    .ok (if s.strand == .X then s.setTm { s.tm with slip := i.toNat } else s).goOn

/-- Whether an A field names an index register of a CUBE X strand (R128). -/
def State.ixField (s : State) (a : BitVec 6) : Bool := s.cubeX && a < 3

/-- An index register of a CUBE X strand (R246). -/
def TeamSt.ix (t : TeamSt) (k : Nat) : BitVec 6 :=
  match k with
  | 0 => t.ix0
  | 1 => t.ix1
  | _ => t.ix2

/-- A team with an index register changed. -/
def TeamSt.setIx (t : TeamSt) (k : Nat) (v : BitVec 6) : TeamSt :=
  match k with
  | 0 => { t with ix0 := v }
  | 1 => { t with ix1 := v }
  | _ => { t with ix2 := v }

/-- `PUSH` (R128). -/
def execPush (t : Tag) (a : BitVec 6) (n : BitVec 10) (s : State) : Host.Outcome State Fault Refusal :=
  s.run (headOf t (tagCAX t && (s.ixField a || s.srcOk a) &&
      (match qOfNum n.toNat with | some k => k.producer == s.strand | none => false))) fun s =>
    match qOfNum n.toNat with
    | none => flt .ILLEGAL 0 0
    | some k => do
      s.popsOk [a]
      pushCheck s.tm k
      let x ← if s.ixField a then .ok ((s.tm.ix a.toNat).setWidth 64, s) else s.src a
      .ok (x.2.setTm (x.2.tm.pushQ k x.1)).goOn

/-- `POP` (R128): the value enters y1. -/
def execPop (t : Tag) (r : BitVec 6) (n : BitVec 10) (s : State) : Host.Outcome State Fault Refusal :=
  s.run (headOf t (tagCAX t && (s.ixField r || s.destOk r) &&
      (match qOfNum n.toNat with | some k => k.consumer == s.strand | none => false))) fun s =>
    match qOfNum n.toNat with
    | none => flt .ILLEGAL 0 0
    | some k => do
      popCheck (s.tm.q k).length 1 (qGone s.tm k)
      s.room false r
      let x ← s.popNamed k
      .ok (if s.ixField r then (x.2.setTm (x.2.tm.setIx r.toNat (x.1.setWidth 6))).pushLat x.1 else x.2.put false r x.1).goOn

/-- `ALIGN` (R126): a marker that holds the strand's later loads behind its earlier stores. -/
def execAlign (t : Tag) (s : State) : Host.Outcome State Fault Refusal :=
  s.run (headOf t (tagInt s.cls t)) fun s =>
    let ids := strandStores s.tm s.strand
    .ok (if ids.isEmpty then s else s.setTm { s.tm with lq := s.tm.lq ++ [.marker s.strand ids] }).goOn

/-- `FMTC` (R129): FMTCTL changes when X retires the word. -/
def execFmtc (t : Tag) (i : BitVec 10) (s : State) : Host.Outcome State Fault Refusal :=
  s.run (headOf t (tagXW t)) fun s =>
    .ok (if s.strand == .X then s.setTm { s.tm with fmtctl := i.setWidth 32 } else s).goOn

/-- The cycles for which the team has been resident on a core (R130). -/
def State.runCycles (s : State) (c : CoreId) : Nat := (s.team c).runCyc + (s.cyc - (s.core c).since)

/-- The sample that `TIME` takes (R130). -/
def State.timeVal (s : State) (n : BitVec 10) : W64 :=
  match n.toNat with
  | 0 => s.nsAt s.cur.site
  | 1 => BitVec.ofNat 64 (s.countAt s.cur.site)
  | _ => BitVec.ofNat 64 (s.runCycles s.cur)

/-- `TIME` (R130). -/
def execTime (t : Tag) (r : BitVec 6) (n : BitVec 10) (s : State) : Host.Outcome State Fault Refusal :=
  s.run (headOf t (s.destOk r && n < 3)) fun s => s.frameV false r (s.timeVal n)

/-- The target of a wait: recorded at its first issue, and used again (R131). -/
def State.waitTarget (s : State) (v : W64) (n : BitVec 10) : W64 :=
  if s.st.waitV then s.st.waitT
  else if n == 0 then v else BitVec.ofNat 64 (min (2 ^ 64 - 1) ((s.nsAt s.cur.site).toNat + v.toNat))

/-- `WAITT` (R131): the strand records its target at the first issue and waits until device time has reached it. -/
def execWaitt (t : Tag) (a : BitVec 6) (n : BitVec 10) (s : State) : Host.Outcome State Fault Refusal :=
  s.run (headOf t (s.srcOk a && n < 2)) fun s => do
    s.popsOk [a]
    let x ← s.src a
    let v := s.waitTarget x.1 n
    if (s.nsAt s.cur.site).ult v then .ok ((s.setSt { s.st with waitT := v, waitV := true }).waitOn waitTime)
    else .ok (x.2.setSt { x.2.st with waitV := false }).goOn

/-! ### End and trap -/

/-- The address of operand `pos` of a port's walk (R218). -/
def portAddr (q : Port) (pos : Nat) : W64 :=
  let i0 := pos % max q.n0 1
  let i1 := pos / max q.n0 1 % max q.n1 1
  let i2 := pos / (max q.n0 1 * max q.n1 1)
  w64 (q.base.toNat + i0 * q.s0 + i1 * q.s1 + i2 * q.s2)

/-- Unfilled entries of a write port's claim fail one after another (R221). -/
def failPort (q : Port) (pos : Nat) : Nat → TeamSt → TeamSt
  | 0, t => t
  | n + 1, t => failPort q (pos + 1) n (t.storeFailed .A q.pc .QUEUE (portAddr q pos))

/-- What the claims do with the entries that `sdq` still holds once X has retired `EXIT`: those that are filled stay, and every other
one fails with `QUEUE` (R144, R221). `n` is the number of entries. A write port ends its walk with them: it is DONE, at once or once its last
filled entry has been written (log 81, DEDUCED). -/
def failClaim (n : Nat) : List Claim → TeamSt → List Claim × TeamSt
  | [], t => ([], t)
  | .store id :: rest, t =>
    match n with
    | k + 1 => let r := failClaim k rest t; (.store id :: r.1, r.2)
    | 0 =>
      match t.sq.find? fun e => e.id == id with
      | some e => failClaim 0 rest { t.storeFailed .A e.pc .QUEUE e.ea with sq := t.sq.filter fun x => x.id != id }
      | none => failClaim 0 rest t
  | .port p left :: rest, t =>
    let got := min n left
    let q := t.port p
    let t1 := failPort q (q.pos + got) (left - got) t
    let t2 : TeamSt := if got == 0 && q.st == .run then { t1 with ports := tset t1.ports p { q with st := .done, pos := q.pos + left } } else t1
    let r := failClaim (n - got) rest t2
    (if got == 0 then r.1 else .port p got :: r.1, r.2)

/-- Every unfilled claim fails (R144, R221). -/
def TeamSt.failClaims (t : TeamSt) : TeamSt :=
  let r := failClaim t.sdq.length t.claims t
  { r.2 with claims := r.1 }

/-- `EXIT` (R132, R140, R144). -/
def execExit (s : State) : Host.Outcome State Fault Refusal :=
  s.run (headOf .W true) fun s => do
    s.raiseSerr
    let u := s.setSt { s.st with exited := true, loops := [], link := [] }
    .ok (if s.strand == .X then u.setTm u.tm.feed.failClaims else u).goOn

/-- `TRAP` (R133): retires and then faults, in C alone where it is W-tagged. -/
def execTrap (t : Tag) (a : BitVec 6) (n : BitVec 10) (s : State) : Host.Outcome State Fault Refusal :=
  s.run (headOf t (s.follows t || s.srcOk a)) fun s =>
    if s.follows t then .ok s.goOn
    else do
      s.popsOk [a]
      let x ← s.src a
      .ok { x.2.goOn with trap := some ⟨.TRAP, x.1, n.toNat, [], false, none⟩ }

end Sys2Proof.Machine
end

