-- ==== Sys2Proof/Machine/LoadStore.lean ====
section
/-! DEFINITION. Loads, stores and prefetch, OP 0x40 to 0x4B and 0x5B (R139 to R145, R160). -/

namespace Sys2Proof.Machine

/-- Whether a place is a register of the package. -/
def isMmio : Place → Bool
  | .mmio _ => true
  | _ => false

/-- Whether a place is host memory. -/
def isHost : Place → Bool
  | .host _ => true
  | _ => false

/-- An access waits for what its strand must have performed before it: after an MMIO store nothing passes, an MMIO access follows
every earlier access (R354), and a HOST load follows the strand's HOST stores (R367). -/
def State.orderFree (s : State) (p : Place) : Iss Unit :=
  let mine := s.tm.sq.filter fun e => e.strand == s.strand
  if mine.any fun e => isMmio e.place then hold
  else if isMmio p && (!mine.isEmpty || (s.strand == .A && lqLoads s.tm != 0)) then hold
  else if isHost p && mine.any fun e => isHost e.place then hold
  else .ok ()

/-- Whether a load may be performed at its issue: none stands before it in the load queue, and no `ALIGN` marker of its strand
holds it (R126, R354). -/
def State.loadFree (s : State) : Iss Unit :=
  let t := s.tm
  if lqLoads t == 0 && !t.lq.any fun e => match e with | .marker σ ids => σ == s.strand && anyStore t ids | .load .. => false
  then .ok () else hold

/-- The effective address of format M (R44, R135): base and signed offset in units of the access size. -/
def memEa (base : W64) (o : BitVec 7) (size : Nat) : W64 := base + w64 (o.toInt * size)

/-- The checks of a load or store at issue and its translation (R135 to R137, R152). -/
def State.access (s : State) (base ea : W64) (size al pol : Nat) (nd : Need) : Iss (Place × State) := do
  let sp ← s.checkEa s.me base ea size al pol
  boardFree s.tm ea size
  s.placeOf s.me sp size pol nd ea

/-- The lines that the loads of the load queue will lock. -/
def State.pendingLines (s : State) : List (Nat × Bool) :=
  s.tm.lq.flatMap fun x => match x with
    | .load p _ size _ vector _ _ _ _ => s.lockedBy p size vector
    | .marker .. => []

/-- Of lines to be locked, those that take a way of their own: each use of a line that leaves after it, and each other line once. -/
def ownWays : List (Nat × Bool) → List (Nat × Bool)
  | [] => []
  | x :: t => if !x.2 && t.contains x then ownWays t else x :: ownWays t

/-- Whether a set of the L1 has a way for a line that a queued load is to lock (R182): one that neither a `dq` entry nor a load of the load
queue takes. A line that is there, locked, or about to be, is shared, but for a load beyond the L1. -/
def State.wayFor (s : State) (x : Nat × Bool) : Bool :=
  let k := s.core s.cur
  let locked := (l1Set k x.1).filter fun e => e.2.locks != 0
  let here := fun (l : Nat) => locked.any fun e => e.2.line == l && !e.2.stale
  let coming := (ownWays s.pendingLines).filter fun y => y.1 % 256 == x.1 % 256 && (y.2 || !here y.1)
  (!x.2 && (here x.1 || coming.contains x)) || decide (locked.length + coming.length < 8)

/-- A queued load put into the load queue (R139); it waits while a set it needs has every way locked (R182). -/
def State.enqueueLoad (s : State) (p : Place) (ea : W64) (size : Nat) (signed vector : Bool) : Iss State :=
  let e := LqEnt.load p ea size signed vector (markOf s.st) s.st.pc s.tm.nextId false
  if (s.lockedBy p size vector).all s.wayFor then .ok (s.setTm { s.tm with lq := s.tm.lq ++ [e], nextId := s.tm.nextId + 1 }) else hold

/-- A load word (R141): the value through DS, into `dq` for a queued load, or into y1 alone. A queued load of a register is performed at
once (R354), its data fault a poison mark (R139). -/
def State.loadBody (s : State) (size : Nat) (signed : Bool) (d : Bool) (r a : BitVec 6) (p : BitVec 2) (o : BitVec 7) : Iss Done := do
  let queued := s.strand == .A && r == 63 && !d
  s.popsOk [a]
  if queued then dqCheck s.tm else s.room d r
  let x ← s.src a
  let ea := memEa x.1 o size
  let q ← x.2.access x.1 ea size size p.toNat .read
  q.2.orderFree q.1
  if queued && !isMmio q.1 then
    let u ← q.2.enqueueLoad q.1 ea size signed false
    .ok u.goOn
  else do
    q.2.loadFree
    match q.2.doLoad q.2.me q.1 size ea with
    | .ok v =>
      let w := loadVal signed v.1
      if queued then .ok (v.2.pushDq v.2.me { data := .scalar w, locks := [], poison := none, mark := markOf v.2.st }).goOn
      else .ok (v.2.put d r w).goOn
    | .error (.fault f) =>
      if queued then .ok ((q.2.markBad f.bad).pushDq q.2.me (poisoned f (markOf q.2.st))).goOn else .error (.fault f)
    | .error (.stall h) => .error (.stall h)

/-- The head of a load or atomic word (R48). -/
def State.memHead (s : State) (t : Tag) (r a : BitVec 6) : Head := headOf t (tagMem s.cls t && s.destOk r && s.srcOk a)

/-- `LDB` (R141). -/
def execLdb (t : Tag) (d : Bool) (r a : BitVec 6) (p : BitVec 2) (o : BitVec 7) (s : State) : Host.Outcome State Fault Refusal :=
  s.run (s.memHead t r a) fun s => s.loadBody 1 true d r a p o

/-- `LDH` (R141). -/
def execLdh (t : Tag) (d : Bool) (r a : BitVec 6) (p : BitVec 2) (o : BitVec 7) (s : State) : Host.Outcome State Fault Refusal :=
  s.run (s.memHead t r a) fun s => s.loadBody 2 true d r a p o

/-- `LDW` (R141). -/
def execLdw (t : Tag) (d : Bool) (r a : BitVec 6) (p : BitVec 2) (o : BitVec 7) (s : State) : Host.Outcome State Fault Refusal :=
  s.run (s.memHead t r a) fun s => s.loadBody 4 true d r a p o

/-- `LDD` (R141). -/
def execLdd (t : Tag) (d : Bool) (r a : BitVec 6) (p : BitVec 2) (o : BitVec 7) (s : State) : Host.Outcome State Fault Refusal :=
  s.run (s.memHead t r a) fun s => s.loadBody 8 false d r a p o

/-- `LDBZ` (R141). -/
def execLdbz (t : Tag) (d : Bool) (r a : BitVec 6) (p : BitVec 2) (o : BitVec 7) (s : State) : Host.Outcome State Fault Refusal :=
  s.run (s.memHead t r a) fun s => s.loadBody 1 false d r a p o

/-- `LDHZ` (R141). -/
def execLdhz (t : Tag) (d : Bool) (r a : BitVec 6) (p : BitVec 2) (o : BitVec 7) (s : State) : Host.Outcome State Fault Refusal :=
  s.run (s.memHead t r a) fun s => s.loadBody 2 false d r a p o

/-- `LDWZ` (R141). -/
def execLdwz (t : Tag) (d : Bool) (r a : BitVec 6) (p : BitVec 2) (o : BitVec 7) (s : State) : Host.Outcome State Fault Refusal :=
  s.run (s.memHead t r a) fun s => s.loadBody 4 false d r a p o

/-- A store put into the store queue (R142, R143): its data, or a claim on `sdq`, which fails at once where X has retired `EXIT`
(R144). `add` says that the datum is added to what stands there (R173). -/
def State.enqueueStore (s : State) (p : Place) (ea : W64) (size : Nat) (data : Option (List Byte)) (add : Bool := false) : State :=
  let t := s.tm
  let e : StoreEnt := { strand := s.strand, place := p, ea := ea, size := size, data := data, fromSdq := data.isNone, pc := s.st.pc,
                        mark := markOf s.st, id := t.nextId, again := false, add := add }
  let t1 : TeamSt := { t with sq := t.sq ++ [e], nextId := t.nextId + 1,
                              claims := if data.isNone then t.claims ++ [.store t.nextId] else t.claims }
  let t2 := t1.feed
  s.setTm (if t2.x.exited then t2.failClaims else t2)

/-- A store word (R142, R143). -/
def State.storeBody (s : State) (size : Nat) (d : Bool) (v a : BitVec 6) (p : BitVec 2) (o : BitVec 7) : Iss Done := do
  s.popsOk (if d then [a] else [v, a])
  let x ← if d then .ok (0, s) else s.src v
  let y ← x.2.src a
  let ea := memEa y.1 o size
  let q ← y.2.access y.1 ea size size p.toNat .write
  q.2.orderFree q.1
  .ok (q.2.enqueueStore q.1 ea size (if d then none else some (leBytes size x.1.toNat))).goOn

/-- The head of a store word: D = 1 on A alone, with data selector 63 (R48, R143). -/
def State.storeHead (s : State) (t : Tag) (d : Bool) (v a : BitVec 6) : Head :=
  headOf t (tagMem s.cls t && s.srcOk a && (if d then t == .A && v == 63 else s.srcOk v))

/-- `STB` (R142). -/
def execStb (t : Tag) (d : Bool) (v a : BitVec 6) (p : BitVec 2) (o : BitVec 7) (s : State) : Host.Outcome State Fault Refusal :=
  s.run (s.storeHead t d v a) fun s => s.storeBody 1 d v a p o

/-- `STH` (R142). -/
def execSth (t : Tag) (d : Bool) (v a : BitVec 6) (p : BitVec 2) (o : BitVec 7) (s : State) : Host.Outcome State Fault Refusal :=
  s.run (s.storeHead t d v a) fun s => s.storeBody 2 d v a p o

/-- `STW` (R142). -/
def execStw (t : Tag) (d : Bool) (v a : BitVec 6) (p : BitVec 2) (o : BitVec 7) (s : State) : Host.Outcome State Fault Refusal :=
  s.run (s.storeHead t d v a) fun s => s.storeBody 4 d v a p o

/-- `STD` (R142). -/
def execStd (t : Tag) (d : Bool) (v a : BitVec 6) (p : BitVec 2) (o : BitVec 7) (s : State) : Host.Outcome State Fault Refusal :=
  s.run (s.storeHead t d v a) fun s => s.storeBody 8 d v a p o

/-- A line brought toward the level that an access of it has (R160), or with `msc` into the home's cache alone, for which its page is
expanded (R328); of that cache State holds nothing (log 89, DEDUCED): no more than what it has found bad where any check or the filling fails. -/
def State.prefetch (s : State) (base ea : W64) (pol : Nat) (msc : Bool) : State :=
  let r : Iss State := do
    let sp ← s.checkEa s.me base ea 64 64 pol
    let q ← s.placeOf s.me sp 64 pol .read ea
    let u := q.2
    match q.1 with
    | .mem at_ pol =>
      let pa := u.forward at_
      let lvl := u.tierLvl at_ pol
      if isKick pa then .ok u
      else if msc then u.reachHome u.me pa ea
      else if lvl == .l1 then (u.l1Fill u.me (pa / 64) .l2 false ea).map (·.2)
      else if lvlAt s.cur.site lvl == .l2 then (u.l2Read u.me s.cur.site (pa / 64) ea).map (·.2)
      else u.reachHome u.me pa ea
    | _ => .ok u
  match r with
  | .ok u => u
  | .error (.fault f) => s.markBad f.bad
  | .error (.stall h) => s.waited h

/-- The base pointer of a `PREF`, its entry popped where it names a queue or port (R25, R160): none where the pop meets a fault, which
drops the request. A poisoned `dq` entry is popped and its locks released (R32, R182). -/
def State.prefBase (s : State) (a : BitVec 6) : Iss (Option W64 × State) :=
  match s.popsOk [a], s.src a with
  | .error (.stall h), _ => .error (.stall h)
  | .error (.fault _), _ => .ok (none, s)
  | .ok _, .ok x => .ok (some x.1, x.2)
  | .ok _, .error (.stall h) => .error (.stall h)
  | .ok _, .error (.fault _) =>
    match s.tm.dq with
    | e :: t => .ok (none, (s.setTm { s.tm with dq := t }).l1UnlockAll s.me e.locks)
    | [] => .ok (none, s)

/-- `PREF` (R160, R328): D = 1 brings the line into the home MSC only. -/
def execPref (t : Tag) (d : Bool) (a : BitVec 6) (p : BitVec 2) (o : BitVec 7) (s : State) : Host.Outcome State Fault Refusal :=
  s.run (headOf t (tagMem s.cls t && s.srcOk a)) fun s => do
    let x ← s.prefBase a
    .ok (match x.1 with
      | some b => x.2.prefetch b ((memEa b o 64 >>> 6) <<< 6) p.toNat d
      | none => x.2).goOn

end Sys2Proof.Machine
end

