-- ==== Sys2Proof/Machine/FullEmpty.lean ====
section
/-! DEFINITION. Full/empty operations, OP 0x4C to 0x4E (R146, R147, R275 to R278, R361). -/

namespace Sys2Proof.Machine

/-- Whether a pointer names a word of the cluster scratchpad from a core: CSP, and DSP on a CUB die (R146, R147). -/
def cspPointer (c : CoreId) (p : W64) : Bool :=
  let k := Config.kindAt c.site
  (tagNum p == 1 && decide (0 < Config.clusterCores k)) || (tagNum p == 5 && k == .cub)

/-- The checks of a full/empty access of one word, giving its offset (R135, R136, R146). -/
def State.feCheck (s : State) (base ea : W64) : Iss Nat := do
  need (cspPointer s.cur base) .SPACE ea 0
  need (tagNum ea == tagNum base) .BOUNDS ea 0
  need (ea.toNat % 4 == 0) .ALIGN ea 0
  need (s.rangeOk s.me ea 4) .BOUNDS ea 0
  boardFree s.tm ea 4
  .ok (offOf ea)

/-- A full/empty operation is performed in its place of its queue and is a release (R354, R361): no load stands before it, and the earlier
stores of its strand have been performed; an `STF` or `FEFILL` stands in the store queue, behind the stores of every strand. -/
def State.feFree (s : State) (store : Bool) : Iss Unit := do
  s.loadFree
  if if store then s.tm.sq.isEmpty else (strandStores s.tm s.strand).isEmpty then .ok () else hold

/-- Whether a waiter record is that of the running strand: a swapped one is that of a team that is away. -/
def State.mine (s : State) (x : Waiter) : Bool := x.core == s.cur.core && x.strand == s.strand && !x.swapped

/-- The cluster of the running core. -/
def State.myCluster (s : State) : Cluster := s.cluster s.cur.site (clusterOf s.cur)

/-- The state with the running core's cluster changed. -/
def State.setMyCluster (s : State) (c : Cluster) : State := s.setCluster s.cur.site (clusterOf s.cur) c

/-- The running strand's waiter record freed. -/
def State.freeWaiter (s : State) : State :=
  let c := s.myCluster
  s.setMyCluster { c with waiters := c.waiters.filter fun x => !s.mine x }

/-- A wait entered in the cluster's records (R275), or a polled wait where all 256 are in use (R278). -/
def State.addWaiter (s : State) (off : Nat) (full take : Bool) (datum : Option W32) : State :=
  let c := s.myCluster
  if c.waiters.any s.mine then s
  else
    let polled := decide (256 ≤ (c.waiters.filter fun x => !x.polled).length)
    s.setMyCluster { c with waiters := c.waiters ++
      [{ off := off, full := full, take := take, datum := datum, core := s.cur.core, strand := s.strand, team := teamTag s.tm, swapped := false, polled := polled }] }

/-- One full/empty operation of the running strand on a word (R146, R275): its value where the scratchpad has performed it or it can
be performed now, else none with the wait recorded. An operation that waits for nothing has condition none. -/
def State.feOp (s : State) (ea : W64) (off : Nat) (cond : Option Bool) (take : Bool) (datum : Option W32) : Iss (Option W64 × State) :=
  match s.st.feDone with
  | some none => flt .POISON ea 0
  | some (some v) => (s.acquired s.me).map fun u => (some v, u)
  | none => do
    s.feFree datum.isSome
    let s1 ← s.released s.me
    let c := s1.myCluster
    let ready := match cond with
      | some f => tget false c.full (off / 4) == f
      | none => true
    if !ready then .ok (none, s1.addWaiter off (cond.getD true) take datum)
    else if datum.isNone && tget false c.bad (off / 4) then flt .POISON ea 0
    else
      let x : Waiter := { off := off, full := cond.getD true, take := take, datum := datum, core := s.cur.core, strand := s.strand,
                          team := teamTag s.tm, swapped := false, polled := false }
      let s2 := s1.freeWaiter
      let was := tget false c.full (off / 4)
      let s3 := s2.setMyCluster (waiterDo s2.myCluster x)
      let s4 := if tget false s3.myCluster.full (off / 4) == was then s3 else s3.serviceScan s.cur.site (clusterOf s.cur) off
      (s4.acquired s.me).map fun u => (some (waiterVal c x), u)

/-- `LDF` (R146). -/
def execLdf (t : Tag) (d : Bool) (r a : BitVec 6) (p : BitVec 2) (o : BitVec 7) (s : State) : Host.Outcome State Fault Refusal :=
  s.run (headOf t (tagCA t && s.destOk r && s.srcOk a && p < 2)) fun s => do
    let toDq := s.strand == .A && r == 63 && !d
    s.popsOk [a]
    if toDq then dqCheck s.tm else s.room d r
    let x ← s.src a
    let ea := memEa x.1 o 4
    let off ← s.feCheck x.1 ea
    let q ← x.2.feOp ea off (some true) (p == 1) none
    match q.1 with
    | none => do
      let h ← s.feOp ea off (some true) (p == 1) none
      .ok (h.2.waitOn waitFe)
    | some v =>
      if toDq then .ok (q.2.pushDq q.2.me { data := .scalar v, locks := [], poison := none, mark := markOf q.2.st }).goOn
      else .ok (q.2.put d r v).goOn

/-- `STF` (R146): POL 0 waits for empty, POL 1 writes at once. Bit D has no meaning in its entry, and the word runs whatever it is
(log 39, DESIGN CHOICE). -/
def execStf (t : Tag) (_d : Bool) (v a : BitVec 6) (p : BitVec 2) (o : BitVec 7) (s : State) : Host.Outcome State Fault Refusal :=
  s.run (headOf t (tagCA t && s.srcOk v && s.srcOk a && p < 2)) fun s => do
    s.popsOk [v, a]
    let x ← s.src v
    let y ← x.2.src a
    let ea := memEa y.1 o 4
    let off ← s.feCheck y.1 ea
    let cond := if p == 0 then some false else none
    let q ← y.2.feOp ea off cond false (some (lo32 x.1))
    match q.1 with
    | none => do
      let h ← s.feOp ea off cond false (some (lo32 x.1))
      .ok (h.2.waitOn waitFe)
    | some _ => .ok q.2.goOn

/-- Words from an offset on marked one by one in ascending order, with the number of those that changed (R147). -/
def State.fillMarks (s : State) (full : Bool) (off : Nat) (count : Nat) : Nat → State × Nat
  | 0 => (s, count)
  | n + 1 =>
    if tget false s.myCluster.full (off / 4) == full then s.fillMarks full (off + 4) count n
    else (s.markWord s.cur.site (clusterOf s.cur) off full).fillMarks full (off + 4) (count + 1) n

/-- `FEFILL` (R147). -/
def execFefill (t : Tag) (d : Bool) (r a b : BitVec 6) (f : BitVec 3) (s : State) : Host.Outcome State Fault Refusal :=
  s.run (headOf t (tagCA t && s.destOk r && s.srcOk a && s.srcOk b && f < 2)) fun s => do
    s.popsOk [a, b]
    s.room d r
    let x ← s.src a
    let y ← x.2.src b
    let n := y.1.toNat
    need (cspPointer s.cur x.1) .SPACE x.1 0
    need (x.1.toNat % 4 == 0) .ALIGN x.1 0
    need (n != 0 && n % 4 == 0 && n ≤ 65536) .FE x.1 0
    need (s.rangeOk s.me x.1 n) .BOUNDS x.1 0
    s.feFree true
    let v ← y.2.released s.me
    let q := v.fillMarks (f == 1) (offOf x.1) 0 (n / 4)
    let u ← q.1.acquired s.me
    .ok (u.put d r (BitVec.ofNat 64 q.2)).goOn

end Sys2Proof.Machine
end

