-- ==== Sys2Proof/Machine/Copies.lean ====
section
/-! DEFINITION. Copies: `CPY`, `CPYW`, `CPYS`, OP 0x50 to 0x52, and the copy engine's own steps (R148 to R154, R364). A copy of a
team that is away from its core runs on (R152). -/

namespace Sys2Proof.Machine

/-- The teams that are away and left a core, with the place where each is kept. -/
def State.awaysOf (s : State) (c : CoreId) : List (Nat × Nat × Away) :=
  s.drovers.flatMap fun d => ((d.2.away.zipIdx).filter fun a => a.1.from_ == c).map fun a => (d.1, a.2, a.1)

/-- The team whose copies a core carries: number 0 is the resident team, number k + 1 the k-th that is away from it. -/
def State.teamN (s : State) (c : CoreId) (k : Nat) : Option TeamSt :=
  if k == 0 then some (s.team c) else ((s.awaysOf c)[k - 1]?).map fun a => a.2.2.team

/-- The state with such a team changed. -/
def State.setTeamN (s : State) (c : CoreId) (k : Nat) (t : TeamSt) : State :=
  if k == 0 then s.setTeam c t
  else match (s.awaysOf c)[k - 1]? with
    | some (d, i, a) => s.setDrv d { s.drv d with away := (s.drv d).away.set i { a with team := t } }
    | none => s

/-- The level of a copy's DEV end (R149): `.l2`, or `.home` where R138 selects `.home` or `.strm`. -/
def copyLvl : Place → Place
  | .mem pa .l1 => .mem pa .l2
  | p => p

/-- Bytes read by a copy, a port or another engine beyond the L1, line by line; the L1 is not asked (R149, R218). -/
def State.readBeyond (s : State) (w : Who) (lvl : Lvl) (pa n : Nat) (ea : W64) : Nat → Iss (List Byte × State)
  | 0 => .ok ([], s)
  | k + 1 =>
    if n == 0 then .ok ([], s)
    else do
      let m := firstPart pa n
      let r ← if isKick pa then s.kickRead w pa m ea else s.cohRead w lvl pa m ea
      let q ← r.2.readBeyond w lvl (pa + m) (n - m) ea k
      .ok (r.1 ++ q.1, q.2)

/-- Bytes written by such an engine beyond the L1. -/
def State.writeBeyond (s : State) (w : Who) (lvl : Lvl) (pa : Nat) (data : List Byte) (ea : W64) : Nat → Iss State
  | 0 => .ok s
  | k + 1 =>
    if data.isEmpty then .ok s
    else do
      let m := firstPart pa data.length
      let t ← if isKick pa then s.kickRange w pa m ea else s.cohWrite w lvl pa (data.take m) ea
      t.writeBeyond w lvl (pa + m) (data.drop m) ea k

/-- A read performed by an engine of the core that does not go through the L1 (R149, R218, R249). -/
def State.engineRead (s : State) (w : Who) (p : Place) (n : Nat) (ea : W64) : Iss (List Byte × State) :=
  match copyLvl p with
  | .mem pa lvl => s.readBeyond w lvl pa n ea (n / 64 + 2)
  | q => s.doLoad w q n ea

/-- A write performed by an engine of the core that does not go through the L1. -/
def State.engineWrite (s : State) (w : Who) (p : Place) (data : List Byte) (ea : W64) : Iss State :=
  match copyLvl p with
  | .mem pa lvl => s.writeBeyond w lvl pa data ea (data.length / 64 + 2)
  | q => s.doStore w q data ea

/-- The range of an access of an engine, checked and translated (R137 orders 5 and 6). -/
def State.enginePlace (s : State) (w : Who) (ea : W64) (n : Nat) (nd : Need) : Iss (Place × State) := do
  need (s.rangeOk w ea n) .BOUNDS ea 0
  s.placeOf w (spotOf w ea) n 0 nd ea

/-- A range cut where a page may end. -/
def pageParts (ea : W64) (n : Nat) : List (W64 × Nat) :=
  let m := min n (65536 - ea.toNat % 65536)
  if m < n then [(ea, m), (ea + BitVec.ofNat 64 m, n - m)] else [(ea, n)]

/-- The parts of a range translated (R137 orders 5 and 6). -/
def State.partPlaces (s : State) (w : Who) (nd : Need) : List (W64 × Nat) → Iss (List (Place × W64 × Nat) × State)
  | [] => .ok ([], s)
  | (ea, n) :: t => do
    let p ← s.placeOf w (spotOf w ea) n 0 nd ea
    let q ← p.2.partPlaces w nd t
    .ok ((p.1, ea, n) :: q.1, q.2)

/-- The parts of a range read (R149, R253). -/
def State.readParts (s : State) (w : Who) : List (Place × W64 × Nat) → Iss (List Byte × State)
  | [] => .ok ([], s)
  | (p, ea, n) :: t => do
    let r ← s.engineRead w p n ea
    let q ← r.2.readParts w t
    .ok (r.1 ++ q.1, q.2)

/-- The parts of a range written. -/
def State.writeParts (s : State) (w : Who) : List (Place × W64 × Nat) → List Byte → Iss State
  | [], _ => .ok s
  | (p, ea, n) :: t, b => do
    let u ← s.engineWrite w p (b.take n) ea
    u.writeParts w t (b.drop n)

/-- What a copy moves next of its destination: a whole 64-byte piece at once, which clears its poison (R296), else the bytes that lie in
one aligned word. -/
def moveSize (tgt left : Nat) : Nat := if tgt % 64 == 0 && decide (64 ≤ left) then 64 else min (8 - tgt % 8) left

/-- How far a copy reads to have `n` more bytes of its source, of which it has `a` already: to the end of the aligned 8-byte word that holds
the last of them, so that every source word is read whole (R353, R364). -/
def readSize (src len done a n : Nat) : Nat := if n ≤ a then 0 else min (((src + done + n + 7) / 8 * 8) - (src + done + a)) (len - done - a)

/-- The next part of a copy moved (R149, R353, R364): the bytes it moved, and the source bytes it has read beyond them. -/
def State.moveWord (s : State) (w : Who) (e : CopyEnt) : Iss (Nat × List Byte × State) := do
  let tgt := e.dst + BitVec.ofNat 64 e.done
  let n := moveSize tgt.toNat (e.len - e.done)
  let fr := e.src + BitVec.ofNat 64 (e.done + e.ahead.length)
  let m := readSize e.src.toNat e.len e.done e.ahead.length n
  need (m == 0 || s.rangeOk w fr m) .BOUNDS fr 0
  let p ← if m == 0 then .ok ([], s) else s.partPlaces w .read (pageParts fr m)
  let r ← p.2.readParts w p.1
  let b := e.ahead ++ r.1
  let q ← r.2.enginePlace w tgt n .write
  let u ← q.2.engineWrite w q.1 (b.take n) tgt
  .ok (n, b.drop n, u)

/-- A copy held by a fault (R150): its record, with the resume offset, and the suspension that the record owns. -/
def State.holdCopy (s : State) (c : CoreId) (k e : Nat) (t : TeamSt) (ent : CopyEnt) (f : Flt) : State :=
  let d := droverOf c t
  let q := (s.drv d).suspend true true
  let s1 := s.setDrv d q.2
  let r : Record := { s.recordOf c t (strandNum ent.strand) ent.pc { f with aux := ent.done } with
    held := true, susp := false, handle := some (q.2.handleNo q.1) }
  (s1.setTeamN c k { t with board := tset t.board e { ent with st := .held f.code f.addr, handle := some q.1 } }).raiseRecord d r

/-- A swapped team told that one of its own copies has ended: a wait for it is over, and one for a range once no copy overlaps that any more
(R152, R187). -/
def copyMet (id : Option TeamId) (seq : W64) (a : Away) : Away :=
  if a.team.id != id then a
  else a.met fun w => match w with
    | .ticket t => t == seq
    | .anyCopy => a.team.board.isEmpty
    | .range ea n src => !boardBusy a.team.board ea n src
    | .board => true
    | _ => false

/-- The team of a copy that has ended told so, where it is away. -/
def State.copyTold (s : State) (id : Option TeamId) (ticket : W64) : State :=
  { s with drovers := tmap (fun _ (d : Drover) => { d with away := d.away.map (copyMet id ticket) }) s.drovers }

/-- The ticket of a copy (R148). -/
def ticketOf (seq : BitVec 16) (e : Nat) : W64 := packW [(seq.toNat, 16), (e, 0)]

/-- A copy taken off the scoreboard with its status (R151, R154). -/
def TeamSt.endCopy (t : TeamSt) (e : Nat) (ent : CopyEnt) (status : W64) : TeamSt :=
  { t with board := tdel t.board e,
           ends := { entry := e, seq := ent.seq, status := status } :: t.ends.filter (·.entry != e),
           tickets := if ent.fn == 1 then t.tickets ++ [ticketOf ent.seq e] else t.tickets }

/-- Tickets pushed to `xc` while it has room, unless C has retired `EXIT` (R151); those of a team that is away wait for its resume, since its
`xc` stands in its context area (R184, R185). -/
def pushTickets : Nat → TeamSt → TeamSt
  | 0, t => t
  | n + 1, t =>
    match t.tickets with
    | [] => t
    | v :: rest => if t.xc.length < 16 then pushTickets n { t with xc := t.xc ++ [{ val := v, mark := 0 }], tickets := rest } else t

/-- What the set-full action releases (R361): the accesses that the issuing strand made before its `CPY` are performed, and the dirty lines
of its core are written back; a team that is away has written them back already. None where one has to wait. -/
def State.copyRelease (s : State) (c : CoreId) (k : Nat) (t : TeamSt) (ent : CopyEnt) : Option State :=
  if (t.sq ++ t.scat).any (fun e => e.strand == ent.strand && decide (e.id < ent.before)) ||
      (ent.strand == .A && t.lq.any fun e => match e with | .load _ _ _ _ _ _ _ id _ => decide (id < ent.before) | .marker .. => false) then none
  else if k != 0 then some s
  else match s.released (s.who c) with | .ok u => some u | .error _ => none

/-- The completion action of a copy with set-full (R151, R361): a release, the mark, and an acquire. None where it has to wait. -/
def State.copyMark (s : State) (c : CoreId) (k : Nat) (t : TeamSt) (ent : CopyEnt) : Option State :=
  if ent.fn != 2 then some s
  else (s.copyRelease c k t ent).bind fun u =>
    let v := u.markWord c.site (clusterOf c) (offOf ent.dst + ent.len) true
    if k != 0 then some v else match v.acquired (v.who c) with | .ok z => some z | .error _ => none

/-- A copy complete (R151): its completion action, then its entry freed. None where the action has to wait. -/
def State.completeCopy (s : State) (c : CoreId) (k e : Nat) (t : TeamSt) (ent : CopyEnt) : Option State :=
  (s.copyMark c k t ent).map fun s1 =>
    let t1 := ((s1.teamN c k).getD t).endCopy e ent (BitVec.ofNat 64 ent.len)
    (s1.setTeamN c k (if k == 0 then pushTickets 8 t1 else t1)).copyTold t.id (ticketOf ent.seq e)

/-- One word of a running copy moved, or the copy held where that faults (R149, R150). Entry `n` is entry `n % 8` of team number
`n / 8` of the core. -/
def State.copyWord (s : State) (c : CoreId) (n : Nat) : State :=
  match s.teamN c (n / 8) with
  | none => s
  | some t =>
    match tget? t.board (n % 8) with
    | none => s
    | some ent =>
      if ent.st != .running || ent.len ≤ ent.done then s
      else match s.moveWord (whoOf c t) ent with
        | .ok (m, b, u) =>
          match u.teamN c (n / 8) with
          | some t' => u.setTeamN c (n / 8) { t' with board := tset t'.board (n % 8) { ent with done := ent.done + m, ahead := b } }
          | none => s
        | .error (.stall h) => s.waited h
        | .error (.fault f) =>
          let s1 := s.markBad f.bad
          s1.holdCopy c (n / 8) (n % 8) t ent f

/-- `COPY_FAULT_HOLD` (R150): the next word of a running copy faults, and the copy is held. -/
def execCopyFaultHold (s : State) : Host.Outcome State Fault Refusal :=
  let c := s.ev.core
  let n := s.ev.n
  .next (match s.teamN c (n / 8) with
    | none => s
    | some t =>
      match tget? t.board (n % 8) with
      | none => s
      | some ent =>
        if ent.st != .running || ent.len ≤ ent.done then s
        else match s.moveWord (whoOf c t) ent with
          | .error (.fault f) => (s.markBad f.bad).holdCopy c (n / 8) (n % 8) t ent f
          | _ => s)

/-- `COPY_COMPLETE` (R151): a copy whose every byte is performed ends; tickets that a full `xc` held back are pushed. -/
def execCopyComplete (s : State) : Host.Outcome State Fault Refusal :=
  let c := s.ev.core
  let n := s.ev.n
  .next (match s.teamN c (n / 8) with
    | none => s
    | some t =>
      match tget? t.board (n % 8) with
      | none => if n < 8 then s.setTeamN c 0 (pushTickets t.tickets.length t) else s
      | some ent => if ent.st == .running && ent.len ≤ ent.done then (s.completeCopy c (n / 8) (n % 8) t ent).getD (s.waited (s.flushHold (s.who c))) else s)

/-! ### The words -/

/-- The checks of `CPY` at issue (R148). -/
def State.copyCheck (s : State) (dst src : W64) (len : Nat) (fn : Nat) : Iss Unit := do
  let w := s.me
  need (tagNum dst != 6 && s.spaceOk w dst 0 && s.eaOk w dst) .SPACE dst 0
  need (tagNum src != 6 && s.spaceOk w src 0 && s.eaOk w src) .SPACE src 0
  need (len < 2 ^ 40) .BOUNDS dst 0
  need (!overlaps dst.toNat len src.toNat len) .BOUNDS dst 0
  need (s.rangeOk w dst len) .BOUNDS dst 0
  need (s.rangeOk w src len) .BOUNDS src 0
  let word := dst + BitVec.ofNat 64 len
  need (fn != 2 || (cspPointer s.cur dst && word.toNat % 4 == 0 && s.rangeOk w word 4)) .FE word 0

/-- A copy that overlaps what the scoreboard records waits (R152). -/
def State.copyFree (s : State) (dst src : W64) (len : Nat) : Iss Unit :=
  if boardBusy s.tm.board dst len (some src) then rangeHold dst len (some src) else .ok ()

/-- `CPY` (R148): destination, source and length are read in that order; the ticket enters y1. A copy of length 0 completes at
once, or, with set-full, once what that releases is performed (R361). -/
def execCpy (t : Tag) (r a b : BitVec 6) (f : BitVec 3) (s : State) : Host.Outcome State Fault Refusal :=
  s.run (headOf t (tagMem s.cls t && s.srcOk r && s.srcOk a && s.srcOk b && f < 3)) fun s => do
    s.popsOk [r, a, b]
    let x ← s.src r
    let y ← x.2.src a
    let z ← y.2.src b
    let len := z.1.toNat
    s.copyCheck x.1 y.1 len f.toNat
    s.copyFree x.1 y.1 len
    match tfree s.tm.board 8 with
    | none => longHold waitBoard
    | some e =>
      let u := z.2
      let tm := u.tm
      let ent : CopyEnt := { seq := tm.copySeq, dst := x.1, src := y.1, len := len, fn := f.toNat, done := 0, st := .running,
                             strand := s.strand, pc := s.st.pc, handle := none, before := tm.nextId, ahead := [] }
      let v := u.setTm { tm with board := tset tm.board e ent, copySeq := tm.copySeq + 1, ends := tm.ends.filter (·.entry != e) }
      let v' := if len == 0 then (v.completeCopy s.cur 0 e v.tm ent).getD v else v
      .ok (v'.pushLat (ticketOf ent.seq e)).goOn

/-- The entry that a ticket's copy still holds (R153). -/
def TeamSt.copyOf (t : TeamSt) (ticket : W64) : Option CopyEnt :=
  match tget? t.board (fieldW ticket 2 0) with
  | some e => if ticket == ticketOf e.seq (fieldW ticket 2 0) then some e else none
  | none => none

/-- `CPYW` (R153). -/
def execCpyw (t : Tag) (a : BitVec 6) (n : BitVec 10) (s : State) : Host.Outcome State Fault Refusal :=
  s.run (headOf t (tagMem s.cls t && n < 2 && (if n == 0 then s.srcOk a else a == 0))) fun s =>
    if n == 1 then (if s.tm.board.isEmpty then .ok s.goOn else longHold waitCopy)
    else do
      s.popsOk [a]
      let x ← s.src a
      if (s.tm.copyOf x.1).isSome then longHold waitCopy else .ok x.2.goOn

/-- The status of a ticket (R154). -/
def TeamSt.copyStatus (t : TeamSt) (ticket : W64) : W64 :=
  match t.copyOf ticket with
  | some e => packW [(e.done, 0), (0xFF, 56)]
  | none =>
    match t.ends.find? fun e => ticket == ticketOf e.seq e.entry with
    | some e => e.status
    | none => packW [(0xFE, 56)]

/-- `CPYS` (R154). -/
def execCpys (t : Tag) (r a : BitVec 6) (s : State) : Host.Outcome State Fault Refusal :=
  s.run (headOf t (tagMem s.cls t && s.destOk r && s.srcOk a)) fun s => s.frameI false r a fun x => s.tm.copyStatus x

end Sys2Proof.Machine
end

