-- ==== Sys2Proof/Machine/Atomics.lean ====
section
/-! DEFINITION. Atomics, OP 0x54 to 0x58 (R155 to R157). -/

namespace Sys2Proof.Machine

/-- An atomic is performed after every earlier load and store of its strand (R157), and in its place of the core's two queues
(R354). -/
def State.atomFree (s : State) : Iss Unit := do
  s.loadFree
  if s.tm.sq.isEmpty then .ok () else hold

/-- An atomic word (R155): the old value through DS as a load gives it. `cas` says that DS is also the expected value. -/
def State.atomBody (s : State) (op : AtomOp) (d : Bool) (r a b : BitVec 6) : Iss Done := do
  let queued := s.strand == .A && r == 63 && !d
  s.popsOk [a, b]
  if queued then dqCheck s.tm else s.room d r
  let x ← s.src a
  let y ← x.2.src b
  let ea := x.1
  let w := s.me
  let n := atomSize op
  need (atomAllowed op (tagNum ea)) .SPACE ea 0
  s.checkSpace w ea ea 0
  need (ea.toNat % n == 0) .ALIGN ea 0
  need (s.rangeOk w ea n) .BOUNDS ea 0
  boardFree s.tm ea n
  let q ← y.2.placeOf w (spotOf w ea) n 0 .both ea
  s.atomFree
  let v ← q.2.doAtomic w (atomPlace (spotOf w ea) q.1) op y.1 (if r.toNat < 48 then s.reg r.toNat else 0) ea
  let old := atomRet op v.1
  if queued then .ok (v.2.pushDq w { data := .scalar old, locks := [], poison := none, mark := markOf v.2.st }).goOn
  else .ok (v.2.put d r old).goOn

/-- The head of an atomic word. -/
def State.atomHead (s : State) (t : Tag) (r a b : BitVec 6) (fnOk : Bool) : Head :=
  headOf t (tagMem s.cls t && s.destOk r && s.srcOk a && s.srcOk b && fnOk)

/-- `AMO` (R155). -/
def execAmo (t : Tag) (d : Bool) (r a b : BitVec 6) (f : BitVec 3) (s : State) : Host.Outcome State Fault Refusal :=
  s.run (s.atomHead t r a b true) fun s => s.atomBody (.amo f) d r a b

/-- `AMOW` (R155). -/
def execAmow (t : Tag) (d : Bool) (r a b : BitVec 6) (f : BitVec 3) (s : State) : Host.Outcome State Fault Refusal :=
  s.run (s.atomHead t r a b true) fun s => s.atomBody (.amow f) d r a b

/-- `CAS` (R155): the register is the expected value and receives the old one. -/
def execCas (t : Tag) (r a b : BitVec 6) (s : State) : Host.Outcome State Fault Refusal :=
  s.run (s.atomHead t r a b (regOk r)) fun s => s.atomBody .cas false r a b

/-- `CASW` (R155). -/
def execCasw (t : Tag) (r a b : BitVec 6) (s : State) : Host.Outcome State Fault Refusal :=
  s.run (s.atomHead t r a b (regOk r)) fun s => s.atomBody .casw false r a b

/-- `AMOF` (R155). -/
def execAmof (t : Tag) (d : Bool) (r a b : BitVec 6) (f : BitVec 3) (s : State) : Host.Outcome State Fault Refusal :=
  s.run (s.atomHead t r a b (f < 4)) fun s => s.atomBody (.amof f) d r a b

end Sys2Proof.Machine
end

