-- ==== Sys2Proof/Machine/Buffers.lean ====
section
/-! DEFINITION. Page pools, buffers, brands and the open windows (R169 to R171, R377, R381 to R386). -/

namespace Sys2Proof.Machine

/-! ### Page pools (R398: BPOOL) -/

/-- Pages taken from the lowest range that has enough. -/
def poolTake (n : Nat) : List (Nat × Nat) → Option (Nat × List (Nat × Nat))
  | [] => none
  | (p, k) :: t =>
    if n ≤ k then some (p, if n == k then t else (p + n, k - n) :: t)
    else (poolTake n t).map fun r => (r.1, (p, k) :: r.2)

/-- Pages given back to a list of ranges in rising order. -/
def poolGive (p n : Nat) : List (Nat × Nat) → List (Nat × Nat)
  | [] => [(p, n)]
  | (q, k) :: t =>
    if p + n < q then (p, n) :: (q, k) :: t
    else if p + n == q then (p, n + k) :: t
    else if q + k == p then poolGive q (k + n) t
    else (q, k) :: poolGive p n t

/-- The free ranges of a fold's page pool on a drover: all of BPOOL where nothing has been taken since it was written. -/
def Drover.pool (d : Drover) (f : Nat) : List (Nat × Nat) :=
  match tget? d.pools f with
  | some l => l
  | none =>
    let e := tget (0, 0) d.bpool f
    if e.2 == 0 then [] else [(e.1.toNat / 65536, e.2.toNat)]

/-- Consecutive pages taken from a fold's pool. -/
def Drover.takePages (d : Drover) (f n : Nat) : Option (Nat × Drover) :=
  (poolTake n (d.pool f)).map fun r => (r.1, { d with pools := tset d.pools f r.2 })

/-- Pages given back to a fold's pool. -/
def Drover.givePages (d : Drover) (f page n : Nat) : Drover := { d with pools := tset d.pools f (poolGive page n (d.pool f)) }

/-- The pages of so many bytes. -/
def pagesOf (len : Nat) : Nat := (len + 65535) / 65536

/-! ### Brands (R169, R381, R382) -/

/-- A brand's buffer: the drover die and the record index. -/
def brDrv (b : W128) : Nat := (b >>> 127).toNat
/-- The record index of a brand's buffer. -/
def brIdx (b : W128) : Nat := ((b >>> 96) &&& 0xFFFF).toNat
/-- A brand's generation. -/
def brGen (b : W128) : Nat := ((b >>> 80) &&& 0xFFFF).toNat
/-- A brand's rights byte. -/
def brRights (b : W128) : BitVec 8 := (b >>> 72).setWidth 8
/-- A brand's fold. -/
def brFold (b : W128) : Nat := ((b >>> 69) &&& 7).toNat
/-- A brand's check field. -/
def brCheck (b : W128) : W64 := b.setWidth 64
/-- A brand's buffer in one number. -/
def brBuf (b : W128) : Nat := brDrv b * 65536 + brIdx b

/-- The buffer id of R381. -/
def bufId (d idx : Nat) : W32 := BitVec.ofNat 32 (d * 2 ^ 31 + idx)

/-- A buffer's record. -/
def State.buf (s : State) (d idx : Nat) : Buf := tget Buf.reset (s.drv d).bufs idx

/-- The state with a buffer's record changed. -/
def State.setBuf (s : State) (d idx : Nat) (b : Buf) : State := s.setDrv d { s.drv d with bufs := tset (s.drv d).bufs idx b }

/-- The check field that the drover computes for the upper half of a brand (R382). -/
def State.brandHash (s : State) (d f : Nat) (top : W64) : W64 := Config.brandHash (tget 0 (s.drv d).bkeys f) top

/-- A brand made by the drover for a buffer with some rights (R169, R382). -/
def State.makeBrand (s : State) (d idx : Nat) (rights : BitVec 6) : W128 :=
  let b := s.buf d idx
  let top : W64 := packW [((bufId d idx).toNat, 32), (b.gen, 16), (rights.toNat, 8), (b.fold, 5)]
  top ++ s.brandHash d b.fold top

/-- Check 1 of R169 but for the slot of a view. -/
def State.brandOk (s : State) (fold : Nat) (b : W128) : Bool :=
  let r := s.buf (brDrv b) (brIdx b)
  b != 0 && brCheck b == s.brandHash (brDrv b) (brFold b) (b >>> 64 |>.setWidth 64) && brFold b == fold && r.live && brGen b == r.gen

/-! ### Open windows (R170, R377) -/

/-- The drover as the requester that reads and writes the tables of an ASID's open window. -/
def winWho (d f asid : Nat) : Who := { c := ⟨Config.drvSite d, 0⟩, fold := some f, asid := asid, loc := 0, drv := d, size := 0 }

/-- A new table for the PTE at an address: a page of the fold's BPOOL, its first 4 KiB zero (R377, log 50). -/
def State.newTable (s : State) (w : Who) (f at_ : Nat) : Iss (Nat × State) :=
  match (s.drv w.drv).takePages f 1 with
  | none => hold
  | some (p, v) => do
    let s1 := s.setDrv w.drv { v with tables := { asid := w.asid, fold := f, page := p, at_ := at_ } :: v.tables }
    let s2 ← s1.doStore w (.mem (p * 65536) .home) (List.replicate 4096 0) 0
    let s3 ← s2.cohWrite w.walker .home at_ (leBytes 8 (p * 65536 + 1)) 0
    .ok (p * 65536, s3)

/-- The level 3 table for an address of an open window, from a table of a level on (R299, R377). -/
def State.winTable (s : State) (w : Who) (f va : Nat) : Nat → Nat → Nat → Iss (Nat × State)
  | 0, base, _ => .ok (base, s)
  | n + 1, base, level => do
    let at_ := base + 8 * bits va (51 - 9 * level) (43 - 9 * level)
    let r ← s.walkLoad w at_ 0
    let q ← if bit r.1 0 then .ok (bits r.1 47 12 * 4096, r.2) else r.2.newTable w f at_
    q.2.winTable w f va n q.1 (level + 1)

/-- The leaf of a page in an open window written (R377). -/
def State.setLeaf (s : State) (w : Who) (f va pte : Nat) : Iss State := do
  let r ← s.walkRoot w 0
  let t ← r.2.winTable w f va 3 r.1 0
  t.2.cohWrite w.walker .home (t.1 + 8 * bits va 24 16) (leBytes 8 pte) 0

/-- The leaves of so many pages from a physical page on written, with the flags of their PTEs (R300); flags 0 remove them. -/
def State.setLeaves (s : State) (w : Who) (f flags : Nat) : Nat → Nat → Iss State
  | 0, _ => .ok s
  | n + 1, p => do
    let u ← s.setLeaf w f (2 ^ 51 + p * 65536) (if flags == 0 then 0 else p * 65536 + flags)
    u.setLeaves w f flags n (p + 1)

/-- The mapping of a buffer in an ASID, ended or not. -/
def Drover.winOf (d : Drover) (asid buf : Nat) : Option Window := d.wins.find? fun x => x.asid == asid && x.buf == buf

/-- The mapping of a buffer in an ASID set. -/
def Drover.setWin (d : Drover) (x : Window) : Drover :=
  { d with wins := x :: d.wins.filter fun y => !(y.asid == x.asid && y.buf == x.buf) }

/-- Whether the invalidation of a mapping that has ended is not over. -/
def Window.busy (x : Window) : Bool := x.ended && x.left != some []

/-- A mapping made for a team: its leaves are written, from the brand's rights (R170, R377). Whatever keeps them from being written keeps
`BOPEN` waiting (log 50). -/
def State.mapBuffer (s : State) (i : TeamId) (b : W128) : Iss State :=
  let r := s.buf (brDrv b) (brIdx b)
  let k := brRights b
  let flags := 1 + 2 * b2n (k.getLsbD 0) + 4 * b2n (k.getLsbD 1) + 32 * b2n (k.getLsbD 5)
  match s.setLeaves (winWho i.drv i.fold i.asid) i.fold flags (pagesOf r.len) (r.pa / 65536) with
  | .error _ => hold
  | .ok u => .ok (u.setDrv i.drv ((u.drv i.drv).setWin
      { asid := i.asid, fold := i.fold, buf := brBuf b, pa := r.pa, len := r.len, users := [(i.slot, i.inst)], ended := false, left := none }))

/-- A brand's buffer mapped for a team, unless its ASID has it mapped already (R170). -/
def State.openWindow (s : State) (i : TeamId) (b : W128) : Iss State :=
  match (s.drv i.drv).winOf i.asid (brBuf b) with
  | none => s.mapBuffer i b
  | some x =>
    if x.busy then hold
    else if x.ended then s.mapBuffer i b
    else .ok (s.setDrv i.drv ((s.drv i.drv).setWin
      { x with users := if x.users.contains (i.slot, i.inst) then x.users else x.users ++ [(i.slot, i.inst)] }))

/-- A mapping ended: accesses through it raise `BOUNDS` (R170), and its leaves are to go (R377). -/
def State.endWindow (s : State) (d : Nat) (x : Window) : State :=
  (s.setDrv d ((s.drv d).setWin { x with ended := true, users := [] })).putOff (.unmap d x.asid x.buf)

/-- A team taken off a mapping of its ASID, which ends with its last user (R170). -/
def State.closeWindow (s : State) (i : TeamId) (buf : Nat) : State :=
  match (s.drv i.drv).winOf i.asid buf with
  | none => s
  | some x =>
    let us := x.users.filter (· != (i.slot, i.inst))
    if x.ended then s
    else if us.isEmpty then s.endWindow i.drv x
    else s.setDrv i.drv ((s.drv i.drv).setWin { x with users := us })

/-- Every mapping of a buffer ended (R170, R385). -/
def State.endWindows (s : State) (buf : Nat) : State :=
  ([0, 1] : List Nat).foldl (fun (u : State) d =>
    ((u.drv d).wins.filter fun x => x.buf == buf && !x.ended).foldl (fun (v : State) x => v.endWindow d x) u) s

/-! ### Counts and frees (R385) -/

/-- The generation after a free (R385). -/
def nextGen (g : Nat) : Nat := if g < 65535 then g + 1 else 1

/-- Whether a page lies in a fold's BPOOL. -/
def inPool (v : Drover) (f page : Nat) : Bool :=
  let e := tget (0, 0) v.bpool f
  decide (e.1.toNat / 65536 ≤ page) && decide (page < e.1.toNat / 65536 + e.2.toNat)

/-- A buffer that is being freed gives back its record, and its pages where they came from BPOOL, once the invalidation of its mappings is
over (R377, R385). -/
def State.finishFree (s : State) (d idx : Nat) : State :=
  let b := s.buf d idx
  if !b.freeing || (s.drovers.any fun e => e.2.wins.any fun x => x.buf == d * 65536 + idx && x.busy) then s
  else
    let s1 := s.setBuf d idx { b with live := false, freeing := false }
    if inPool (s1.drv d) b.fold (b.pa / 65536) then s1.setDrv d ((s1.drv d).givePages b.fold (b.pa / 65536) (pagesOf b.len)) else s1

/-- A buffer freed (R385): the mappings end, the generation advances, and a buffer that no graph owns returns pages and record. -/
def State.freeBuf (s : State) (d idx : Nat) : State :=
  let s1 := s.endWindows (d * 65536 + idx)
  let b := s1.buf d idx
  (s1.setBuf d idx { b with count := 0, gen := nextGen b.gen, freeing := !b.graphOwned }).finishFree d idx

/-! ### The invalidation of a mapping that has ended (R176, R377) -/

/-- The `TLBI` messages for the pages of a mapping, sent by the drover. -/
def State.sendUnmap (s : State) (d : Nat) (x : Window) (sites : List Nat) : State :=
  (List.range (pagesOf x.len)).foldl (fun (u : State) k =>
    u.sendTlbi { kind := 2, asid := x.asid, va := x.va + 65536 * k, by_ := none, from_ := Config.drvSite d, lost := false } sites) s

/-- Whether a die has still a message of a mapping's invalidation to process. -/
def State.unmapping (s : State) (x : Window) (site : Nat) : Bool :=
  (s.die site).tlbiIn.any fun m => m.by_ == none && m.asid == x.asid && decide (x.va ≤ m.va) && decide (m.va < x.va + x.len)

/-- The drover's invalidation of a mapping that has ended (R377): the leaves removed and the messages sent, then every acknowledgement
counted, as `TLBI` does (R176); then a buffer that is being freed goes. -/
def State.unmapStep (s : State) (d asid buf : Nat) : State :=
  match (s.drv d).winOf asid buf with
  | none => s
  | some x =>
    if !x.busy then s
    else match x.left with
      | none =>
        match s.setLeaves (winWho d x.fold asid) x.fold 0 (pagesOf x.len) (x.pa / 65536) with
        | .error _ => s.putOff (.unmap d asid buf)
        | .ok u =>
          let sites := u.xlatSites d
          let v := (u.sendUnmap d x sites).setDrv d ((u.drv d).setWin { x with left := some sites })
          if sites.isEmpty then v.finishFree (buf / 65536) (buf % 65536) else v.putOff (.unmap d asid buf)
      | some l =>
        let l' := l.filter (s.unmapping x)
        let v := s.setDrv d ((s.drv d).setWin { x with left := some l' })
        if l'.isEmpty then v.finishFree (buf / 65536) (buf % 65536) else v.putOff (.unmap d asid buf)

/-- One reference dropped; one of an earlier generation counts for nothing (R385). -/
def State.dropRef (s : State) (d idx gen : Nat) : State :=
  let b := s.buf d idx
  if !b.live || b.gen != gen || b.count == 0 then s
  else if b.count == 1 then s.freeBuf d idx
  else s.setBuf d idx { b with count := b.count - 1 }

/-- The reference of a brand dropped. -/
def State.dropBrand (s : State) (b : W128) : State := if b == 0 then s else s.dropRef (brDrv b) (brIdx b) (brGen b)

/-- One reference more. -/
def State.addRef (s : State) (d idx : Nat) : State :=
  let b := s.buf d idx
  s.setBuf d idx { b with count := b.count + 1 }

/-! ### The end of a team (R169, R170) -/

/-- Every mapping of a team closed, at its end (R170). -/
def State.closeAll (s : State) (t : TeamSt) : State :=
  match t.id with
  | none => s
  | some i => t.opened.foldl (fun u b => u.closeWindow i b) s

/-- The counted references that a team holds in its b registers dropped, and its mappings closed, at its end (R169, R170). -/
def State.dropHeld (s : State) (t : TeamSt) : State :=
  t.brands.foldl (fun u e => if e.2.view.isNone then u.dropBrand e.2.bits else u) (s.closeAll t)

end Sys2Proof.Machine
end

