-- ==== Sys2Proof/Machine/Brands.lean ====
section
/-! DEFINITION. Brand and node words, OP 0x68 to 0x6E (R169 to R172). -/

namespace Sys2Proof.Machine

/-- A null brand register (R169). -/
def BrandReg.null : BrandReg := { bits := 0, view := none }

/-- A brand register of a team. -/
def TeamSt.brand (t : TeamSt) (k : BitVec 4) : BrandReg := tget BrandReg.null t.brands k.toNat

/-- A team with a brand register changed. -/
def TeamSt.setBrand (t : TeamSt) (k : BitVec 4) (b : BrandReg) : TeamSt := { t with brands := tset t.brands k.toNat b }

/-- The fold of a team; a core that holds none has none. -/
def TeamSt.foldNo (t : TeamSt) : Nat := (t.id.map (·.fold)).getD 8

/-- Check 1 of R169 on the running team's register. -/
def State.brandCheck (s : State) (k : BitVec 4) : Iss W128 := do
  let b := s.tm.brand k
  need (s.brandOk s.tm.foldNo b.bits) .BRAND 0 0
  .ok b.bits

/-- A view whose node slot has been emptied fails check 1 for the words that use its reference (R386). -/
def State.viewCheck (s : State) (k : BitVec 4) : Iss Unit :=
  match (s.tm.brand k).view, s.tm.id with
  | some v, some i => need (!(tget Node.reset (s.drv i.drv).nodes i.slot).dropped.contains v) .BRAND 0 0
  | _, _ => .ok ()

/-- A brand's right, by its bit in the rights byte (R169). -/
def needRight (b : W128) (k : Nat) : Iss Unit := need ((brRights b).getLsbD k) .RIGHTS 0 0

/-- A b register made null; where no other register of the team holds the buffer's brand, the team's mapping of it is closed (R170). -/
def State.nullBrand (s : State) (k : BitVec 4) : State :=
  let b := (s.tm.brand k).bits
  let u := s.setTm (s.tm.setBrand k BrandReg.null)
  match u.tm.id with
  | none => u
  | some i =>
    if (u.tm.brands.any fun e => e.2.bits != 0 && brBuf e.2.bits == brBuf b) || !u.tm.opened.contains (brBuf b) then u
    else
      let v := u.closeWindow i (brBuf b)
      v.setTm { v.tm with opened := v.tm.opened.filter (· != brBuf b) }

/-- `BOPEN` (R170). -/
def execBopen (d : Bool) (r : BitVec 6) (a : BitVec 4) (s : State) : Host.Outcome State Fault Refusal :=
  s.run (headOf .C (s.destOk r)) fun s => do
    s.room d r
    let b ← s.brandCheck a
    let rd := (brRights b).getLsbD 0
    let wr := (brRights b).getLsbD 1
    need (rd || wr) .RIGHTS 0 0
    match s.tm.id with
    | none => flt .BRAND 0 0
    | some i =>
      let u ← s.openWindow i b
      let v := u.setTm { u.tm with opened := if u.tm.opened.contains (brBuf b) then u.tm.opened else u.tm.opened ++ [brBuf b] }
      .ok (v.put d r (BitVec.ofNat 64 (2 ^ 51 + (s.buf (brDrv b) (brIdx b)).pa))).goOn

/-- What `BINFO` returns, by FN (R170). -/
def State.brandInfo (s : State) (b : W128) (f : BitVec 3) : W64 :=
  match f.toNat with
  | 0 => BitVec.ofNat 64 (s.buf (brDrv b) (brIdx b)).len
  | 1 => (brRights b).setWidth 64
  | 2 => (bufId (brDrv b) (brIdx b)).setWidth 64
  | _ => BitVec.ofNat 64 (brGen b)

/-- `BINFO` (R170). -/
def execBinfo (d : Bool) (r : BitVec 6) (a : BitVec 4) (f : BitVec 3) (s : State) : Host.Outcome State Fault Refusal :=
  s.run (headOf .C (s.destOk r && f < 4)) fun s => do
    s.room d r
    let b ← s.brandCheck a
    .ok (s.put d r (s.brandInfo b f)).goOn

/-- `BGIVE` (R171, R384): into an empty output slot of the node. -/
def execBgive (a : BitVec 4) (n : BitVec 3) (s : State) : Host.Outcome State Fault Refusal :=
  s.run (headOf .C true) fun s => do
    let b ← s.brandCheck a
    s.viewCheck a
    needRight b 2
    match s.tm.id with
    | none => flt .BRAND 0 0
    | some i =>
      let nd := tget Node.reset (s.drv i.drv).nodes i.slot
      let k := 8 + n.toNat
      need (tget 0 nd.slots k == 0) .SLOT 0 0
      let u := s.setDrv i.drv { s.drv i.drv with nodes := tset (s.drv i.drv).nodes i.slot { nd with slots := tset nd.slots k b } }
      let v := if (s.tm.brand a).view.isSome then u.addRef (brDrv b) (brIdx b) else u
      .ok (v.nullBrand a).goOn

/-- `BDUP` (R171). -/
def execBdup (a b : BitVec 4) (m : BitVec 6) (s : State) : Host.Outcome State Fault Refusal :=
  s.run (headOf .C true) fun s => do
    let x ← s.brandCheck a
    s.viewCheck a
    needRight x 3
    need ((s.tm.brand b).bits == 0) .SLOT 0 0
    let y := s.makeBrand (brDrv x) (brIdx x) ((brRights x).setWidth 6 &&& m)
    let u := s.addRef (brDrv x) (brIdx x)
    .ok (u.setTm (u.tm.setBrand b { bits := y, view := none })).goOn

/-- `BDROP` (R171, R386): that of a view empties its node slot. -/
def execBdrop (a : BitVec 4) (s : State) : Host.Outcome State Fault Refusal :=
  s.run (headOf .C true) fun s => do
    let b ← s.brandCheck a
    s.viewCheck a
    needRight b 4
    let u := match (s.tm.brand a).view, s.tm.id with
      | some v, some i =>
        let nd := tget Node.reset (s.drv i.drv).nodes i.slot
        let nd' : Node := { nd with slots := tdel nd.slots v, dropped := v :: nd.dropped }
        s.setDrv i.drv { s.drv i.drv with nodes := tset (s.drv i.drv).nodes i.slot nd' }
      | _, _ => s
    .ok ((u.nullBrand a).dropBrand b).goOn

/-- A parameter word of a node, in graph memory (R172, R370). -/
def State.nodeParam (s : State) (i : TeamId) (k : Nat) : W64 :=
  let d := s.drv i.drv
  BitVec.ofNat 64 (leNat (cread d.gmem ((tget Node.reset d.nodes i.slot).param.toNat + 8 * k) 8))

/-- `NPARAM` (R172). A core without a team has no node: the value is left open. -/
def execNparam (t : Tag) (d : Bool) (r : BitVec 6) (i : BitVec 9) (s : State) : Host.Outcome State Fault Refusal :=
  s.run (headOf t (tagMem s.cls t && s.destOk r && i < 16)) fun s =>
    match s.tm.id with
    | some n => s.frameV d r (s.nodeParam n i.toNat)
    | none => s.freshWord.2.frameV d r s.freshWord.1

/-- What `INST` returns, by FN (R172). -/
def State.instInfo (s : State) (i : TeamId) (f : BitVec 3) : W64 :=
  match f.toNat with
  | 0 => BitVec.ofNat 64 i.inst
  | 1 => BitVec.ofNat 64 i.cnt
  | 2 => BitVec.ofNat 64 i.slot
  | 3 => i.lid
  | 4 => BitVec.ofNat 64 i.fold
  | _ =>
    let n := tget Node.reset (s.drv i.drv).nodes i.slot
    match (if n.flkreq then n.flock else none) with
    | some k => BitVec.ofNat 64 k
    | none => -1

/-- `INST` (R172). A core without a team has no flock, and every other value is left open. -/
def execInst (t : Tag) (d : Bool) (r : BitVec 6) (f : BitVec 3) (s : State) : Host.Outcome State Fault Refusal :=
  s.run (headOf t (tagMem s.cls t && s.destOk r && f < 6)) fun s =>
    match s.tm.id with
    | some n => s.frameV d r (s.instInfo n f)
    | none => if f == 5 then s.frameV d r (-1) else s.freshWord.2.frameV d r s.freshWord.1

end Sys2Proof.Machine
end

