-- ==== Sys2Proof/Machine/VecFrame.lean ====
section
/-! DEFINITION. The frame of the vector half (R193 to R197): packed elements, format slots (R87), masks, and the shapes that its words
share. -/

namespace Sys2Proof.Machine

/-- The `32 / w` elements of a lane, the lowest bits first (R193). -/
def laneElems (w : Nat) (v : W32) : List Nat := (List.range (32 / w)).map fun k => v.toNat / 2 ^ (k * w) % 2 ^ w

/-- Elements packed into a lane (R193). -/
def packLane (w : Nat) : List Nat → W32
  | [] => 0
  | e :: t => BitVec.ofNat 32 (e % 2 ^ w) ||| (packLane w t <<< w)

/-- The packed elements of lanes in memory order (R193). -/
def allElems (w : Nat) (l : List W32) : List Nat := l.flatMap (laneElems w)

/-- The first `n` lanes packed from a list of elements; missing elements are zero codes. -/
def packLanes (w : Nat) : Nat → List Nat → List W32
  | 0, _ => []
  | n + 1, es => packLane w (es.take (32 / w)) :: packLanes w n (es.drop (32 / w))

/-- An operation on each element of a lane. -/
def lane1 (w : Nat) (f : Nat → Nat) (x : W32) : W32 := packLane w ((laneElems w x).map f)

/-- An operation on corresponding elements of two lanes. -/
def lane2 (w : Nat) (f : Nat → Nat → Nat) (x y : W32) : W32 := packLane w (List.zipWith f (laneElems w x) (laneElems w y))

/-- An operation on corresponding elements of three lanes. -/
def lane3 (w : Nat) (f : Nat → Nat → Nat → Nat) (z x y : W32) : W32 :=
  packLane w (List.zipWith (fun g b => g b) (List.zipWith f (laneElems w z) (laneElems w x)) (laneElems w y))

/-- Corresponding lanes of three lists. -/
def zip3 {α : Type} (f : W32 → W32 → W32 → α) (z x y : List W32) : List α :=
  List.zipWith (fun g b => g b) (List.zipWith f z x) y

/-- The format table entry that a slot selects for the running X (R87). -/
def State.fmtEntry (s : State) (slot : Nat) : W32 :=
  let c := s.tm.fmtctl.toNat
  let lc := match loopAt s.tm.x (bits c 9 8) with | some l => l.index | none => 0
  tget 0 (s.core s.cur).active.fmt ((slot + bits c 3 0 + bits c 7 4 * lc) % 16)

/-- A mask (R194): m7 is all true. -/
def State.mask (s : State) (k : BitVec 3) : BitVec 128 := if k == 7 then -1 else tget 0 s.tm.masks k.toNat

/-- The active mask (R194). -/
def State.activeMask (s : State) : BitVec 128 := s.mask s.tm.amask

/-- Whether a lane is active. -/
def State.laneOn (s : State) (k : Nat) : Bool := s.activeMask.getLsbD k

/-- The lanes with their numbers. -/
def numbered (l : List W32) : List (Nat × W32) := (l.zipIdx).map fun e => (e.2, e.1)

/-- Whether an entry is well formed and its element format satisfies a limit (R85, R197). -/
def fmtFits (f : W32) (ok : Nat → Bool) : Bool := enOk f && ok (enElem f)

/-- The element formats of the floating operations: FP32, BF16 and FP16 (R198). -/
def elFloat (el : Nat) : Bool := decide (el < 3)

/-- FP32 alone. -/
def elFP32 (el : Nat) : Bool := el == 0

/-- The packed formats of `VDOT` and the pack words: all but FP32 and INT32 (R203, R212). -/
def elPacked (el : Nat) : Bool := decide (1 ≤ el) && decide (el ≤ 9)

/-- The formats of the integer operations (R209). -/
def elInt (el : Nat) : Bool := el == 0 || decide (7 ≤ el)

/-- The formats of the integer compares (R211). -/
def elWord (el : Nat) : Bool := el == 0 || el == 10

/-- A word of an X strand with vector results. -/
def headX (legal : Bool) : Head := headOf .X legal

/-- A word of one source (R196). -/
def State.vec1 (s : State) (d : Bool) (r a : BitVec 6) (fok : Bool) (f : List W32 → List W32) : Iss Done := do
  need fok .FMT 0 0
  s.popsOk [a]
  s.room d r
  let x ← s.vsrc a
  .ok (x.2.vput d r (f x.1)).goOn

/-- A word of two sources (R196). -/
def State.vec2 (s : State) (d : Bool) (r a b : BitVec 6) (fok : Bool) (f : List W32 → List W32 → List W32) : Iss Done := do
  need fok .FMT 0 0
  s.popsOk [a, b]
  s.room d r
  let x ← s.vsrc a
  let y ← x.2.vsrc b
  .ok (y.2.vput d r (f x.1 y.1)).goOn

/-- A word of two sources whose destination register is a source too (R196). -/
def State.vec3 (s : State) (d : Bool) (r a b : BitVec 6) (fok : Bool) (f : List W32 → List W32 → List W32 → List W32) : Iss Done := do
  need fok .FMT 0 0
  s.popsOk [a, b]
  let z := s.vreg r.toNat
  let x ← s.vsrc a
  let y ← x.2.vsrc b
  .ok (y.2.vput d r (f z x.1 y.1)).goOn

/-- The lanes that show mask bits: 1 or 0 (R200). -/
def boolLanes (l : List Bool) : List W32 := l.map fun b => if b then 1 else 0

/-- The bits of a mask from lane truths. -/
def maskOf (l : List Bool) : BitVec 128 := BitVec.ofNat 128 ((l.zipIdx).foldl (fun a e => a + b2n e.1 * 2 ^ e.2) 0)

/-- A mask written, unless D suppresses it, with its lanes entering y1 (R200). -/
def State.putMask (s : State) (d : Bool) (m : BitVec 3) (l : List Bool) : State :=
  (if d then s else s.setTm { s.tm with masks := tset s.tm.masks m.toNat (maskOf l) }).pushVlat (boolLanes l)

/-- A word of two sources that sets a mask (R200, R211). -/
def State.vecMask (s : State) (d : Bool) (m : BitVec 3) (a b : BitVec 6) (fok : Bool) (f : W32 → W32 → Bool) : Iss Done := do
  need fok .FMT 0 0
  s.popsOk [a, b]
  let x ← s.vsrc a
  let y ← x.2.vsrc b
  .ok (y.2.putMask d m (List.zipWith f x.1 y.1)).goOn

/-- The head of a two-source word. -/
def State.headV2 (s : State) (r a b : BitVec 6) : Head := headX (s.destOk r && s.srcOk a && s.srcOk b)

/-- The head of a one-source word. -/
def State.headV1 (s : State) (r a : BitVec 6) (extra : Bool) : Head := headX (s.destOk r && s.srcOk a && extra)

/-- The head of a word whose destination is a source register too. -/
def State.headV3 (s : State) (r a b : BitVec 6) : Head := headX (regOk r && s.srcOk a && s.srcOk b)

end Sys2Proof.Machine
end

