-- ==== Sys2Proof/Machine/VecMem.lean ====
section
/-! DEFINITION. Memory access of the vector half: `LDV`, `STV`, `VGATH`, `VSCAT` and the stream ports with their own steps (R214 to
R223). -/

namespace Sys2Proof.Machine

/-- The spaces of vector accesses: DEV, LOC, CSP and DSP (R214, R216, R218). -/
def vecSpace (p : W64) : Bool := [0, 1, 2, 5].contains (tagNum p)

/-- The bytes of a vector access (R214, R218). -/
def State.vecSize (_s : State) (c : CoreId) : Nat := 4 * Config.lanes (coreCls c)

/-- `LDV` (R214): a queued load of a whole vector, or with D = 1 a load without an entry. -/
def execLdv (d : Bool) (a : BitVec 6) (p : BitVec 2) (o : BitVec 7) (s : State) : Host.Outcome State Fault Refusal :=
  s.run (headOf .A (s.srcOk a)) fun s => do
    let n := s.vecSize s.cur
    s.popsOk [a]
    if d then .ok () else dqCheck s.tm
    let x ← s.src a
    let ea := memEa x.1 o n
    need (vecSpace x.1) .SPACE ea 0
    let q ← x.2.access x.1 ea n n p.toNat .read
    q.2.orderFree q.1
    if d then do
      q.2.loadFree
      let v ← q.2.doLoad q.2.me q.1 n ea
      .ok v.2.goOn
    else do
      let u ← q.2.enqueueLoad q.1 ea n false true
      .ok u.goOn

/-- `STV` (R215): one whole `sdq` entry. -/
def execStv (a : BitVec 6) (p : BitVec 2) (o : BitVec 7) (s : State) : Host.Outcome State Fault Refusal :=
  s.run (headOf .A (s.srcOk a)) fun s => do
    let n := s.vecSize s.cur
    s.popsOk [a]
    let x ← s.src a
    let ea := memEa x.1 o n
    need (vecSpace x.1) .SPACE ea 0
    let q ← x.2.access x.1 ea n n p.toNat .write
    q.2.orderFree q.1
    .ok (q.2.enqueueStore q.1 ea n none).goOn

/-- The place of an access on the STREAM path, checked and translated (R216, R218). -/
def State.streamPlace (s : State) (w : Who) (base ea : W64) (n pol : Nat) (nd : Need) : Iss (Place × State) := do
  need (vecSpace base) .SPACE ea 0
  let sp ← s.checkEa w base ea n n pol
  s.placeOf w sp n pol nd ea

/-- A read on the STREAM path (R216, R218). -/
def State.streamRead (s : State) (w : Who) (base ea : W64) (n pol : Nat) : Iss (List Byte × State) := do
  let q ← s.streamPlace w base ea n pol .read
  q.2.engineRead w q.1 n ea

/-- The words that active lanes read at their indices, in ascending lane order; the lowest faulting lane decides (R216, R217). With
`pad`, a lane of index 0xFFFF_FFFF reads nothing (R264). -/
def State.gather (s : State) (base : W64) (pad : Bool) : List (Nat × W32) → Iss (List W32 × State)
  | [] => .ok ([], s)
  | (k, i) :: t =>
    if !s.laneOn k || (pad && i == 0xFFFFFFFF) then do
      let q ← s.gather base pad t
      .ok (0 :: q.1, q.2)
    else do
      let r ← s.streamRead s.me base (base + i.setWidth 64 * 4) 4 0
      let q ← r.2.gather base pad t
      .ok (BitVec.ofNat 32 (leNat r.1) :: q.1, q.2)

/-- `VGATH` and `VGATHX` (R216, R217, R264). -/
def State.gatherBody (s : State) (d : Bool) (r a b : BitVec 6) (pad : Bool) : Iss Done := do
  s.popsOk [a, b]
  s.room d r
  let x ← s.vsrc a
  let y ← x.2.vsrc b
  let g ← y.2.gather (lanes64 x.1) pad (numbered y.1)
  .ok (g.2.vput d r g.1).goOn

/-- `VGATH` (R216, R217). -/
def execVgath (d : Bool) (r a b : BitVec 6) (s : State) : Host.Outcome State Fault Refusal :=
  s.run (s.headV2 r a b) fun s => s.gatherBody d r a b false

/-- The stores of active lanes, each checked and translated at issue in ascending lane order (R217). -/
def State.scatter (s : State) (base : W64) (data : List W32) : List (Nat × W32) → Iss (List StoreEnt × State)
  | [] => .ok ([], s)
  | (k, i) :: t =>
    if !s.laneOn k then s.scatter base data t
    else do
      let ea := base + i.setWidth 64 * 4
      let p ← s.streamPlace s.me base ea 4 0 .write
      let e : StoreEnt := { strand := .X, place := p.1, ea := ea, size := 4, data := some (leBytes 4 (data.getD k 0).toNat), fromSdq := false,
                            pc := s.st.pc, mark := markOf s.st, id := s.tm.nextId, again := false, add := false }
      let q ← (p.2.setTm { p.2.tm with nextId := p.2.tm.nextId + 1 }).scatter base data t
      .ok (e :: q.1, q.2)

/-- `VSCAT` (R216, R217): its lanes are performed after it has retired. -/
def execVscat (r a b : BitVec 6) (s : State) : Host.Outcome State Fault Refusal :=
  s.run (headX (regOk r && s.srcOk a && s.srcOk b)) fun s => do
    s.popsOk [a, b]
    let z := s.vreg r.toNat
    let x ← s.vsrc a
    let y ← x.2.vsrc b
    let q ← y.2.scatter (lanes64 x.1) z (numbered y.1)
    .ok (q.2.setTm { q.2.tm with scat := q.2.tm.scat ++ q.1 }).goOn

/-- The first lane of a `VSCAT` that has not been performed, performed (R217). -/
def State.performScat (s : State) (c : CoreId) : Except Hold State :=
  let t := s.team c
  match t.scat with
  | [] => .error .none
  | e :: rest =>
    let w := s.who c
    let s0 := s.setTeam c { t with scat := rest }
    match s0.engineWrite w e.place (e.data.getD []) e.ea with
    | .ok s1 => .ok s1
    | .error (.stall h) => .error h
    | .error (.fault f) =>
      let s1 := s0.markBad f.bad
      .ok (s1.setTeam c ((s1.team c).storeFailed .X e.pc f.code e.ea))

/-- Lanes of `VSCAT` performed in order, up to a number. -/
def State.drainScat (s : State) (c : CoreId) : Nat → State
  | 0 => s
  | n + 1 =>
    match s.performScat c with
    | .ok s1 => s1.drainScat c n
    | .error h => s.waited h

/-! ### Stream ports (R218 to R223) -/

/-- The number of operands of a port's walk (R218, R261). -/
def portTotal (q : Port) : Nat :=
  match q.csr with
  | some c => (c.cnt + 31) / 32
  | none => q.n0 * q.n1 * q.n2

/-- A team with a port changed. -/
def TeamSt.setPort (t : TeamSt) (p : Nat) (q : Port) : TeamSt := { t with ports := tset t.ports p q }

/-- Whether a port makes `PSET` or `CSRW` stall A (R219): it is in RUN or FAULT, or such a stall has begun and the port is DONE with
operands still buffered. -/
def portHeld (q : Port) : Bool := q.st == .run || q.st == .fault || (q.wait && q.st == .done && !q.buf.isEmpty)

/-- The ports that make A stall marked so (R219). -/
def TeamSt.markWait (t : TeamSt) (ps : List Nat) : TeamSt :=
  ps.foldl (fun t p => if portHeld (t.port p) then t.setPort p { t.port p with wait := true } else t) t

/-- A descriptor register of A (R46). -/
def State.descr (s : State) (g : BitVec 6) (k : Nat) : W64 := s.reg (g.toNat + k)

/-- `PSET` (R218, R219, R222). -/
def execPset (p : BitVec 3) (a g : BitVec 6) (m : BitVec 7) (s : State) : Host.Outcome State Fault Refusal :=
  s.run (headOf .A (p < 6 && s.srcOk a && decide (g.toNat ≤ 44) && decide (g.toNat % 4 = 0) && m < 8 && !(m.getLsbD 2 && decide (4 ≤ p.toNat)) &&
      hi32 (s.descr g 1) == 0 && hi32 (s.descr g 3) == 0)) fun s => do
    s.popsOk [a]
    let x ← s.src a
    if portHeld (s.tm.port p.toNat) then
      .ok { (s.setTm (s.tm.markWait [p.toNat])).goOn with held := some .stall }
    else
      let q := s.tm.port p.toNat
      let w0 := s.descr g 0
      let w2 := s.descr g 2
      let q' : Port := { q with
        st := .set, base := x.1, n0 := (lo32 w0).toNat, n1 := (hi32 w0).toNat, n2 := (lo32 (s.descr g 1)).toNat,
        s0 := (lo32 w2).toInt, s1 := (hi32 w2).toInt, s2 := (lo32 (s.descr g 3)).toInt,
        rep := m.getLsbD 2, pol := (m.setWidth 2).toNat, pos := 0, csr := none, code := none, wait := false }
      .ok (x.2.setTm (x.2.tm.setPort p.toNat q')).goOn

/-- `PGO` (R219, R221): a write port claims its entries; those that can never come fail at once (R221). A walk of no operand is over as soon
as it starts: the port is DONE (log 67, DESIGN CHOICE). -/
def execPgo (p : BitVec 3) (s : State) : Host.Outcome State Fault Refusal :=
  s.run (headOf .A (p < 6)) fun s =>
    let t := s.tm
    let q := t.port p.toNat
    match q.st with
    | .idle => flt .QUEUE 0 0
    | .run => .ok s.goOn
    | .fault => .ok s.goOn
    | _ =>
      let n := portTotal q
      let q' : Port := { q with st := if n == 0 then .done else .run, pos := 0, pc := s.st.pc,
                                row := match q.csr with | some c => c.i0 | none => 0 }
      let t1 := t.setPort p.toNat q'
      let t2 : TeamSt := if 4 ≤ p.toNat && n != 0 then { t1 with claims := t1.claims ++ [.port p.toNat n] } else t1
      .ok (s.setTm (if t2.x.exited then t2.failClaims else t2)).goOn

/-- Whether `sdq` holds an entry that a write port's claim has taken and not written yet, of `n` entries (R221). -/
def filledFor (p : Nat) : List Claim → Nat → Bool
  | [], _ => false
  | .store _ :: t, n => filledFor p t (n - 1)
  | .port k left :: t, n => if k == p then decide (0 < n) && decide (0 < left) else filledFor p t (n - left)

/-- `PHALT` (R219, R221, R222): what a write port's claim has taken is written first, and its unfilled share is passed on. -/
def execPhalt (p : BitVec 3) (s : State) : Host.Outcome State Fault Refusal :=
  s.run (headOf .A (p < 6)) fun s =>
    let t := s.tm
    let q := t.port p.toNat
    if q.st == .run || q.st == .fault then do
      needWait !(filledFor p.toNat t.claims t.sdq.length)
      let t1 := t.setPort p.toNat { q with st := .halted, buf := [], code := none }
      let t2 : TeamSt := { t1 with claims := t1.claims.filter fun c => match c with | .port k _ => k != p.toNat | .store _ => true }
      .ok (s.setTm t2.feed).goOn
    else .ok s.goOn

/-- The array that a port of a CSR walk reads by its part in the walk (R260). -/
def Csr.base (c : Csr) : W64 :=
  match c.role with
  | 0 => c.cols
  | 1 => c.vals
  | _ => c.ends

/-- The number of a port state (R223). -/
def PortState.num : PortState → Nat
  | .idle => 0 | .set => 1 | .run => 2 | .done => 3 | .halted => 4 | .fault => 5

/-- The snapshot that `PSTAT` writes (R223). -/
def portStatus (p : Nat) (q : Port) : W64 :=
  packW [(q.pos % 2 ^ 48, 0), (if q.st == .fault then (q.code.map Code.num).getD 0 else 0, 48), (if p < 4 then q.buf.length else 0, 56),
         (q.st.num, 60)]

/-- `PSTAT` (R223). -/
def execPstat (p : BitVec 3) (r : BitVec 6) (s : State) : Host.Outcome State Fault Refusal :=
  s.run (headOf .A (p < 6 && s.destOk r)) fun s => s.frameV false r (portStatus p.toNat (s.tm.port p.toNat))

/-- One 32-bit word of a CSR walk read (R261). -/
def State.csrWord (s : State) (w : Who) (base : W64) (pol i : Nat) : Iss (Nat × State) := do
  let r ← s.streamRead w base (base + BitVec.ofNat 64 (4 * i)) 4 pol
  .ok (leNat r.1, r.2)

/-- The row cursor moved on past the rows that end at or before nonzero `j` (R261). The bound is the number of rows left. -/
def State.csrRow (s : State) (w : Who) (c : Csr) (pol j row : Nat) : Nat → Iss (Nat × State)
  | 0 => .ok (row, s)
  | n + 1 =>
    if c.m ≤ row then .ok (row, s)
    else do
      let e ← s.csrWord w c.base pol row
      if e.1 ≤ j then e.2.csrRow w c pol j (row + 1) n else .ok (row, e.2)

/-- The words that the lanes of an operand read, in ascending lane order: real lanes of a column or value port (R261). -/
def State.csrLanes (s : State) (w : Who) (c : Csr) (pol q : Nat) (pad : W32) : List Nat → Iss (List W32 × State)
  | [] => .ok ([], s)
  | k :: t =>
    if 32 * q + k < c.cnt then do
      let e ← s.csrWord w c.base pol (c.j0 + 32 * q + k)
      let r ← e.2.csrLanes w c pol q pad t
      .ok (BitVec.ofNat 32 e.1 :: r.1, r.2)
    else do
      let r ← s.csrLanes w c pol q pad t
      .ok (pad :: r.1, r.2)

/-- The row tags of the lanes of an operand, and the cursor after it (R261). `next` is the row that a padding lane shows. -/
def State.csrTags (s : State) (w : Who) (c : Csr) (pol q row next : Nat) : List Nat → Iss (List W32 × Nat × State)
  | [] => .ok ([], row, s)
  | k :: t =>
    if 32 * q + k < c.cnt then do
      let j := c.j0 + 32 * q + k
      let r ← s.csrRow w c pol j row (c.m - row)
      let e ← if r.1 < c.m then r.2.csrWord w c.base pol r.1 else .ok (0, r.2)
      let ends := decide (r.1 < c.m) && e.1 == j + 1
      let u ← e.2.csrTags w c pol q r.1 (if ends then r.1 + 1 else r.1) t
      .ok (BitVec.ofNat 32 (r.1 % 2 ^ 31 + (if ends then 2 ^ 31 else 0)) :: u.1, u.2.1, u.2.2)
    else do
      let u ← s.csrTags w c pol q row next t
      .ok (BitVec.ofNat 32 (next % 2 ^ 31) :: u.1, u.2.1, u.2.2)

/-- The operand at a port's position, and the row cursor after it (R218, R261). -/
def State.portFetch (s : State) (c : CoreId) (q : Port) : Iss (List W32 × Nat × State) :=
  let w := s.who c
  match q.csr with
  | none => do
    let n := s.vecSize c
    let r ← s.streamRead w q.base (portAddr q q.pos) n q.pol
    .ok (bytesLanes (n / 4) r.1, q.row, r.2)
  | some k =>
    if k.role == 2 then s.csrTags w k q.pol q.pos q.row q.row (List.range 32)
    else do
      let r ← s.csrLanes w k q.pol q.pos (if k.role == 0 then 0xFFFFFFFF else 0) (List.range 32)
      .ok (r.1, q.row, r.2)

/-- A port after an operand has been delivered: at the end of its walk it is done, or starts again (R219). -/
def portNext (q : Port) : Port :=
  if q.pos + 1 < portTotal q then { q with pos := q.pos + 1 }
  else if q.rep then { q with pos := 0 } else { q with pos := q.pos + 1, st := .done }

/-- `PORT_OPERAND_FETCH` (R219, R220): a read port fetches ahead while its buffer of 8 has room; an operand that faults enters the
buffer poisoned, and the port stops. -/
def execPortOperandFetch (s : State) : Host.Outcome State Fault Refusal :=
  let c := s.ev.core
  let p := s.ev.n
  let q := (s.team c).port p
  .next (if !(decide (p < 4) && q.st == .run && decide (q.buf.length < 8) && decide (q.pos < portTotal q) && (s.core c).run) then s
    else match s.portFetch c q with
      | .ok (l, row, u) =>
        u.setTeam c ((u.team c).setPort p { portNext q with buf := q.buf ++ [{ lanes := l, poison := none }], row := row })
      | .error (.stall h) => s.waited h
      | .error (.fault f) =>
        let u := s.markBad f.bad
        let o : PortOp := { lanes := [], poison := some { code := f.code, addr := f.addr, aux := f.aux } }
        u.setTeam c ((u.team c).setPort p { q with st := .fault, buf := q.buf ++ [o], code := some f.code }))

/-- One `sdq` entry written by a write port to the next address of its walk (R221). -/
def State.portWrite (s : State) (c : CoreId) (q : Port) (e : SdqEnt) : Iss State := do
  let w := s.who c
  let n := s.vecSize c
  let ea := portAddr q q.pos
  let p ← s.streamPlace w q.base ea n q.pol .write
  p.2.engineWrite w p.1 (laneBytes e.lanes) ea

/-- `WRITE_PORT_WRITE` (R221): the write port whose claim is the oldest writes the next `sdq` entry; a failure is recorded as that of a
store of A's at its `PGO`. The last entry of a claim ends the walk, where X has retired `EXIT` with entries unfilled too (R219). -/
def execWritePortWrite (s : State) : Host.Outcome State Fault Refusal :=
  let c := s.ev.core
  let p := s.ev.n
  let t := s.team c
  .next (match t.claims, t.sdq with
    | .port k left :: rest, e :: es =>
      if k != p || left == 0 then s
      else
        let q := t.port p
        let done := fun (u : State) =>
          let t1 := u.team c
          let q1 := portNext { q with rep := false }
          let t2 : TeamSt := { t1.setPort p (if left == 1 then { q1 with st := .done, pos := portTotal q } else q1) with
            sdq := es, claims := if left == 1 then rest else .port k (left - 1) :: rest }
          u.setTeam c t2.feed
        match s.portWrite c q e with
        | .ok u => done u
        | .error (.stall h) => s.waited h
        | .error (.fault f) =>
          let u := s.markBad f.bad
          done (u.setTeam c ((u.team c).storeFailed .A q.pc f.code (portAddr q q.pos)))
    | _, _ => s)

/-- `LOAD_PERFORM` (R139, R354): the first load of the load queue that may be performed. -/
def execLoadPerform (s : State) : Host.Outcome State Fault Refusal := .next (s.orWaited (s.performLoad s.ev.core false))

/-- `STORE_PERFORM` (R140, R217, R354): the store at the head of the store queue, or with operand 1 the next lane of a `VSCAT`. -/
def execStorePerform (s : State) : Host.Outcome State Fault Refusal :=
  .next (s.orWaited (if s.ev.n == 1 then s.performScat s.ev.core else s.performStore s.ev.core))

end Sys2Proof.Machine
end

