-- ==== Sys2Proof/Machine/System.lean ====
section
/-! DEFINITION. Signals, configuration registers and the privileged words, OP 0x6F to 0x74, with the invalidation messages of `TLBI`
(R173 to R177, R190 to R192, R304). -/

namespace Sys2Proof.Machine

/-- `SIGNAL` (R173): a release, then a store or an add of 64 bits at home or in host memory, which takes its place in the store queue
(R354), the add too (log 88, DEDUCED). -/
def execSignal (a b : BitVec 6) (n : BitVec 10) (s : State) : Host.Outcome State Fault Refusal :=
  s.run (headOf .C (s.srcOk a && s.srcOk b && n < 2)) fun s => do
    s.popsOk [a, b]
    let x ← s.src a
    let y ← x.2.src b
    needWait (strandStores s.tm s.strand).isEmpty
    s.raiseSerr
    let u ← y.2.released y.2.me
    let p := y.1
    need (tagNum p == 0 || tagNum p == 4) .SPACE p 0
    let pol := if tagNum p == 0 then 3 else 0
    let sp ← u.checkEa u.me p p 8 8 pol
    boardFree u.tm p 8
    let q ← u.placeOf u.me sp 8 pol (if n == 0 then .write else .both) p
    .ok (q.2.enqueueStore q.1 p 8 (some (leBytes 8 x.1.toNat)) (n == 1)).goOn

/-! ### Configuration registers (R190 to R192) -/

/-- CORE_ID (R191). -/
def coreIdReg (c : CoreId) : W64 :=
  let k := Config.kindAt c.site
  packW [(c.site / 10, 20), (c.site % 10, 16), (Config.clsNum (coreCls c), 13), (if Config.clusterCores k == 0 then 0 else clusterOf c, 8),
         (c.core, 0)]

/-- Whether a number names a configuration register (R190). -/
def cfNamed (n : Nat) : Bool := decide (n < 6) || n == 16 || n == 17 || (decide (32 ≤ n) && decide (n < 48)) || (decide (64 ≤ n) && decide (n < 69))

/-- Whether a configuration register is marked Priv (R190). -/
def cfPriv (n : Nat) : Bool := decide (64 ≤ n)

/-- The value of a configuration register (R190). -/
def State.cfRead (s : State) (n : Nat) : W64 :=
  let k := s.core s.cur
  let t := k.team
  match n with
  | 0 => coreIdReg s.cur
  | 1 => BitVec.ofNat 64 t.slip
  | 2 => t.fmtctl.setWidth 64
  | 3 => t.locsz
  | 4 => t.serr.setWidth 64
  | 5 => t.serra
  | 16 => k.waitmax
  | 17 => t.waitth
  | 64 => k.ecause.setWidth 64
  | 65 => k.epc
  | 66 => k.eaddr
  | 67 => k.evec.setWidth 64
  | 68 => k.pendsel.setWidth 64
  | _ => (tget 0 k.active.fmt (n - 32) &&& ftbMask).setWidth 64

/-- WAITTH as a write leaves it: clamped to 256 to WAITMAX (R191), and to WAITMAX where that is below 256 (log 79, DESIGN CHOICE). -/
def clampWait (v waitmax : W64) : W64 := BitVec.ofNat 64 (min (max v.toNat 256) waitmax.toNat)

/-- A configuration register written; a read-only one ignores the write (R8, R174). Bits outside the fields that R190 and R192 name are
dropped and read 0 (log 53, DESIGN CHOICE). -/
def State.cfWrite (s : State) (n : Nat) (v : W64) : State :=
  let k := s.core s.cur
  match n with
  | 17 => s.setTm { s.tm with waitth := clampWait v k.waitmax }
  | 65 => s.setCore s.cur { k with epc := v &&& 0xFFFFFFFFFFFF }
  | 67 => s.setCore s.cur { k with evec := v.setWidth 14 }
  | 68 => s.setCore s.cur { k with pendsel := v.setWidth 32 &&& 0xFF }
  | _ => s

/-- `CFR` (R174). -/
def execCfr (t : Tag) (r : BitVec 6) (n : BitVec 10) (s : State) : Host.Outcome State Fault Refusal :=
  s.run { tag := t, legal := tagCAX t && s.destOk r && cfNamed n.toNat, priv := cfPriv n.toNat, phase := false } fun s =>
    s.frameV false r (s.cfRead n.toNat)

/-- `CFW` (R174). -/
def execCfw (t : Tag) (a : BitVec 6) (n : BitVec 10) (s : State) : Host.Outcome State Fault Refusal :=
  s.run { tag := t, legal := tagCAX t && s.srcOk a && cfNamed n.toNat, priv := cfPriv n.toNat, phase := false } fun s => do
    s.popsOk [a]
    let x ← s.src a
    .ok (x.2.cfWrite n.toNat x.1).goOn

/-! ### Privileged words -/

/-- `HALT` (R175): the store queue drains, then all three strands stop. -/
def execHalt (s : State) : Host.Outcome State Fault Refusal :=
  s.run { tag := .C, legal := true, priv := true, phase := false } fun s => do
    needWait s.tm.sq.isEmpty
    .ok (s.haltCore s.cur).goOn

/-- `ERET` (R177, R192, R498): C too comes back as it was, from the word that it had come from (R122, log 59, DEDUCED). -/
def execEret (s : State) : Host.Outcome State Fault Refusal :=
  s.run { tag := .C, legal := s.cls != .drover || s.exa s.cur, priv := true, phase := false } fun s =>
    let u := s.leaveException s.cur
    .ok (match u.st.org with
      | some o => { u.goTo u.st.pc with s := u.setSt { u.st with pc := o }, flow := true }
      | none => u.goTo u.st.pc)

/-- Whether the source fields of `TLBI` fit its IMM10 (R176): an unused source is selector 62. -/
def State.tlbiOk (s : State) (a b : BitVec 6) (n : BitVec 10) : Bool :=
  n < 4 && (if n == 1 || n == 2 then s.srcOk a else a == 62) && (if n == 2 || n == 3 then s.srcOk b else b == 62)

/-- `TLBI` (R176): the messages are sent once, and C waits for every acknowledgement. -/
def execTlbi (a b : BitVec 6) (n : BitVec 10) (s : State) : Host.Outcome State Fault Refusal :=
  s.run { tag := .C, legal := s.tlbiOk a b n, priv := true, phase := false } fun s => do
    s.popsOk [a, b]
    let x ← s.src a
    let y ← x.2.src b
    match (s.core s.cur).tlbi with
    | some (_ :: _) => hold
    | some [] => .ok (y.2.setCore s.cur { y.2.core s.cur with tlbi := none }).goOn
    | none =>
      let sites := s.xlatSites (coreDrv s.cur)
      let m : TlbiMsg := { kind := n.toNat, asid := fieldW x.1 10 0, va := fieldW y.1 51 0, by_ := some s.cur, from_ := s.cur.site, lost := false }
      let u := s.setCore s.cur { s.core s.cur with tlbi := some sites }
      .ok { (u.sendTlbi m sites).goOn with held := some .stall }

/-- Whether a TLB entry is one that a message names (R176, R304). -/
def tlbiHits (m : TlbiMsg) (e : TlbEnt) : Bool :=
  let here := decide (e.va ≤ m.va) && decide (m.va < e.va + e.size)
  match m.kind with
  | 0 => !e.glob
  | 1 => !e.glob && e.asid == m.asid
  | 2 => !e.glob && e.asid == m.asid && here
  | _ => here

/-- The cores of a die perform the accesses that they have translated, as far as the order of their queues lets them (R176, R354). -/
def State.settle (s : State) : List CoreId → State
  | [] => s
  | c :: t =>
    let s2 := s.drainCore c false
    (s2.drainScat c (s2.team c).scat.length).settle t

/-- Whether an access at an address was translated under an entry that a message names: one of device memory, not translated anew when it is
performed (R176, R304). -/
def underTlbi (m : TlbiMsg) (asid : Nat) (ents : List TlbEnt) (p : Place) (ea : W64) (again : Bool) : Bool :=
  match p with
  | .mem .. => !again && tagNum ea == 0 && ents.any fun e => tlbiHits m e && tlbHit e asid (offOf ea)
  | _ => false

/-- Whether a core has performed every access that it has translated under an entry which a message names (R176). -/
def State.settled (s : State) (m : TlbiMsg) (c : CoreId) : Bool :=
  let t := s.team c
  let old := underTlbi m (s.who c).asid (s.die c.site).tlb
  !((t.sq ++ t.scat).any fun e => old e.place e.ea e.again) &&
    (!t.lq.any fun x => match x with | .load p ea _ _ _ _ _ _ ag => old p ea ag | .marker .. => false) &&
    !t.tq.any fun x => x.places.flatten.any fun p => old p.1 p.2.1 false

/-- The cores of a die that have a state of their own. -/
def State.coresAt (s : State) (site : Nat) : List CoreId :=
  (s.cores.filter fun e => e.1 / 128 == site).map fun e => (⟨site, e.1 % 128⟩ : CoreId)

/-- A die's messages once one of them has been processed: it is done with, or stands as lost where its acknowledgement finds no route
(R305). -/
def State.tlbiDone (s : State) (site : Nat) (m : TlbiMsg) : List TlbiMsg :=
  let rest := (s.die site).tlbiIn.erase m
  if s.routed site m.from_ then rest else { m with lost := true } :: rest

/-- `TLBI_INVALIDATE_MESSAGE` (R176, R304): the die performs what it has translated, and then drops the entries that the first message that
has reached it names. -/
def execTlbiInvalidateMessage (s : State) : Host.Outcome State Fault Refusal :=
  let site := s.ev.site
  .next (match (s.die site).tlbiIn.find? fun m => !m.lost with
    | none => s
    | some m =>
      let cs := s.coresAt site
      let s1 := s.settle cs
      if cs.all fun c => s1.settled m c then
        let d := s1.die site
        s1.setDie site { d with tlb := d.tlb.filter fun e => !tlbiHits m e, tlbiIn := s1.tlbiDone site m }
      else s1)

/-- `TLBI_ACK` (R176): a firmware core counts the acknowledgement of a die that has processed its message. -/
def execTlbiAck (s : State) : Host.Outcome State Fault Refusal :=
  let c := s.ev.core
  let site := s.ev.site
  let k := s.core c
  .next (match k.tlbi with
    | some l =>
      if l.contains site && !(s.die site).tlbiIn.any fun m => m.by_ == some c then
        s.setCore c { k with tlbi := some (l.filter (· != site)) }
      else s
    | none => s)

end Sys2Proof.Machine
end

