-- ==== Sys2Proof/Machine/Rows.lean ====
section
/-! DEFINITION. The row engine: the class instructions of MEM cores (R314, R325 to R341). -/

namespace Sys2Proof.Machine

/-! ### Pages at home -/

/-- A page has 1024 lines. -/
def pageLines (page : Nat) : List Nat := (List.range 1024).map fun k => page * 1024 + k

/-- The L2 pieces of a page, each with the die that holds it. -/
def State.pagePieces (s : State) (page : Nat) : List (Nat × Nat) :=
  s.dies.flatMap fun e => (e.2.l2.filter fun p => p.1 / 1024 == page).map fun p => (e.1, p.1)

/-- The dirty L2 copies of a page written back (R331, R335). -/
def State.backPage (s : State) (page : Nat) : State := (s.pagePieces page).foldl (fun t e => t.pieceHome e.1 e.2) s

/-- The number of a page at its home, as a requester's die maps it (log 43). -/
def State.homePage (s : State) (w : Who) (page : Nat) : Nat := s.homeLine w (page * 1024) / 1024

/-- Every L2 copy of a page dropped (R331). -/
def State.dropPage (s : State) (page : Nat) : State :=
  { s with dies := tmap (fun _ (d : Die) => { d with l2 := tfilter (fun p _ => p / 1024 != page) d.l2 }) s.dies }

/-- Whether the home of a page reaches the dies whose copies of its pieces it has to recall, or with `inv` to invalidate (R305). -/
def State.pageCopies (s : State) (w : Who) (pa : Nat) (inv : Bool) (ea : W64) : Iss Unit :=
  need (match s.homeSite w.c.site w.fold pa with
    | some h => (s.pagePieces (pa / 65536)).all fun e =>
        (!inv && !(match s.piece e.1 e.2 with | some v => v.dirty | none => false)) || s.twoWay h e.1
    | none => true) .POISON ea 0

/-- A counter of `MSTAT` advanced (R340). -/
def State.bumpStat (s : State) (k n : Nat) : State :=
  s.setTm { s.tm with mstat := tset s.tm.mstat k (tget 0 s.tm.mstat k + BitVec.ofNat 64 n) }

/-- A page reached at home on the team's behalf (R328, R340). -/
def State.rowReach (s : State) (pa : Nat) (ea : W64) : Iss State := s.reachHome s.me pa ea

/-! ### Checks (R330) -/

/-- The space of a row engine pointer: DEV alone. -/
def State.rowSpace (s : State) (p : W64) : Iss Unit := do
  need (tagNum p == 0) .SPACE p 0
  s.checkSpace s.me p p 0

/-- A page pointer and a page count. -/
def pageRange (p n : W64) : Iss Unit := need (p.toNat % 65536 == 0 && decide (1 ≤ n.toNat) && decide (n.toNat ≤ 512)) .ROW_RANGE p 0

/-- The page `k` of a page pointer. -/
def pageEa (p : W64) (k : Nat) : W64 := p + BitVec.ofNat 64 (65536 * k)

/-- Whether a part of a range lies within its space, and within the buffer of an open window that holds it (R135, R137 order 5, R170). -/
def State.partOk (s : State) (ea : W64) (n : Nat) : Bool :=
  s.rangeOk s.me ea n && s.windowOk s.me (offOf ea) n

/-- Parts of a range translated, each with its physical address. -/
def State.mapParts (s : State) (nd : Need) : List (W64 × Nat) → Iss (List (W64 × Nat × Nat) × State)
  | [] => .ok ([], s)
  | (ea, n) :: t => do
    let r ← s.translate s.me (offOf ea) n nd ea
    let q ← r.2.mapParts nd t
    .ok ((ea, r.1.pa, n) :: q.1, q.2)

/-- Parts of a range checked and translated in the order of R137 (R330): `BOUNDS` of every part, then `PAGE`, then `PERM`. -/
def State.rowParts (s : State) (nd : Need) (l : List (W64 × Nat)) : Iss (List (W64 × Nat × Nat) × State) :=
  match l.find? fun e => !s.partOk e.1 e.2 with
  | some e => flt .BOUNDS e.1 0
  | none => do
    let q ← s.mapParts .mapped l
    q.2.mapParts nd l

/-- The pages of a page pointer. -/
def pageRanges (p : W64) (n : Nat) : List (W64 × Nat) := (List.range n).map fun k => (pageEa p k, 65536)

/-- The pages of a page pointer translated. -/
def State.rowPages (s : State) (p : W64) (n : Nat) (nd : Need) : Iss (List (W64 × Nat × Nat) × State) := s.rowParts nd (pageRanges p n)

/-- The pages of a destination and of a source checked and translated together in the order of R137 (R330): `BOUNDS` of every page, then
`PAGE`, then `PERM`. -/
def State.copyPages (s : State) (dst src : W64) (n : Nat) : Iss (List (W64 × Nat × Nat) × List (W64 × Nat × Nat) × State) := do
  let l := pageRanges dst n ++ pageRanges src n
  match l.find? fun e => !s.partOk e.1 e.2 with
  | some e => flt .BOUNDS e.1 0
  | none => do
    let q ← s.mapParts .mapped l
    let p ← q.2.mapParts .write (pageRanges dst n)
    let r ← p.2.mapParts .read (pageRanges src n)
    .ok (p.1, r.1, r.2)

/-- A range cut at page boundaries; the bound is the number of parts. -/
def rangeParts (ea : W64) (n : Nat) : Nat → List (W64 × Nat)
  | 0 => []
  | k + 1 =>
    if n == 0 then []
    else
      let m := min n (65536 - ea.toNat % 65536)
      (ea, m) :: rangeParts (ea + BitVec.ofNat 64 m) (n - m) k

/-- The device tier alone (R330). -/
def needTier (l : List (W64 × Nat × Nat)) : Iss Unit :=
  match l.find? fun e => decide (farBase ≤ e.2.1) with
  | some e => flt .ROW_TIER e.1 0
  | none => .ok ()

/-- Whether a page is under migration or in an extent that is being swept (R330, R348). -/
def State.rowBusy (s : State) (pa : Nat) : Bool :=
  (s.migrate.any fun m => m.old == pa / 65536 || m.new == pa / 65536)
  || (match s.extentOf pa with | some e => e.sweep | none => false)

/-- No page is busy (R330). -/
def State.needFree (s : State) (l : List (W64 × Nat × Nat)) : Iss Unit :=
  match l.find? fun e => s.rowBusy e.2.1 with
  | some e => flt .ROW_BUSY e.1 0
  | none => .ok ()

/-- An operation on each part in turn. -/
def State.eachPart (s : State) (f : State → W64 → Nat → Nat → Iss State) : List (W64 × Nat × Nat) → Iss State
  | [] => .ok s
  | (ea, pa, n) :: t => do
    let u ← f s ea pa n
    u.eachPart f t

/-- The head of a word without a result. -/
def State.rowHead (s : State) (a b : BitVec 6) : Head := headOf .X (s.srcOk a && s.srcOk b)

/-- The head of a word with a result. -/
def State.rowHeadR (s : State) (r a b : BitVec 6) (extra : Bool) : Head := headOf .X (s.destOk r && s.srcOk a && s.srcOk b && extra)

/-! ### Zeroing and copying (R331 to R333) -/

/-- Whether a stack is encrypted (R320). -/
def State.stackEnc (s : State) (site : Nat) : Bool := encOf (s.die site)

/-- A page that reads as zeros without poison; `page` is its number at home. On an encrypted stack every line takes the zero value and the
rows are left as they are; on another one the rows are written with zeros (R332). -/
def State.clearPage (s : State) (page : Nat) (enc : Bool) : State :=
  let s1 := { s with lineBad := tfilter (fun k _ => k / 1024 != page) s.lineBad }
  if enc then
    let s2 := ((s1.lineKey.filter fun e => e.1 / 1024 == page).map (·.1)).foldl State.leaveRow s1
    { s2 with minor := tfilter (fun k _ => k / 1024 != page) s2.minor }
  else { s1 with
    mem := cclear s1.mem (page * 65536) 65536,
    lineKey := tfilter (fun k _ => k / 1024 != page) s1.lineKey,
    latent := tfilter (fun k _ => k / 1024 != page) s1.latent }

/-- The counter blocks of a page read: one that the integrity tree does not match spoils its lines (R323). -/
def State.blocksMet (s : State) (w : Who) (page : Nat) : State :=
  (List.range 16).foldl (fun (u : State) k => if u.treeFails w (page * 1024 + 64 * k) then u.markLine w (page * 1024 + 64 * k) 4 else u) s

/-- A frame back in its pool, which the firmware has no need to hear of any more (R326, R328). -/
def Die.freeFrame (d : Die) (f : Nat) : Die := { d with freeFr := d.freeFr ++ [f], short := false }

/-- A page of a stack that becomes zero (R332): a CAVE page becomes ZERO, and one that no frame holds is zero and nothing else. -/
def State.zeroAt (s : State) (site lf : Nat) : State :=
  match frameSt (s.die site) lf with
  | .resident _ => s.clearPage (stackPage site lf) (s.stackEnc site)
  | st => (s.blankPage (stackPage site lf)).setDie site
      { s.die site with frames := tset (s.die site).frames lf .zero, caveUsed := (s.die site).caveUsed - chunksOf st }

/-- A page zeroed at home (R332). -/
def State.zeroRow (s : State) (ea : W64) (pa _n : Nat) : Iss State := do
  let h ← s.atStack s.me pa ea
  s.pageCopies s.me pa true ea
  .ok ((((s.dropPage (pa / 65536)).blocksMet s.me (pa / 65536)).zeroAt h.1 h.2).bumpStat (if s.stackEnc h.1 then 3 else 2) 64)

/-- `MROWZ` (R330 to R332). -/
def execMrowz (a b : BitVec 6) (s : State) : Host.Outcome State Fault Refusal :=
  s.run (s.rowHead a b) fun s => do
    s.popsOk [a, b]
    let x ← s.src a
    let y ← x.2.src b
    y.2.rowSpace x.1
    pageRange x.1 y.1
    let q ← y.2.rowPages x.1 y.1.toNat .write
    needTier q.1
    q.2.needFree q.1
    let u ← q.2.eachPart State.zeroRow q.1
    .ok u.goOn

/-- The row of a segment of a device frame: its bank and its place in the bank (R314). -/
def rowOf (frame seg : Nat) : Nat × Nat := (frame / 16384, (frame % 16384 + 8 * seg) % 16384)

/-- The device frame of a resident logical frame. -/
def frameNo (d : Die) (lf : Nat) : Nat :=
  match frameSt d lf with
  | .resident f => f
  | _ => 0

/-- The segments that a page copy makes inside the DRAM (R333). -/
def dramSegs (same enc : Bool) (f g : Nat) : Nat :=
  if same && !enc then
    ((List.range 64).filter fun k => (rowOf f k).1 == (rowOf g k).1 && (rowOf f k).2 / 512 == (rowOf g k).2 / 512).length
  else 0

/-- A line of an encrypted stack given the zero value (R324, R333), by its number at home. -/
def State.zeroValue (s : State) (h : Nat) : State :=
  let u := s.leaveRow h
  { u with minor := tdel u.minor h, lineBad := tdel u.lineBad h }

/-- A line copied at home (R333): poison is passed on without a fault, and the zero value is kept where the destination can hold it. -/
def State.copyLine (s : State) (w : Who) (from_ tgt : Nat) : State :=
  match s.homeRead w from_ 0 with
  | .ok (b, u) =>
    if u.zeroLine w from_ && (u.keyOf w (tgt * 64)).isSome then u.zeroValue (u.homeLine w tgt) else u.homeWrite w (tgt * 64) b
  | .error (.fault f) => let u := s.markBad f.bad; { u with lineBad := tset u.lineBad (u.homeLine w tgt) true }
  | .error (.stall _) => s

/-- A destination page given a frame without expansion (R333); held while the pool has none. -/
def State.freshFrame (s : State) (site lf : Nat) : Iss State :=
  match frameSt (s.die site) lf with
  | .resident _ => .ok s
  | _ => match expandFrame (s.die site) lf with
    | some d => .ok (s.setDie site d)
    | none => .error (.stall (.dry site))

/-- Pages copied one after another, each at its home (R331, R333). -/
def State.copyRows (s : State) : List (W64 × Nat × Nat) → List (W64 × Nat × Nat) → Iss State
  | (de, dp, _) :: dt, (se, sp, _) :: st => do
    let w := s.me
    let u ← s.rowReach sp se
    let f ← u.atStack w sp se
    let g ← u.atStack w dp de
    u.pageCopies w sp false se
    u.pageCopies w dp true de
    let v ← (u.backPage (sp / 65536)).freshFrame g.1 g.2
    let enc := v.stackEnc g.1
    let k := dramSegs (f.1 == g.1) (v.stackEnc f.1 || enc) (frameNo (v.die f.1) f.2) (frameNo (v.die g.1) g.2)
    let c := (List.zip (pageLines (sp / 65536)) (pageLines (dp / 65536))).foldl (fun t e => t.copyLine w e.1 e.2) ((v.dropPage (dp / 65536)).blocksMet w (dp / 65536))
    ((c.bumpStat 0 k).bumpStat 1 (64 - k)).copyRows dt st
  | _, _ => .ok s

/-- `MROWC` (R330, R331, R333). -/
def execMrowc (r a b : BitVec 6) (s : State) : Host.Outcome State Fault Refusal :=
  s.run (headOf .X (regOk r && s.srcOk a && s.srcOk b)) fun s => do
    s.popsOk [a, b]
    let z := s.reg r.toNat
    let x ← s.src a
    let y ← x.2.src b
    let n := y.1.toNat
    y.2.rowSpace z
    y.2.rowSpace x.1
    pageRange z y.1
    pageRange x.1 y.1
    need (!overlaps z.toNat (n * 65536) x.1.toNat (n * 65536)) .ROW_RANGE z 0
    let q ← y.2.copyPages z x.1 n
    needTier (q.1 ++ q.2.1)
    q.2.2.needFree (q.1 ++ q.2.1)
    let u ← q.2.2.copyRows q.1 q.2.1
    .ok u.goOn

/-! ### Location, write-back and frame states (R334 to R337) -/

/-- The location word of a byte of the device tier (R334). -/
def locWord (stack : Nat) (d : Die) (lf : Nat) (addr : W64) : W64 :=
  match frameSt d lf with
  | .resident f =>
    let pc := fieldW addr 15 10
    let q := (rowOf f pc).2
    packW [(stack, 57), (f, 37), (pc, 31), (bits f 19 18, 29), (bits f 17 16, 27), (bits f 15 14, 25), (q / 512, 20), (q % 512, 11)]
  | .cave _ _ => packW [(1, 62), (stack, 57), (lf, 37)]
  | .zero => packW [(2, 62), (stack, 57), (lf, 37)]

/-- `MLOC` (R317, R330, R334). A byte that no stack holds has no location that the manual states: a free value (log 13). -/
def execMloc (d : Bool) (r a : BitVec 6) (s : State) : Host.Outcome State Fault Refusal :=
  s.run (s.rowHeadR r a 62 true) fun s => do
    s.popsOk [a]
    s.room d r
    let x ← s.src a
    x.2.rowSpace x.1
    let q ← x.2.rowParts .either [(x.1, 1)]
    q.2.needFree q.1
    let pa := (q.1.map (·.2.1)).headD 0
    if farBase ≤ pa then .ok (q.2.put d r (packW [(3, 62)])).goOn
    else match q.2.homeOf q.2.me.c.site q.2.me.fold pa with
      | none => .ok (q.2.freshWord.2.put d r q.2.freshWord.1).goOn
      | some (n, lf) => do
        let h ← q.2.atStack q.2.me pa x.1
        .ok (q.2.put d r (locWord n (q.2.die h.1) lf x.1)).goOn

/-- A page whose dirty copies its home is to have back (R335), with `inv` and no copy left elsewhere: it has to be reached there (R305, R317,
R345), and keeps its state. -/
def State.invRow (s : State) (inv : Bool) (ea : W64) (pa _n : Nat) : Iss State := do
  let u ← if farBase ≤ pa then s.reachHome s.me pa ea else (s.atStack s.me pa ea).map fun _ => s
  u.pageCopies u.me pa inv ea
  let v := u.backPage (pa / 65536)
  .ok (if inv then v.dropPage (pa / 65536) else v)

/-- `MINV` (R330, R335). -/
def execMinv (a b : BitVec 6) (f : BitVec 3) (s : State) : Host.Outcome State Fault Refusal :=
  s.run (headOf .X (f < 2 && s.srcOk a && s.srcOk b)) fun s => do
    s.popsOk [a, b]
    let x ← s.src a
    let y ← x.2.src b
    y.2.rowSpace x.1
    pageRange x.1 y.1
    let q ← y.2.rowPages x.1 y.1.toNat .mapped
    q.2.needFree q.1
    let u ← q.2.eachPart (State.invRow · (f == 0)) q.1
    .ok u.goOn

/-- The state of a page as a result word has it: state in [63:62], chunks in [3:0] (R336). -/
def caveWord : FrameSt → W64
  | .resident _ => 0
  | .cave n _ => packW [(1, 62), (n, 0)]
  | .zero => packW [(2, 62)]

/-- Whether a line reads as 64 zero bytes at home (R326). -/
def State.readsZero (s : State) (w : Who) (line : Nat) : Bool :=
  match s.homeRead w line 0 with
  | .ok (b, _) => b.all (· == 0)
  | .error _ => false

/-- The bytes of a page at home. -/
def State.pageBytes (s : State) (w : Who) (page : Nat) : List Byte :=
  (pageLines page).flatMap fun l => match s.homeRead w l 0 with
    | .ok (b, _) => b
    | .error _ => List.replicate 64 0

/-- Every line of a page read once: what is found bad is corrected, or poisoned and logged (R323, R343). -/
def State.metPage (s : State) (w : Who) (page : Nat) : State :=
  (pageLines page).foldl (fun (u : State) l => match u.homeRead w l 0 with
    | .ok (_, v) => v
    | .error (.fault f) => u.markBad f.bad
    | .error (.stall _) => u) s

/-- A page compressed (R326): the chunks that the compressor needs are a free value (log 13), and they are kept under the fold key.
What the rows that it leaves were to meet yet goes with them. -/
def State.compress (s : State) (w : Who) (site lf page : Nat) : State :=
  let v := (s.backPage page).dropPage page
  match frameSt (v.die site) lf with
  | .resident f =>
    let u := v.metPage w page
    let d := u.die site
    if (pageLines page).all fun l => u.readsZero w l then
      (u.blankPage (stackPage site lf)).setDie site { d.freeFrame f with frames := tset d.frames lf .zero }
    else
      let n := max 1 (Config.compressChunks (u.pageBytes w page))
      if n ≤ 12 ∧ d.caveUsed + n ≤ cavefrOf d * 16 then
        ({ u with latent := tfilter (fun k _ => k / 1024 != stackPage site lf) u.latent } : State).setDie site
          { d.freeFrame f with frames := tset d.frames lf (.cave n (foldKey d)), caveUsed := d.caveUsed + n }
      else u
  | _ => v

/-- `MCOMP` (R326, R330, R336); of its page it needs R (log 84, DESIGN CHOICE). -/
def execMcomp (d : Bool) (r a : BitVec 6) (s : State) : Host.Outcome State Fault Refusal :=
  s.run (s.rowHeadR r a 62 true) fun s => do
    s.popsOk [a]
    s.room d r
    let x ← s.src a
    x.2.rowSpace x.1
    pageRange x.1 1
    let q ← x.2.rowPages x.1 1 .read
    needTier q.1
    q.2.needFree q.1
    let pa := (q.1.map (·.2.1)).headD 0
    let h ← q.2.atStack q.2.me pa x.1
    q.2.pageCopies q.2.me pa true x.1
    let u := q.2.compress q.2.me h.1 h.2 (pa / 65536)
    .ok (u.put d r (caveWord (frameSt (u.die h.1) h.2))).goOn

/-- `MEXPD` (R328, R330, R336): how many pages it changed is how far the counter of expansions has moved. Of its pages it needs R (log 84,
DESIGN CHOICE). -/
def execMexpd (d : Bool) (r a b : BitVec 6) (s : State) : Host.Outcome State Fault Refusal :=
  s.run (s.rowHeadR r a b true) fun s => do
    s.popsOk [a, b]
    s.room d r
    let x ← s.src a
    let y ← x.2.src b
    y.2.rowSpace x.1
    pageRange x.1 y.1
    let q ← y.2.rowPages x.1 y.1.toNat .read
    needTier q.1
    q.2.needFree q.1
    let u ← q.2.eachPart (fun s ea pa _ => s.rowReach pa ea) q.1
    .ok (u.put d r (tget 0 u.tm.mstat 4 - tget 0 q.2.tm.mstat 4)).goOn

/-- The lines of a counter block that are poisoned in one state and not in an earlier one (R337). -/
def newBad (s u : State) (block : Nat) : Nat :=
  ((List.range 64).filter fun k => !tget false s.lineBad (64 * block + k) && tget false u.lineBad (64 * block + k)).length

/-- A line scrubbed at home (R337): the counts of corrected and of newly poisoned lines go on. -/
def State.scrubLine (w : Who) (e : State × Nat × Nat) (line : Nat) : State × Nat × Nat :=
  let h := e.1.homeLine w line
  match e.1.homeRead w line 0 with
  | .ok (_, u) => (u, e.2.1 + (tget 0 e.1.latent h - tget 0 u.latent h), e.2.2)
  | .error (.fault f) => let u := e.1.markBad f.bad; (u, e.2.1, e.2.2 + newBad e.1 u (h / 64))
  | .error (.stall _) => e

/-- The resident pages of a list scrubbed (R337). -/
def State.scrubPages (s : State) (n : Nat × Nat) : List (W64 × Nat × Nat) → Iss ((Nat × Nat) × State)
  | [] => .ok (n, s)
  | (ea, pa, _) :: t => do
    let w := s.me
    let h ← s.atStack w pa ea
    s.pageCopies w pa false ea
    match frameSt (s.die h.1) h.2 with
    | .resident _ =>
      let r := (pageLines (pa / 65536)).foldl (State.scrubLine w) (s.backPage (pa / 65536), n.1, n.2)
      r.1.scrubPages (r.2.1, r.2.2) t
    | _ => s.scrubPages n t

/-- `MSCRB` (R330, R337). -/
def execMscrb (d : Bool) (r a b : BitVec 6) (s : State) : Host.Outcome State Fault Refusal :=
  s.run (s.rowHeadR r a b true) fun s => do
    s.popsOk [a, b]
    s.room d r
    let x ← s.src a
    let y ← x.2.src b
    y.2.rowSpace x.1
    pageRange x.1 y.1
    let q ← y.2.rowPages x.1 y.1.toNat .read
    needTier q.1
    q.2.needFree q.1
    let u ← q.2.scrubPages (0, 0) q.1
    .ok (u.2.put d r (packW [(u.1.1, 0), (u.1.2, 32)])).goOn

/-! ### Reductions and fills (R338 to R340) -/

/-- The elements of `n` bytes each that bytes hold. -/
def chunkNats (n : Nat) : Nat → List Byte → List Nat
  | 0, _ => []
  | k + 1, b => leNat (b.take n) :: chunkNats n k (b.drop n)

/-- A sum of FP32 codes in ascending order, each step rounded to nearest (R338). -/
def foldF32 : List Nat → W32
  | [] => 0
  | c :: t => t.foldl (fun a e => r32 0 (addN 0 (f32 a) (ffDecode fFP32 e))) (canon32 (BitVec.ofNat 32 c))

/-- The reductions of `MRED` by FN (R338). -/
def redArray (fn : Nat) (l : List Nat) : W64 :=
  match fn with
  | 0 => (foldF32 l).setWidth 64
  | 1 => (r32 0 (xaNum (l.foldl (fun x c => xaAdd x (ffDecode fFP32 c)) Xa.empty))).setWidth 64
  | 2 => (r32 0 (xaNum (l.foldl (fun x c => xaAdd x (ffDecode fBF16 c)) Xa.empty))).setWidth 64
  | _ => w64 (l.foldl (fun a c => a + sextNat 32 c) 0)

/-- The bytes of translated parts read at `.home` (R338). -/
def State.readHome (s : State) : List (W64 × Nat × Nat) → Iss (List Byte × State)
  | [] => .ok ([], s)
  | (ea, pa, n) :: t => do
    let u ← if isKick pa then .ok s else s.rowReach pa ea
    let b ← u.readBeyond u.me .home pa n ea (n / 64 + 2)
    let q ← b.2.readHome t
    .ok (b.1 ++ q.1, q.2)

/-- `MRED` (R330, R338). -/
def execMred (d : Bool) (r a b : BitVec 6) (f : BitVec 3) (s : State) : Host.Outcome State Fault Refusal :=
  s.run (s.rowHeadR r a b (f < 4)) fun s => do
    s.popsOk [a, b]
    s.room d r
    let x ← s.src a
    let y ← x.2.src b
    let n := y.1.toNat
    let size := if f == 2 then 2 else 4
    y.2.rowSpace x.1
    need (decide (1 ≤ n) && decide (n ≤ 2 ^ 20)) .ROW_RANGE x.1 0
    need (x.1.toNat % 4 == 0) .ALIGN x.1 0
    let q ← y.2.rowParts .read (rangeParts x.1 (n * size) (n * size / 65536 + 2))
    q.2.needFree q.1
    let u ← q.2.readHome q.1
    .ok (u.2.put d r (redArray f.toNat (chunkNats size n u.1))).goOn

/-- Bytes of a repeated pattern written at home, piece by piece; a whole piece at once, a part of one in place (R296, R331, R339). The bound
is the number of pieces. -/
def State.fillHome (s : State) (w : Who) (pat : W64) (pa n : Nat) (ea : W64) : Nat → Iss State
  | 0 => .ok s
  | k + 1 =>
    if n == 0 then .ok s
    else do
      let m := firstPart pa n
      s.reachCopies w (pa / 64) (s.holders (pa / 64)) ea
      let u ← if m == 64 then .ok (s.dropAll (pa / 64) (s.holders (pa / 64))) else (s.recallInv (pa / 64)).homeOpen w (pa / 64) ea
      (u.homeWrite w pa ((List.replicate (m / 8) (leBytes 8 pat.toNat)).flatten)).fillHome w pat (pa + m) (n - m) ea k

/-- The pattern written to one part of a range: to a kick word it is a kick (R339, R411, R412). -/
def State.fillPart (s : State) (pat ea : W64) (pa n : Nat) : Iss State :=
  if isKick pa then s.kickRange s.me pa n ea
  else do
    let v ← s.rowReach pa ea
    v.fillHome v.me pat pa n ea (n / 64 + 2)

/-- `MFILL` (R330, R331, R339). -/
def execMfill (r a b : BitVec 6) (s : State) : Host.Outcome State Fault Refusal :=
  s.run (headOf .X (regOk r && s.srcOk a && s.srcOk b)) fun s => do
    s.popsOk [a, b]
    let z := s.reg r.toNat
    let x ← s.src a
    let y ← x.2.src b
    let n := y.1.toNat
    y.2.rowSpace x.1
    need (x.1.toNat % 8 == 0 && n % 8 == 0 && decide (1 ≤ n) && decide (n ≤ 2 ^ 32)) .ROW_RANGE x.1 0
    let q ← y.2.rowParts .write (rangeParts x.1 n (n / 65536 + 2))
    q.2.needFree q.1
    let u ← q.2.eachPart (fun s ea pa n => s.fillPart z ea pa n) q.1
    .ok u.goOn

/-- `MSTAT` (R340). -/
def execMstat (d : Bool) (r : BitVec 6) (f : BitVec 3) (s : State) : Host.Outcome State Fault Refusal :=
  s.run (headOf .X (f < 5 && s.destOk r)) fun s => s.frameV d r (tget 0 s.tm.mstat f.toNat)

/-! ### Migration (R341, R347) -/

/-- The FAR die whose migration engine works (R341): the one of the lower site index. -/
def migSite : Nat := 21

/-- The migration engine as a requester: it works for a team, and maps through its own die's copy of the window table (R315, R341). -/
def migWho (w : Who) : Who := { dieWho migSite with fold := w.fold, team := w.team }

/-- The number of a fold's migration pool of a tier, 0 device and 1 far (R347). -/
def poolKey (fold : Nat) (far : Bool) : Nat := 2 * fold + b2n far

/-- A frame popped from a migration pool (R347): none where the pool is empty. -/
def State.popFrame (s : State) (w : Who) (key : Nat) (ea : W64) : Iss (Option Nat × State) :=
  let d := s.die migSite
  let e := tget (0, 0) d.pools key
  if e.2 == 0 then .ok (none, s)
  else do
    let r ← s.cohRead (migWho w).walker .home (offOf e.1 + 8 * (e.2.toNat - 1)) 8 ea
    let d1 := r.2.die migSite
    .ok (some (leNat r.1), r.2.setDie migSite { d1 with pools := tset d1.pools key (e.1, e.2 - 1) })

/-- A frame pushed onto a migration pool (R347). -/
def State.pushFrame (s : State) (w : Who) (key frame : Nat) (ea : W64) : Iss State := do
  let e := tget (0, 0) (s.die migSite).pools key
  let u ← s.cohWrite (migWho w).walker .home (offOf e.1 + 8 * e.2.toNat) (leBytes 8 frame) ea
  let d1 := u.die migSite
  .ok (u.setDie migSite { d1 with pools := tset d1.pools key (e.1, e.2 + 1) })

/-- The leaf of a page: its PTE, the PTE's address and its level (R341, R377). -/
def State.leafOf (s : State) (w : Who) (p : W64) : Iss (Nat × Nat × State) := do
  let r ← s.walkRoot w p
  let q ← r.2.walkFrom w (offOf p) p 4 r.1 0
  need (q.2.2.1 == 3) .ROW_RANGE p 0
  .ok (q.1, q.2.1, q.2.2.2)

/-- A page's lines copied to its new frame, every cached copy of either recalled or invalidated first (R295, R341 steps 2 and 3). -/
def State.migCopy (s : State) (w : Who) (old new : Nat) : State :=
  (List.zip (pageLines old) (pageLines new)).foldl (fun t e => t.copyLine w e.1 e.2)
    ((((s.backPage old).dropPage old).dropPage new).blocksMet w new)

/-- The copies of a page in the L1s go with the page (R366): each is a copy of the line at its new place, and what an L1 still holds of the
new frame from before is stale. -/
def State.moveL1 (s : State) (old new : Nat) : State :=
  { s with cores := tmap (fun _ (k : CoreSt) => { k with l1 := tmap (fun _ (l : L1Line) =>
      if l.line / 1024 == old then { l with line := new * 1024 + l.line % 1024 }
      else if l.line / 1024 == new then { l with stale := true } else l) k.l1 }) s.cores }

/-- Steps 1 to 6 of a migration up to the sending of the invalidation, which the FAR die broadcasts and whose acknowledgements go to it
(R341). -/
def State.migStart (s : State) (w : Who) (p : W64) (pte at_ pa new : Nat) : Iss State := do
  let e := migWho w
  let a ← s.reachHome e pa p
  let b ← a.reachHome e new p
  b.pageCopies e pa true p
  b.pageCopies e new true p
  let c := (b.migCopy e (pa / 65536) (new / 65536)).moveL1 (pa / 65536) (new / 65536)
  let pte' := (BitVec.ofNat 64 pte &&& 0xFFFF000000000FFF ||| BitVec.ofNat 64 (new / 4096 * 4096)).toNat
  let d ← c.cohWrite e.walker .home at_ (leBytes 8 pte') p
  let sites := d.xlatSites w.drv
  let m : Mig := { core := w.c, old := pa / 65536, new := new / 65536 }
  let g : State := { d with migrate := d.migrate ++ [m] }
  let f := g.setCore w.c { g.core w.c with tlbi := some sites }
  .ok (f.sendTlbi { kind := 3, asid := 0, va := offOf p, by_ := some w.c, from_ := migSite, lost := false } sites)

/-- The end of a migration (R341 step 7): the forwarding ends and the old frame enters its pool. -/
def State.migEnd (s : State) (w : Who) (key : Nat) (p : W64) (m : Mig) : Iss State := do
  let u ← s.pushFrame w key (m.old * 65536) p
  .ok (({ u with migrate := u.migrate.filter (· != m) }).setCore w.c { u.core w.c with tlbi := none })

/-- A word's source taken and its result written, at the end of a word that has waited: the source is popped only now. -/
def State.lateResult (s : State) (d : Bool) (r a : BitVec 6) (v : W64) : Iss Done := do
  let z ← s.src a
  .ok (z.2.put d r v).goOn

/-- `MMIG` (R330, R341, R347): X waits until every die has acknowledged. With a status of 1 or 2 there is no new address: a free
value. Of its page it needs R (log 84, DESIGN CHOICE). -/
def execMmig (d : Bool) (r a : BitVec 6) (f : BitVec 3) (s : State) : Host.Outcome State Fault Refusal :=
  s.run (s.rowHeadR r a 62 (f < 2)) fun s => do
    let toFar := f == 0
    s.popsOk [a]
    s.room d r
    let x ← s.src a
    let p := x.1
    let w := s.me
    let key := poolKey (w.fold.getD 0)
    match s.migrate.find? fun m => m.core == s.cur with
    | some m => do
      needWait (match (s.core s.cur).tlbi with | some (_ :: _) => false | _ => true)
      let u ← s.migEnd w (key !toFar) p m
      u.lateResult d r a (BitVec.ofNat 64 (m.new * 65536))
    | none => do
      s.rowSpace p
      pageRange p 1
      need (s.partOk p 65536) .BOUNDS p 0
      let l0 ← s.leafOf w p
      let q ← l0.2.2.rowPages p 1 .read
      let l ← q.2.leafOf w p
      l.2.2.needFree q.1
      let pa := (q.1.map (·.2.1)).headD 0
      let no := fun (k : Nat) (u : State) =>
        let v := u.freshWord
        v.2.lateResult d r a ((v.1 &&& 0xFFFFFFFFFFFF) ||| packW [(k, 48)])
      need (l.2.2.twoWay w.c.site migSite) .POISON p 0
      if decide (farBase ≤ pa) == toFar then no 1 l.2.2
      else do
        let t ← l.2.2.popFrame w (key toFar) p
        match t.1 with
        | none => no 2 t.2
        | some new => do
          let u ← t.2.migStart w p l.1 l.2.1 pa new
          .ok { u.goOn with held := some .stall }

end Sys2Proof.Machine
end

