-- ==== Sys2Proof/Machine/VecFloat.lean ====
section
/-! DEFINITION. Floating element operations of the vector half, dot products, scaling, reductions and scan (R198 to R206), and the
quantise words of VEC (R224 to R226). -/

namespace Sys2Proof.Machine

/-- An exact result as an element code of a floating entry, rounded and saturated as the entry says (R198). -/
def encF (f : W32) (x : ExNum) : Nat := ffEncode (enFmt f) (enRnd f) (enSat f) x

/-- A two-operand operation on the elements of a floating entry. -/
def State.vfloat2 (s : State) (d : Bool) (r a b : BitVec 6) (slot : BitVec 3) (op : Nat → ExNum → ExNum → ExNum) : Iss Done :=
  let f := s.fmtEntry slot.toNat
  s.vec2 d r a b (fmtFits f elFloat) fun x y =>
    List.zipWith (lane2 (enBits f) fun p q => encF f (op (enRnd f) (decElem f p) (decElem f q))) x y

/-- `VADD` (R198). -/
def execVadd (d : Bool) (r a b : BitVec 6) (k : BitVec 3) (s : State) : Host.Outcome State Fault Refusal :=
  s.run (s.headV2 r a b) fun s => s.vfloat2 d r a b k addN

/-- `VSUB` (R198). -/
def execVsub (d : Bool) (r a b : BitVec 6) (k : BitVec 3) (s : State) : Host.Outcome State Fault Refusal :=
  s.run (s.headV2 r a b) fun s => s.vfloat2 d r a b k fun m x y => addN m x y.neg

/-- `VMUL` (R198). -/
def execVmul (d : Bool) (r a b : BitVec 6) (k : BitVec 3) (s : State) : Host.Outcome State Fault Refusal :=
  s.run (s.headV2 r a b) fun s => s.vfloat2 d r a b k fun _ => mulN

/-- A fused operation on the elements of a floating entry, the destination register being the addend. -/
def State.vfused (s : State) (d : Bool) (r a b : BitVec 6) (slot : BitVec 3) (op : ExNum → ExNum → ExNum) : Iss Done :=
  let f := s.fmtEntry slot.toNat
  s.vec3 d r a b (fmtFits f elFloat) fun z x y =>
    zip3 (lane3 (enBits f) fun c p q => encF f (addN (enRnd f) (decElem f c) (op (decElem f p) (decElem f q)))) z x y

/-- `VFMA` (R198). -/
def execVfma (d : Bool) (r a b : BitVec 6) (k : BitVec 3) (s : State) : Host.Outcome State Fault Refusal :=
  s.run (s.headV3 r a b) fun s => s.vfused d r a b k mulN

/-- `VFNMA` (R198). -/
def execVfnma (d : Bool) (r a b : BitVec 6) (k : BitVec 3) (s : State) : Host.Outcome State Fault Refusal :=
  s.run (s.headV3 r a b) fun s => s.vfused d r a b k fun x y => (mulN x y).neg

/-- `VMIN` (R198, R115). -/
def execVmin (d : Bool) (r a b : BitVec 6) (k : BitVec 3) (s : State) : Host.Outcome State Fault Refusal :=
  s.run (s.headV2 r a b) fun s => s.vfloat2 d r a b k fun _ => minN

/-- `VMAX` (R198, R115). -/
def execVmax (d : Bool) (r a b : BitVec 6) (k : BitVec 3) (s : State) : Host.Outcome State Fault Refusal :=
  s.run (s.headV2 r a b) fun s => s.vfloat2 d r a b k fun _ => maxN

/-- A one-operand operation on the elements of a floating entry, by codes. -/
def State.vfloat1 (s : State) (d : Bool) (r a : BitVec 6) (slot : BitVec 3) (op : W32 → ExNum → Nat) : Iss Done :=
  let f := s.fmtEntry slot.toNat
  s.vec1 d r a (fmtFits f elFloat) fun x => x.map (lane1 (enBits f) fun p => op f (decElem f p))

/-- An integral value of a finite number in a rounding mode, with the sign of zero kept (R199). -/
def integral (mode : Nat) : ExNum → ExNum
  | .fin n m e => .fin n (roundInt mode n m e).natAbs 0
  | x => x

/-- The sub-operations of `VUNA` (R199). 0 to 5 ignore RND and SAT. -/
def vunaOp (k : Nat) (f : W32) (x : ExNum) : Nat :=
  let plain := ffEncode (enFmt f) 0 false
  match k with
  | 0 => plain x.abs
  | 1 => plain x.neg
  | 2 => plain (integral 3 x)
  | 3 => plain (integral 2 x)
  | 4 => plain (integral 0 x)
  | 5 => plain (integral 1 x)
  | _ => encF f (sqrtN x)

/-- `VUNA` (R199). -/
def execVuna (d : Bool) (r a b : BitVec 6) (k : BitVec 3) (s : State) : Host.Outcome State Fault Refusal :=
  s.run (s.headV1 r a (b < 7)) fun s => s.vfloat1 d r a k (vunaOp b.toNat)

/-- `VRCP` (R199). -/
def execVrcp (d : Bool) (r a : BitVec 6) (k : BitVec 3) (s : State) : Host.Outcome State Fault Refusal :=
  s.run (s.headV1 r a true) fun s => s.vfloat1 d r a k fun f x => encF f (recipN x)

/-- `VRSQ` (R199). -/
def execVrsq (d : Bool) (r a : BitVec 6) (k : BitVec 3) (s : State) : Host.Outcome State Fault Refusal :=
  s.run (s.headV1 r a true) fun s => s.vfloat1 d r a k fun f x => encF f (rsqrtN x)

/-- `VEXP2` (R199). -/
def execVexp2 (d : Bool) (r a : BitVec 6) (k : BitVec 3) (s : State) : Host.Outcome State Fault Refusal :=
  s.run (s.headV1 r a true) fun s => s.vfloat1 d r a k fun f x => exp2F (enFmt f) (enRnd f) (enSat f) x

/-- `VLOG2` (R199). -/
def execVlog2 (d : Bool) (r a : BitVec 6) (k : BitVec 3) (s : State) : Host.Outcome State Fault Refusal :=
  s.run (s.headV1 r a true) fun s => s.vfloat1 d r a k fun f x => log2F (enFmt f) (enRnd f) (enSat f) x

/-- The conditions of `VCMP` (R200). -/
def vcmpCond (k : BitVec 3) (a b : W32) : Bool :=
  let x := f32 a
  let y := f32 b
  match k.toNat with
  | 0 => eqN x y
  | 1 => !eqN x y
  | 2 => ltN x y
  | 3 => ltN x y || eqN x y
  | 4 => ltN y x
  | 5 => ltN y x || eqN x y
  | 6 => x.isNaN || y.isNaN
  | _ => !(x.isNaN || y.isNaN)

/-- `VCMP` (R200). -/
def execVcmp (d : Bool) (k m : BitVec 3) (a b : BitVec 6) (f : BitVec 3) (s : State) : Host.Outcome State Fault Refusal :=
  s.run (headX (m != 7 && s.srcOk a && s.srcOk b)) fun s =>
    s.vecMask d m a b (fmtFits (s.fmtEntry f.toNat) elFP32) (vcmpCond k)

/-- `VCVT` (R202): SB raw holds the destination slot. -/
def execVcvt (d : Bool) (r a b : BitVec 6) (k : BitVec 3) (s : State) : Host.Outcome State Fault Refusal :=
  s.run (s.headV1 r a (b < 8)) fun s =>
    let f := s.fmtEntry k.toNat
    let g := s.fmtEntry b.toNat
    let n := s.lanes
    s.vec1 d r a (enOk f && enOk g) fun x =>
      packLanes (enBits g) n ((allElems (enBits f) x).map fun c => encElem g (enRnd g) (decElem f c))

/-! ### Dot products and scaling -/

/-- The lanes of a group of `VDOT` (R203). -/
def groupLanes (f : W32) : Nat := if enBlk f == 0 then 1 else enBlock f * enBits f / 32

/-- The exact group sums, one for each lane: the first lane of a group has its sum, every other an exact zero (R203). The bound is the
number of lanes. -/
def dotLanes (f : W32) (g : Nat) : Nat → List W32 → List W32 → List ExNum
  | 0, _, _ => []
  | n + 1, x, y =>
    if x.isEmpty then []
    else
      let ps := List.zipWith (fun p q => mulN (decElem f p) (decElem f q)) (allElems (enBits f) (x.take g)) (allElems (enBits f) (y.take g))
      sumN ps :: List.replicate (g - 1) (.fin false 0 0) ++ dotLanes f g n (x.drop g) (y.drop g)

/-- An exact value as an FP32 lane under an entry's RND and SAT. -/
def encL (f : W32) (x : ExNum) : W32 := BitVec.ofNat 32 (ffEncode fFP32 (enRnd f) (enSat f) x)

/-- `VDOT` (R203). -/
def execVdot (d : Bool) (r a b : BitVec 6) (k : BitVec 3) (s : State) : Host.Outcome State Fault Refusal :=
  s.run (s.headV2 r a b) fun s =>
    let f := s.fmtEntry k.toNat
    s.vec2 d r a b (fmtFits f elPacked) fun x y => (dotLanes f (groupLanes f) x.length x y).map (encL f)

/-- `VDOTA` (R203). -/
def execVdota (d : Bool) (r a b : BitVec 6) (k : BitVec 3) (s : State) : Host.Outcome State Fault Refusal :=
  s.run (s.headV3 r a b) fun s =>
    let f := s.fmtEntry k.toNat
    s.vec3 d r a b (fmtFits f elPacked) fun z x y =>
      List.zipWith (fun c v => encL f (addN (enRnd f) (f32 c) v)) z (dotLanes f (groupLanes f) x.length x y)

/-- `VSCL2` (R204). -/
def execVscl2 (d : Bool) (r a b : BitVec 6) (k : BitVec 3) (s : State) : Host.Outcome State Fault Refusal :=
  s.run (s.headV2 r a b) fun s =>
    let f := s.fmtEntry k.toNat
    s.vec2 d r a b (enOk f && enScale f != 0) fun x y =>
      List.zipWith (fun p q => encL f (mulN (mulN (decScale f (q.toNat % 65536)) (decScale f (q.toNat / 65536))) (f32 p))) x y

/-! ### Reductions and scan -/

/-- One level of the pairwise tree (R205). -/
def pairUp {α : Type} (op : α → α → α) : List α → List α
  | a :: b :: t => op a b :: pairUp op t
  | l => l

/-- The pairwise tree, level by level (R205). -/
def treeFold {α : Type} (op : α → α → α) : Nat → List α → List α
  | 0, l => l
  | n + 1, l => treeFold op n (pairUp op l)

/-- The lanes of an operand, those whose active-mask bit is clear replaced. -/
def State.maskLanes (s : State) (other : W32) (l : List W32) : List W32 :=
  (numbered l).map fun e => if s.laneOn e.1 then e.2 else other

/-- Lane 0 holding a value, every other lane zero. -/
def lane0 (n : Nat) (v : W32) : List W32 := v :: List.replicate (n - 1) 0

/-- `VRSUM` (R205). -/
def execVrsum (d : Bool) (r a : BitVec 6) (k : BitVec 3) (s : State) : Host.Outcome State Fault Refusal :=
  s.run (s.headV1 r a true) fun s =>
    let f := s.fmtEntry k.toNat
    s.vec1 d r a (fmtFits f elFP32) fun x =>
      lane0 s.lanes ((treeFold (fun p q => encL f (addN (enRnd f) (f32 p) (f32 q))) 7 (s.maskLanes 0 x)).getD 0 0)

/-- The maximum of the active lanes, which enters the result through `Canon` of the entry (R10, R72), and the lowest index of an active lane
that holds it (R205). -/
def State.maxLanes (s : State) (f : W32) (x : List W32) : List W32 :=
  let n := s.lanes
  let act := (numbered x).filter fun e => s.laneOn e.1
  let m := act.foldl (fun a e => maxN a (f32 e.2)) (.inf true)
  let idx := match act.find? fun e => canon32 e.2 == r32 0 m with
    | some e => e.1
    | none => n
  encL f m :: BitVec.ofNat 32 idx :: List.replicate (n - 2) 0

/-- `VRMAX` (R205). -/
def execVrmax (d : Bool) (r a : BitVec 6) (k : BitVec 3) (s : State) : Host.Outcome State Fault Refusal :=
  s.run (s.headV1 r a true) fun s =>
    let f := s.fmtEntry k.toNat
    s.vec1 d r a (fmtFits f elFP32) (s.maxLanes f)

/-- Running sums (R206). -/
def scanFrom (f : W32) (acc : W32) : List W32 → List W32
  | [] => []
  | v :: t => let r := encL f (addN (enRnd f) (f32 acc) (f32 v)); r :: scanFrom f r t

/-- `VSCAN` (R206). -/
def execVscan (d : Bool) (r a : BitVec 6) (k : BitVec 3) (s : State) : Host.Outcome State Fault Refusal :=
  s.run (s.headV1 r a true) fun s =>
    let f := s.fmtEntry k.toNat
    s.vec1 d r a (fmtFits f elFP32) fun x =>
      match s.maskLanes 0 x with
      | [] => []
      | v :: t => let c := encL f (f32 v); c :: scanFrom f c t

/-! ### Quantise and dequantise -/

/-- The element formats of `VQNT` and `VDQNT`, with a scale (R224). -/
def quantFits (f : W32) : Bool := enOk f && decide (3 ≤ enElem f) && decide (enElem f ≤ 9) && enScale f != 0

/-- The exact quotient of two values as far as any rounding can tell: `p` extra bits, with a sticky bit below (R225). -/
def quotN : ExNum → ExNum → ExNum
  | .nan, _ => .nan
  | _, .nan => .nan
  | .inf a, .fin b _ _ => .inf (a != b)
  | .inf _, .inf _ => .nan
  | .fin a _ _, .inf b => .fin (a != b) 0 0
  | .fin a m e, .fin b n g =>
    if n == 0 then (if m == 0 then .nan else .inf (a != b))
    else
      let q := m * 2 ^ 64 / n
      let r := m * 2 ^ 64 % n
      withSticky (a != b) q (r == 0) (e - g - 64)

/-- `VQNT` (R225). -/
def execVqnt (d : Bool) (r a b : BitVec 6) (k : BitVec 3) (s : State) : Host.Outcome State Fault Refusal :=
  s.run (s.headV2 r a b) fun s =>
    let f := s.fmtEntry k.toNat
    let n := s.lanes
    s.vec2 d r a b (quantFits f) fun x y =>
      packLanes (enBits f) n
        (List.zipWith (fun p q => encElem f (enRnd f) (quotN (f32 p) (decScale f (q.toNat % 65536)))) x y)

/-- `VDQNT` (R226). -/
def execVdqnt (d : Bool) (r a b : BitVec 6) (k : BitVec 3) (s : State) : Host.Outcome State Fault Refusal :=
  s.run (s.headV2 r a b) fun s =>
    let f := s.fmtEntry k.toNat
    s.vec2 d r a b (quantFits f) fun x y =>
      List.zipWith (fun c q => encL f (mulN (decElem f c) (decScale f (q.toNat % 65536)))) (allElems (enBits f) x) y

end Sys2Proof.Machine
end

