-- ==== Sys2Proof/Machine/Cube.lean ====
section
/-! DEFINITION. The class instructions of CUBE cores, their tiles, the lease of the array, and tile transfers (R90 to R94, R228 to
R254). -/

namespace Sys2Proof.Machine

/-! ### Tiles (R230 to R232) -/

/-- A tile at team start (R230): 64 x 64 FP32. -/
def Tile.reset : Tile := { shape := 0x4040, elems := [], scales := [], poison := none }

/-- A tile of a team. -/
def TeamSt.tile (t : TeamSt) (k : Nat) : Tile := tget Tile.reset t.tiles k

/-- A team with a tile changed. -/
def TeamSt.setTile (t : TeamSt) (k : Nat) (v : Tile) : TeamSt := { t with tiles := tset t.tiles k v }

/-- ROWS of a shape word (R231). -/
def shRows (w : W64) : Nat := fieldW w 7 0

/-- COLS of a shape word (R231). -/
def shCols (w : W64) : Nat := fieldW w 15 8

/-- AXIS of a shape word (R231). -/
def shAxis (w : W64) : Bool := w.getLsbD 32

/-- The type fields of a shape word, placed as a format table entry has them (R84, R231). -/
def shType (w : W64) : W32 :=
  BitVec.ofNat 32 (fieldW w 19 16 + fieldW w 22 20 * 2 ^ 8 + fieldW w 23 23 * 2 ^ 11 + fieldW w 27 24 * 2 ^ 14 + fieldW w 31 28 * 2 ^ 18)

/-- The type of a slot: the entry without its readings, rounding and SAT (R230). -/
def typeOf (f : W32) : W32 := f &&& 0x003FCF0F

/-- Whether a type is of the narrow group (R230). -/
def narrow (f : W32) : Bool := enElem f == 5 || enElem f == 9 || (enElem f == 6 && decide (1 ≤ enPrec f) && decide (enPrec f ≤ 3))

/-- Bytes of a scale code (R231). -/
def scaleBytes (f : W32) : Nat := if enScale f == 4 then 2 else 1

/-- The lines of a shape's scale area (R231). -/
def scLines (w : W64) : Nat := if shAxis w then shCols w else shRows w

/-- The codes of a line of a shape's scale area (R231). -/
def scCodes (w : W64) : Nat :=
  let b := enBlock (shType w)
  if b == 0 then 0 else (if shAxis w then shRows w else shCols w) / b

/-- Whether a shape word is valid (R231). -/
def shapeOk (w : W64) : Bool :=
  let f := shType w
  let top := if narrow f then 128 else 64
  let rows := shRows w
  let cols := shCols w
  let b := enBlock f
  let line := if shAxis w then rows else cols
  w >>> 33 == 0 && rows % 8 == 0 && decide (8 ≤ rows) && decide (rows ≤ top) && cols % 8 == 0 && decide (8 ≤ cols) && decide (cols ≤ top)
  && enOk f && (b == 0 || line % b == 0) && decide (rows * cols * enBits f / 8 + scLines w * scCodes w * scaleBytes f ≤ 16384)

/-- The code of 1.0 in a scale format (R243). -/
def scaleOne (f : W32) : BitVec 16 :=
  match enScale f with
  | 1 => 0x7F
  | 2 => 0x3C
  | 3 => 0x38
  | 4 => 0x3F80
  | _ => 0

/-- The code of a tile's element. -/
def Tile.at (t : Tile) (r c : Nat) : W32 := tget 0 t.elems (r * 256 + c)

/-- A code of a tile's scale area. -/
def Tile.scaleAt (t : Tile) (line place : Nat) : BitVec 16 := tget (scaleOne (shType t.shape)) t.scales (line * 256 + place)

/-- A tile with its elements given anew by row and column, and its poison cleared (R253). -/
def Tile.fill (t : Tile) (f : Nat → Nat → W32) : Tile :=
  { t with
    elems := (List.range (shRows t.shape)).flatMap fun r => (List.range (shCols t.shape)).map fun c => (r * 256 + c, f r c),
    poison := none }

/-- A tile operand: the tile's number (R45). -/
def tileNo (a : BitVec 7) : Nat := a.toNat / 4

/-- A tile operand: its direction (R45). -/
def tileDir (a : BitVec 7) : Nat := a.toNat % 4

/-- Whether a tile operand has a direction that R45 names. -/
def tileOk (a : BitVec 7) : Bool := tileDir a != 3

/-- The row and column of the tile that an effective operand shows at a place (R232). -/
def effPlace (w : W64) (dir d p q : Nat) : Nat × Nat :=
  match dir with
  | 0 => (p, q)
  | 1 => (q, p)
  | _ => (q, (q + d) % shCols w)

/-- Whether an effective operand has at least `n` rows (R232). -/
def effRows (w : W64) (dir n : Nat) : Bool :=
  match dir with
  | 0 => decide (n ≤ shRows w)
  | 1 => decide (n ≤ shCols w)
  | _ => true

/-- The effective columns of an operand (R232). -/
def effCols (w : W64) (dir : Nat) : Nat :=
  match dir with
  | 0 => shCols w
  | _ => shRows w

/-- The effective scale axis of an operand that is not read through direction 10 (R232). -/
def effAxis (w : W64) (dir : Nat) : Bool := if dir == 1 then !shAxis w else shAxis w

/-- The value of a tile's element under a slot's entry, with its block's scale (R88, R232). -/
def Tile.val (t : Tile) (f : W32) (rc : Nat × Nat) : ExNum :=
  let x := decElem f (t.at rc.1 rc.2).toNat
  let b := enBlock (shType t.shape)
  if b == 0 then x
  else
    let s := if shAxis t.shape then t.scaleAt rc.2 (rc.1 / b) else t.scaleAt rc.1 (rc.2 / b)
    mulN x (decScale f s.toNat)

/-- The tile that an operand names. -/
def TeamSt.tileOf (t : TeamSt) (a : BitVec 7) : Tile := t.tile (tileNo a)

/-- The value of an effective operand at a place (R232). -/
def TeamSt.eff (t : TeamSt) (a : BitVec 7) (f : W32) (p q : Nat) : ExNum :=
  let x := t.tileOf a
  x.val f (effPlace x.shape (tileDir a) t.ix2.toNat p q)

/-- The code of an effective operand at a place. -/
def TeamSt.effCode (t : TeamSt) (a : BitVec 7) (p q : Nat) : W32 :=
  let x := t.tileOf a
  let rc := effPlace x.shape (tileDir a) t.ix2.toNat p q
  x.at rc.1 rc.2

/-- A staging field (R233). -/
def TeamSt.stage (t : TeamSt) (k : Nat) : Nat := tget 0 t.staging k

/-! ### The checks that cube instructions share (R249, R250) -/

/-- An instruction that accesses tiles waits while a transfer of an earlier span to one of them has not taken effect (R249). -/
def State.tilesFree (s : State) (l : List (BitVec 7)) : Iss Unit :=
  needWait (!s.tm.tq.any fun x => decide (x.tag < s.tm.x.span) && l.any fun a => tileNo a == tileNo x.ta)

/-- A `SHAPE` check. -/
def needShape (b : Bool) : Iss Unit := need b .SHAPE 0 0

/-- A `TILETYPE` check: the tile has the type of the slot. -/
def State.needType (s : State) (a : BitVec 7) (f : W32) : Iss Unit := need (shType (s.tm.tileOf a).shape == typeOf f) .TILETYPE 0 0

/-- The poison of the tiles that an instruction reads, in the order of its operands (R250). -/
def State.tilePoison (s : State) : List (BitVec 7) → Iss Unit
  | [] => .ok ()
  | a :: t =>
    match (s.tm.tileOf a).poison with
    | some c => flt c 0 0
    | none => s.tilePoison t

/-- The state with the tile of an operand changed. -/
def State.putTile (s : State) (a : BitVec 7) (v : Tile) : State := s.setTm (s.tm.setTile (tileNo a) v)

/-- An operand at least as large as a tile, through its direction; a block-scaled tile has no direction 10 (R232, R244, R245). -/
def State.coversTile (s : State) (b : BitVec 7) (tgt : Tile) : Bool :=
  let w := (s.tm.tileOf b).shape
  effRows w (tileDir b) (shRows tgt.shape) && decide (shCols tgt.shape ≤ effCols w (tileDir b))
  && (tileDir b != 2 || enBlk (shType w) == 0)

/-! ### The lease (R235) -/

/-- A core of a CUB die that holds the array, if one does. -/
def State.leaseHolder (s : State) (site : Nat) : Option Nat :=
  (List.range 4).find? fun k => (s.core ⟨site, k⟩).lease == .held

/-- The free array granted to the first WANT core after the last holder (R235). -/
def State.grantLease (s : State) (site : Nat) : State :=
  if (s.leaseHolder site).isSome then s
  else
    match ((List.range 4).map fun k => ((s.die site).lastHold + 1 + k) % 4).find? fun k => (s.core ⟨site, k⟩).lease == .want with
    | none => s
    | some k =>
      let c : CoreId := ⟨site, k⟩
      let s1 := s.setCore c { s.core c with lease := .held, leaseN := 0, leaseT := s.cyc, leaseU := s.cyc }
      s1.setDie site { s1.die site with lastHold := k }

/-- The lease taken from a core: it wants the lease again, or it does not, and the lease passes on (R235). -/
def State.passLease (s : State) (c : CoreId) (tgt : LeaseSt) : State :=
  (s.setCore c { s.core c with lease := tgt }).grantLease c.site

/-- Whether a held lease's budget of commands and cycles is left and it has not been idle (R235). -/
def leaseLive (k : CoreSt) (cyc : Nat) : Bool := decide (k.leaseN < 16) && decide (cyc < k.leaseT + 4096) && decide (cyc < k.leaseU + 1024)

/-- The lease that a command needs (R235). -/
def State.needLease (s : State) : Iss Unit :=
  let k := s.core s.cur
  match k.lease with
  | .none => flt .LEASE 0 0
  | .want => hold
  | .held => needWait (leaseLive k s.cyc)

/-- A command counted against the budget; the 16th gives the lease up (R235). -/
def State.spendLease (s : State) : State :=
  let k := s.core s.cur
  let s1 := s.setCore s.cur { k with leaseN := k.leaseN + 1, leaseU := s.cyc }
  if k.leaseN + 1 < 16 then s1 else s1.passLease s.cur .want

/-- `CLEASE` (R235, R236). -/
def execClease (s : State) : Host.Outcome State Fault Refusal :=
  s.run (headOf .X true) fun s =>
    let k := s.core s.cur
    .ok (if k.lease == .none then s.setCore s.cur { k with lease := .want } else s).goOn

/-- `CREL` (R235, R236). -/
def execCrel (s : State) : Host.Outcome State Fault Refusal :=
  s.run (headOf .X true) fun s => .ok (s.passLease s.cur .none).goOn

/-- `CWAIT` (R228, R236): every command has finished when the next X instruction issues, so there is nothing left to wait for. -/
def execCwait (s : State) : Host.Outcome State Fault Refusal := s.run (headOf .X true) fun s => .ok s.goOn

/-- `LEASE_GRANT` (R235). -/
def execLeaseGrant (s : State) : Host.Outcome State Fault Refusal :=
  .next (if Config.kindAt s.ev.site == .cub then s.grantLease s.ev.site else s)

/-- `LEASE_BUDGET_EXPIRY` (R235): 16 commands, or 4096 cycles since the grant. -/
def execLeaseBudgetExpiry (s : State) : Host.Outcome State Fault Refusal :=
  .next (match s.leaseHolder s.ev.site with
    | some k =>
      let c : CoreId := ⟨s.ev.site, k⟩
      if 16 ≤ (s.core c).leaseN ∨ (s.core c).leaseT + 4096 ≤ s.cyc then s.passLease c .want else s
    | none => s)

/-- `LEASE_IDLE_EXPIRY` (R235): 1024 cycles without a command. -/
def execLeaseIdleExpiry (s : State) : Host.Outcome State Fault Refusal :=
  .next (match s.leaseHolder s.ev.site with
    | some k =>
      let c : CoreId := ⟨s.ev.site, k⟩
      if (s.core c).leaseU + 1024 ≤ s.cyc then s.passLease c .want else s
    | none => s)

/-! ### The staging set (R233, R234) -/

/-- Whether a staging field takes a value (R233). -/
def stageOk (f v : Nat) : Bool :=
  match f with
  | 0 => v % 8 == 0 && decide (8 ≤ v) && decide (v ≤ 64)
  | 1 => v % 8 == 0 && decide (8 ≤ v) && decide (v ≤ 64)
  | 2 => v % 8 == 0 && decide (8 ≤ v) && decide (v ≤ 128)
  | 3 => decide (v ≤ 4)
  | 4 => decide (v ≤ 6)
  | 5 => decide (v ≤ 15)
  | 6 => decide (v ≤ 15)
  | 7 => decide (v ≤ 15)
  | 8 => decide (v ≤ 15)
  | 9 => decide (v ≤ 1)
  | _ => false

/-- `CCFG` (R233, R234). -/
def execCcfg (f : BitVec 6) (v : BitVec 16) (s : State) : Host.Outcome State Fault Refusal :=
  s.run (headOf .X (stageOk f.toNat v.toNat)) fun s =>
    .ok (s.setTm { s.tm with staging := tset s.tm.staging f.toNat v.toNat }).goOn

/-! ### Commands (R90 to R94, R237 to R240) -/

/-- A term of R91 kept to multiples of 2^q, truncated toward zero. -/
def truncTerm (q : Int) : ExNum → Int
  | .fin n m e =>
    let mag : Nat := if q ≤ e then m * 2 ^ (e - q).toNat else m / 2 ^ (q - e).toNat
    if n then -(mag : Int) else mag
  | _ => 0

/-- The largest floor(log2 |p|) of the finite nonzero terms (R91). -/
def topExp : List ExNum → Option Int
  | [] => none
  | .fin _ m e :: t =>
    if m == 0 then topExp t
    else match topExp t with
      | some x => some (max x (ilog2 m + e))
      | none => some (ilog2 m + e)
  | _ :: t => topExp t

/-- The slab result with a BF16 operand slot (R91, R92). -/
def slabBf16 (l : List ExNum) : W32 :=
  if l.any fun x => x.isNaN || x.isInf then r32 0 (sumN l)
  else match topExp l with
    | none => 0
    | some e =>
      let v := (l.map (truncTerm (e - 71))).foldl (· + ·) 0
      if v == 0 then 0 else r32 0 (.fin (decide (v < 0)) v.natAbs (e - 71))

/-- The slab result of the other float commands (R90, R92). -/
def slabExact (l : List ExNum) : W32 := r32 0 (sumN l)

/-- The exact slab sum of an integer command (R94). -/
def slabInt (l : List ExNum) : Int :=
  l.foldl (fun a x => match x with | .fin n m e => a + scaled n m e 0 | _ => a) 0

/-- What a command's slots make it: integer, float with a BF16 slot, or float (R90, R91, R238). -/
inductive CmdKind
  | int | bf16 | exact
deriving DecidableEq, Repr

/-- The kind of a command from its slots (R90, R91, R238). -/
def cmdKind (fs : List W32) : CmdKind :=
  if fs.all fun f => decide (7 ≤ enElem f) && decide (enElem f ≤ 9) && enBlk f == 0 then .int
  else if fs.any fun f => enElem f == 1 then .bf16 else .exact

/-- The bank kind that a command needs (R238). -/
def CmdKind.bank : CmdKind → BankKind
  | .int => .int32
  | _ => .fp32

/-- An accumulator element after stage 2 (R93, R94): `over` writes the slab result in place of the sum. -/
def stage2 (k : CmdKind) (fin : Bool) (old : W32) (terms : List ExNum) : W32 :=
  match k with
  | .int => BitVec.ofInt 32 (clampI (-2147483648) 2147483647 ((if fin then 0 else old.toInt) + slabInt terms))
  | .bf16 => let v := slabBf16 terms; if fin then v else r32 0 (addN 0 (f32 old) (f32 v))
  | .exact => let v := slabExact terms; if fin then v else r32 0 (addN 0 (f32 old) (f32 v))

/-- The bank after a command whose term for (i, j, k) is `f i j k` (R237, R238). -/
def TeamSt.command (t : TeamSt) (k : CmdKind) (f : Nat → Nat → Nat → ExNum) : TeamSt :=
  let fin := t.stage 9 == 1 && t.fresh
  { t with
    kind := k.bank, fresh := false,
    bank := (List.range 4096).map fun e =>
      let i := e / 64
      let j := e % 64
      let old := tget 0 t.bank e
      (e, if i < t.stage 0 ∧ j < t.stage 1 then stage2 k fin old ((List.range (t.stage 2)).map (f i j)) else old) }

/-- Whether an entry may stand in an operand slot of a command (R239). -/
def slotOk (f : W32) : Bool := enOk f && enElem f != 0 && enElem f != 2 && enElem f != 10

/-- The size that an operand needs (R240). -/
def State.atLeast (s : State) (a : BitVec 7) (rows cols : Nat) : Bool :=
  let w := (s.tm.tileOf a).shape
  effRows w (tileDir a) rows && decide (cols ≤ effCols w (tileDir a))

/-- Whether a block-scaled operand's blocks run along k in DIMK whole blocks; `axis` is the axis that k has (R239). -/
def State.blocksAlong (s : State) (a : BitVec 7) (axis : Bool) : Bool :=
  let w := (s.tm.tileOf a).shape
  let b := enBlock (shType w)
  b == 0 || (tileDir a != 2 && effAxis w (tileDir a) == axis && s.tm.stage 2 % b == 0)

/-- Whether an operand has no blocks. -/
def State.noBlocks (s : State) (a : BitVec 7) : Bool := enBlk (shType (s.tm.tileOf a).shape) == 0

/-- DIMK above 64 needs every operand slot in the narrow group (R239). -/
def State.dimkOk (s : State) (fs : List W32) : Bool := decide (s.tm.stage 2 ≤ 64) || fs.all narrow

/-- The checks that the bank and the operands' types make (R239, R250). -/
def State.cmdChecks (s : State) (l : List (BitVec 7 × W32)) (k : CmdKind) : Iss Unit := do
  need (l.all fun x => shType (s.tm.tileOf x.1).shape == typeOf x.2) .TILETYPE 0 0
  need (s.tm.kind == .unset || s.tm.kind == k.bank) .TILETYPE 0 0
  s.tilePoison (l.map (·.1))

/-- `MMA` (R237 to R240). -/
def execMma (a b : BitVec 7) (s : State) : Host.Outcome State Fault Refusal :=
  s.run (headOf .X (tileOk a && tileOk b)) fun s => do
    let t := s.tm
    let fa := s.fmtEntry (t.stage 5)
    let fb := s.fmtEntry (t.stage 6)
    let k := cmdKind [fa, fb]
    need (slotOk fa && slotOk fb) .FMT 0 0
    s.needLease
    s.tilesFree [a, b]
    needShape (s.dimkOk [fa, fb] && s.atLeast a (t.stage 0) (t.stage 2) && s.atLeast b (t.stage 2) (t.stage 1)
      && s.blocksAlong a false && s.blocksAlong b true)
    s.cmdChecks [(a, fa), (b, fb)] k
    let t' := t.command k fun i j p => mulN (t.eff a fa i p) (t.eff b fb p j)
    .ok (s.setTm t').spendLease.goOn

/-- Whether the third operand of `TRI` is large enough under the index mode, and B with it (R240). -/
def State.triSizes (s : State) (a b g : BitVec 7) : Bool :=
  let t := s.tm
  let di := t.stage 0
  let dj := t.stage 1
  let dk := t.stage 2
  let w2 := 2 ^ t.stage 4
  s.atLeast a di dk &&
  (match t.stage 3 with
    | 1 => s.atLeast b dk dj && s.atLeast g di dk
    | 2 => s.atLeast b dk dj && s.atLeast g dk dj
    | 3 => s.atLeast b w2 dj && s.atLeast g (dk / w2) dj
    | _ => s.atLeast b dk dj && s.atLeast g 1 dk)

/-- The rules of `TRI` for block-scaled operands (R239). -/
def State.triBlocks (s : State) (a b g : BitVec 7) : Bool :=
  s.blocksAlong a false &&
  (match s.tm.stage 3 with
    | 1 => s.blocksAlong b true && s.blocksAlong g false
    | 2 => s.blocksAlong b true && s.blocksAlong g true
    | 3 => s.noBlocks b && s.noBlocks g
    | _ => s.blocksAlong b true && s.blocksAlong g false)

/-- The rules of `TRI` for GMODE and GSHIFT (R239). -/
def TeamSt.triMode (t : TeamSt) : Bool :=
  t.stage 3 != 0 && (if t.stage 3 == 3 then t.stage 2 % 2 ^ t.stage 4 == 0 else t.stage 4 == 0)

/-- The term of `TRI` for (i, j, k) (R237). -/
def TeamSt.triTerm (t : TeamSt) (a b g : BitVec 7) (fa fb fg : W32) (i j k : Nat) : ExNum :=
  let w2 := 2 ^ t.stage 4
  match t.stage 3 with
  | 1 => mulN (mulN (t.eff a fa i k) (t.eff b fb k j)) (t.eff g fg i k)
  | 2 => mulN (mulN (t.eff a fa i k) (t.eff b fb k j)) (t.eff g fg k j)
  | 3 => mulN (mulN (t.eff a fa i k) (t.eff b fb (k % w2) j)) (t.eff g fg (k / w2) j)
  | _ => mulN (mulN (t.eff a fa i k) (t.eff b fb k j)) (t.eff g fg 0 k)

/-- `TRI` (R237 to R240). -/
def execTri (a b g : BitVec 7) (s : State) : Host.Outcome State Fault Refusal :=
  s.run (headOf .X (tileOk a && tileOk b && tileOk g)) fun s => do
    let t := s.tm
    let fa := s.fmtEntry (t.stage 5)
    let fb := s.fmtEntry (t.stage 6)
    let fg := s.fmtEntry (t.stage 7)
    let k := cmdKind [fa, fb, fg]
    need (slotOk fa && slotOk fb && slotOk fg) .FMT 0 0
    s.needLease
    s.tilesFree [a, b, g]
    needShape (t.triMode && s.dimkOk [fa, fb, fg] && s.triSizes a b g && s.triBlocks a b g)
    s.cmdChecks [(a, fa), (b, fb), (g, fg)] k
    .ok (s.setTm (t.command k (t.triTerm a b g fa fb fg))).spendLease.goOn

/-! ### Bank instructions (R242) -/

/-- `ACCZ` (R242). -/
def execAccz (s : State) : Host.Outcome State Fault Refusal :=
  s.run (headOf .X true) fun s => .ok (s.setTm { s.tm with bank := [], kind := .unset, fresh := true }).goOn

/-- The value of a bank element (R242). -/
def TeamSt.bankVal (t : TeamSt) (i j : Nat) : ExNum :=
  let v := tget 0 t.bank (64 * i + j)
  if t.kind == .int32 then ofInt v.toInt else f32 v

/-- A code as a tile holds it. -/
def code32 (n : Nat) : W32 := BitVec.ofNat 32 n

/-- `ACCST` (R242). -/
def execAccst (a : BitVec 7) (s : State) : Host.Outcome State Fault Refusal :=
  s.run (headOf .X (tileOk a)) fun s => do
    let t := s.tm
    let f := s.fmtEntry (t.stage 8)
    let x := t.tileOf a
    need (enOk f && enBlk f == 0) .FMT 0 0
    s.tilesFree [a]
    needShape (tileDir a != 2 && s.atLeast a (t.stage 0) (t.stage 1))
    s.needType a f
    let put := fun r c =>
      let i := if tileDir a == 1 then c else r
      let j := if tileDir a == 1 then r else c
      if i < t.stage 0 ∧ j < t.stage 1 then code32 (encElem f (enRnd f) (t.bankVal i j)) else x.at r c
    .ok (s.putTile a (x.fill put)).goOn

/-! ### Tile instructions (R243 to R248) -/

/-- `TSHAPE` (R243). -/
def execTshape (a : BitVec 7) (b : BitVec 6) (s : State) : Host.Outcome State Fault Refusal :=
  s.run (headOf .X (tileOk a && s.srcOk b)) fun s => do
    s.popsOk [b]
    let x ← s.src b
    s.tilesFree [a]
    needShape (tileDir a == 0 && shapeOk x.1)
    .ok (if (s.tm.tileOf a).shape == x.1 then x.2
         else x.2.putTile a { shape := x.1, elems := [], scales := [], poison := none }).goOn

/-- `TZERO` (R243). -/
def execTzero (a : BitVec 7) (s : State) : Host.Outcome State Fault Refusal :=
  s.run (headOf .X (tileOk a)) fun s => do
    s.tilesFree [a]
    needShape (tileDir a == 0)
    .ok (s.putTile a { (s.tm.tileOf a) with elems := [], scales := [], poison := none }).goOn

/-- `TCVT` (R244). -/
def execTcvt (a b : BitVec 7) (s : State) : Host.Outcome State Fault Refusal :=
  s.run (headOf .X (tileOk a && tileOk b)) fun s => do
    let t := s.tm
    let fa := s.fmtEntry (t.stage 5)
    let fd := s.fmtEntry (t.stage 8)
    need (enOk fa && enOk fd && enBlk fd == 0) .FMT 0 0
    s.tilesFree [a, b]
    needShape (tileDir a == 0 && s.coversTile b (t.tileOf a))
    s.needType b fa
    s.needType a fd
    s.tilePoison [b]
    .ok (s.putTile a ((t.tileOf a).fill fun r c => code32 (encElem fd (enRnd fd) (t.eff b fa r c)))).goOn

/-- The element formats of the element operations (R245). -/
def elTile (f : W32) : Bool := enOk f && enBlk f == 0 && (decide (enElem f ≤ 2) || enElem f == 10)

/-- An element operation on codes: floating under the slot's rounding and SAT, or an INT32 operation that wraps, or saturates with
SAT (R245). -/
def tileOp (f : W32) (num : Nat → ExNum → ExNum → ExNum) (int : Int → Int → Int) (x y : W32) : W32 :=
  if enElem f == 10 then
    let v := int x.toInt y.toInt
    BitVec.ofInt 32 (if enSat f then clampI (-2147483648) 2147483647 v else v)
  else code32 (encF f (num (enRnd f) (decElem f x.toNat) (decElem f y.toNat)))

/-- The frame of the element operations (R245). -/
def State.elemOp (s : State) (a b g : BitVec 7) (num : Nat → ExNum → ExNum → ExNum) (int : Int → Int → Int) : Iss Done := do
  let t := s.tm
  let f := s.fmtEntry (t.stage 8)
  need (elTile f) .FMT 0 0
  s.tilesFree [a, b, g]
  needShape (tileDir a == 0 && s.coversTile b (t.tileOf a) && s.coversTile g (t.tileOf a))
  s.needType a f
  s.needType b f
  s.needType g f
  s.tilePoison [b, g]
  .ok (s.putTile a ((t.tileOf a).fill fun r c => tileOp f num int (t.effCode b r c) (t.effCode g r c))).goOn

/-- The head of an element operation. -/
def headT3 (a b g : BitVec 7) : Head := headOf .X (tileOk a && tileOk b && tileOk g)

/-- `TEADD` (R245). -/
def execTeadd (a b g : BitVec 7) (s : State) : Host.Outcome State Fault Refusal :=
  s.run (headT3 a b g) fun s => s.elemOp a b g addN (· + ·)

/-- `TESUB` (R245). -/
def execTesub (a b g : BitVec 7) (s : State) : Host.Outcome State Fault Refusal :=
  s.run (headT3 a b g) fun s => s.elemOp a b g (fun m x y => addN m x y.neg) (· - ·)

/-- `TEMUL` (R245). -/
def execTemul (a b g : BitVec 7) (s : State) : Host.Outcome State Fault Refusal :=
  s.run (headT3 a b g) fun s => s.elemOp a b g (fun _ => mulN) (· * ·)

/-- `TEMAX` (R245). -/
def execTemax (a b g : BitVec 7) (s : State) : Host.Outcome State Fault Refusal :=
  s.run (headT3 a b g) fun s => s.elemOp a b g (fun _ => maxN) max

/-- One step of a reduction by its operation code (R247). -/
def redOp (op : Nat) (f : W32) : W32 → W32 → W32 :=
  match op with
  | 0 => tileOp f addN (· + ·)
  | 1 => tileOp f (fun _ => maxN) max
  | _ => tileOp f (fun _ => minN) min

/-- The first value of a reduction: `Canon` in the slot, or an INT32 value unchanged (R10, R247). -/
def redFirst (f : W32) (x : W32) : W32 := if enElem f == 10 then x else code32 (encF f (decElem f x.toNat))

/-- A line of codes reduced in ascending order (R247). -/
def redLine (op : Nat) (f : W32) : List W32 → W32
  | [] => 0
  | x :: t => t.foldl (redOp op f) (redFirst f x)

/-- `TRED` (R247). -/
def execTred (a b : BitVec 7) (g : BitVec 6) (s : State) : Host.Outcome State Fault Refusal :=
  s.run (headOf .X (tileOk a && tileOk b && s.srcOk g)) fun s => do
    let t := s.tm
    let f := s.fmtEntry (t.stage 8)
    need (elTile f) .FMT 0 0
    s.popsOk [g]
    let v ← s.src g
    s.tilesFree [a, b]
    let x := t.tileOf a
    let w := (t.tileOf b).shape
    let rows := if tileDir b == 1 then shCols w else shRows w
    let op := fieldW v.1 1 0
    needShape (op != 3 && tileDir a == 0 && tileDir b != 2 && decide (rows ≤ shRows x.shape) && decide (t.ix1.toNat < shCols x.shape))
    s.needType a f
    s.needType b f
    s.tilePoison [b]
    let put := fun r c =>
      if r < rows ∧ c = t.ix1.toNat then redLine op f ((List.range (effCols w (tileDir b))).map fun q => t.effCode b r q) else x.at r c
    .ok (v.2.putTile a (x.fill put)).goOn

/-- `TBCAST` (R248). -/
def execTbcast (a b : BitVec 7) (s : State) : Host.Outcome State Fault Refusal :=
  s.run (headOf .X (tileOk a && tileOk b)) fun s => do
    s.tilesFree [a, b]
    let t := s.tm
    let x := t.tileOf a
    let y := t.tileOf b
    let w := y.shape
    let line := match tileDir b with | 0 => t.ix0.toNat | 1 => t.ix1.toNat | _ => t.ix2.toNat
    let lines := if tileDir b == 0 then shRows w else shCols w
    let len := if tileDir b == 0 then shCols w else shRows w
    needShape (tileDir a == 0 && decide (line < lines) && decide (shCols x.shape ≤ len) && s.noBlocks a && s.noBlocks b)
    need (shType x.shape == shType w) .TILETYPE 0 0
    s.tilePoison [b]
    let put := fun (_ q : Nat) =>
      match tileDir b with
      | 0 => y.at line q
      | 1 => y.at q line
      | _ => y.at q ((q + line) % shCols w)
    .ok (s.putTile a (x.fill put)).goOn

/-- `TIX` (R246). -/
def execTix (b : BitVec 6) (s : State) : Host.Outcome State Fault Refusal :=
  s.run (headOf .X (s.srcOk b)) fun s => do
    s.popsOk [b]
    let x ← s.src b
    .ok (x.2.setTm { x.2.tm with ix0 := x.1.extractLsb' 0 6, ix1 := x.1.extractLsb' 8 6, ix2 := x.1.extractLsb' 16 6 }).goOn

/-! ### Tile transfers (R249 to R253) -/

/-- WIDTH of a layout word in bits (R251). -/
def layWidth (l : W64) : Nat := 32 / 2 ^ fieldW l 49 48
/-- LEN of a layout word (R251). -/
def layLen (l : W64) : Nat := fieldW l 57 50
/-- The number of lines of a layout word (R251). -/
def layLines (l : W64) : Nat := fieldW l 46 40 + 1
/-- FIRST of a layout word (R251). -/
def layFirst (l : W64) : Nat := fieldW l 38 32
/-- SCL of a layout word (R251). -/
def layScl (l : W64) : Bool := l.getLsbD 58
/-- PITCH of a layout word (R251). -/
def layPitch (l : W64) : Int := (lo32 l).toInt
/-- The bytes of a transfer line (R251). -/
def layBytes (l : W64) : Nat := layLen l * layWidth l / 8

/-- Whether a layout word passes the check of R252 at issue. -/
def layOk (l : W64) : Bool :=
  fieldW l 63 59 == 0 && !l.getLsbD 47 && !l.getLsbD 39 && decide (1 ≤ layLen l) && decide (layLen l ≤ 128) && layLen l * layWidth l % 8 == 0

/-- The address of a transfer line (R251). -/
def layEa (base l : W64) (n : Nat) : W64 := base + w64 (n * layPitch l)

/-- A line of a transfer checked and translated (R135 to R137, R252). The checks of a line that an earlier line's address does not settle come
with the line, behind `ALIGN` and behind the `PAGE` and `PERM` of the lines before it (log 33, DEDUCED). -/
def State.linePlaces (s : State) (w : Who) (base l : W64) (nd : Need) (k : Nat) : Iss (List (Place × W64 × Nat) × State) := do
  let ea := layEa base l k
  s.checkSpace w base ea 0
  need (s.rangeOk w ea (layBytes l)) .BOUNDS ea 0
  s.partPlaces w nd (pageParts ea (layBytes l))

/-- Every line of a transfer checked and translated at issue, in ascending order (R252). -/
def State.checkLines (s : State) (w : Who) (base l : W64) (nd : Need) : List Nat → Iss (List (List (Place × W64 × Nat)) × State)
  | [] => .ok ([], s)
  | k :: t => do
    let r ← s.linePlaces w base l nd k
    let q ← r.2.checkLines w base l nd t
    .ok (r.1 :: q.1, q.2)

/-- Where a line of a transfer is performed: at the places that it was translated to, or, for a transfer that was saved with its team, where its
addresses are translated to now (R253, R304, log 58). -/
def State.xferLine (s : State) (w : Who) (x : Xfer) (nd : Need) (k : Nat) : Iss (List (Place × W64 × Nat) × State) :=
  match x.places[k]? with
  | some l => .ok (l, s)
  | none => s.linePlaces w x.base x.lay nd k

/-- `TLD` and `TST` at their issue by A (R249, R250, R252). -/
def State.tileXfer (s : State) (store : Bool) (a : BitVec 7) (b g : BitVec 6) : Iss Done := do
  let t := s.tm
  s.popsOk [b, g]
  if t.tq.length < 64 then .ok () else if t.tq.all fun x => x.tag == t.a.span then flt .QUEUE 0 0 else hold
  let x ← s.src b
  let y ← x.2.src g
  needShape (layOk y.1)
  need (vecSpace x.1) .SPACE x.1 0
  y.2.checkSpace y.2.me x.1 x.1 0
  need (x.1.toNat % 4 == 0 && layPitch y.1 % 4 == 0) .ALIGN x.1 0
  let u ← y.2.checkLines y.2.me x.1 y.1 (if store then .write else .read) (List.range (layLines y.1))
  let e : Xfer := { store := store, ta := a, base := x.1, lay := y.1, tag := t.a.span, pc := s.st.pc, places := u.1 }
  .ok (u.2.setTm { u.2.tm with tq := u.2.tm.tq ++ [e] }).goOn

/-- `TLD` (R249 to R252). -/
def execTld (a : BitVec 7) (b g : BitVec 6) (s : State) : Host.Outcome State Fault Refusal :=
  s.run (headOf .A (tileOk a && s.srcOk b && s.srcOk g)) fun s => s.tileXfer false a b g

/-- `TST` (R249 to R252). -/
def execTst (a : BitVec 7) (b g : BitVec 6) (s : State) : Host.Outcome State Fault Refusal :=
  s.run (headOf .A (tileOk a && s.srcOk b && s.srcOk g)) fun s => s.tileXfer true a b g

/-- Whether a transfer fits the tile's shape at the moment it takes effect (R252). -/
def xferFits (x : Xfer) (w : W64) : Bool :=
  let f := shType w
  let l := x.lay
  let dir := tileDir x.ta
  let upTo := layFirst l + layLines l
  if layScl l then
    layWidth l == 8 * scaleBytes f && enScale f != 0 && dir == 0 && decide (upTo ≤ scLines w) && decide (layLen l ≤ scCodes w)
  else
    layWidth l == enBits f && decide (upTo ≤ (if dir == 0 then shRows w else shCols w))
    && decide (layLen l ≤ (if dir == 0 then shCols w else shRows w))

/-- The row and column of element `k` of tile line `m` (R251). -/
def linePlace (w : W64) (dir m k : Nat) : Nat × Nat :=
  match dir with
  | 0 => (m, k)
  | 1 => (k, m)
  | _ => (k, (k + m) % shCols w)

/-- Packed elements as bytes, the first in the lowest bits (R193, R251). -/
def packBytes (width : Nat) (l : List Nat) : List Byte :=
  leBytes (l.length * width / 8) (l.foldr (fun e a => e % 2 ^ width + 2 ^ width * a) 0)

/-- The elements that bytes hold (R193, R251). -/
def unpackBytes (width n : Nat) (b : List Byte) : List Nat := (List.range n).map fun k => leNat b / 2 ^ (k * width) % 2 ^ width

/-- The codes of a tile line as a transfer names them (R251). -/
def Tile.line (t : Tile) (x : Xfer) (m : Nat) : List Nat :=
  (List.range (layLen x.lay)).map fun k =>
    if layScl x.lay then (t.scaleAt m k).toNat
    else let rc := linePlace t.shape (tileDir x.ta) m k; (t.at rc.1 rc.2).toNat

/-- A tile with the codes of one line set (R251). -/
def Tile.setLine (t : Tile) (x : Xfer) (m : Nat) (codes : List Nat) : Tile :=
  (codes.zipIdx).foldl (fun t e =>
    if layScl x.lay then { t with scales := tset t.scales (m * 256 + e.2) (BitVec.ofNat 16 e.1) }
    else
      let rc := linePlace t.shape (tileDir x.ta) m e.2
      { t with elems := tset t.elems (rc.1 * 256 + rc.2) (code32 e.1) }) t

/-- The lines of a `TLD` read into a tile; a data fault leaves the lines before it written (R253). Else what it
waits for. -/
def State.loadLines (s : State) (w : Who) (x : Xfer) (t : Tile) : List Nat → Except Hold (State × Tile × Option Code)
  | [] => .ok (s, t, none)
  | k :: rest =>
    let r : Iss (List Byte × State) := do
      let p ← s.xferLine w x .read k
      p.2.readParts w p.1
    match r with
    | .ok (b, u) => u.loadLines w x (t.setLine x (layFirst x.lay + k) (unpackBytes (layWidth x.lay) (layLen x.lay) b)) rest
    | .error (.stall h) => .error h
    | .error (.fault f) => .ok (s.markBad f.bad, t, some f.code)

/-- The lines of a `TST` written; a line that faults is a failed store, and the others are still performed (R253). Else what it
waits for. -/
def State.storeLines (s : State) (w : Who) (x : Xfer) (t : Tile) : List Nat → Except Hold State
  | [] => .ok s
  | k :: rest =>
    let r : Iss State := do
      let p ← s.xferLine w x .write k
      p.2.writeParts w p.1 (packBytes (layWidth x.lay) (t.line x (layFirst x.lay + k)))
    match r with
    | .ok u => u.storeLines w x t rest
    | .error (.stall h) => .error h
    | .error (.fault f) =>
      let u := s.markBad f.bad
      (u.setTeam w.c ((u.team w.c).storeFailed .A x.pc f.code (layEa x.base x.lay k))).storeLines w x t rest

/-- What a transfer does when it takes effect (R252, R253), or what it waits for. A `TST` that fails whole has no line that fails: SERRA holds the
base of its transfer (log 62, DESIGN CHOICE). -/
def State.xferEffect (s : State) (c : CoreId) (x : Xfer) : Except Hold State :=
  let w := s.who c
  let no := tileNo x.ta
  let t := (s.team c).tile no
  let fits := xferFits x t.shape
  let lines := List.range (layLines x.lay)
  if x.store then
    match (if fits then t.poison else some .SHAPE) with
    | some e => .ok (s.setTeam c ((s.team c).storeFailed .A x.pc e x.base))
    | none => s.storeLines w x t lines
  else if fits then
    (s.loadLines w x t lines).map fun r => r.1.setTeam c ((r.1.team c).setTile no { r.2.1 with poison := r.2.2 })
  else .ok (s.setTeam c ((s.team c).setTile no { t with poison := some .SHAPE }))

/-- `TILE_TRANSFER_EFFECT` (R249): a queued transfer takes effect once X has left its span, in order with the transfers of its tile. -/
def execTileTransferEffect (s : State) : Host.Outcome State Fault Refusal :=
  let c := s.ev.core
  let t := s.team c
  .next (match t.tq[s.ev.n]? with
    | none => s
    | some x =>
      let before := t.tq.take s.ev.n
      if x.tag < t.x.span ∧ !before.any fun y => tileNo y.ta == tileNo x.ta then
        s.orWaited ((s.setTeam c { t with tq := before ++ t.tq.drop (s.ev.n + 1) }).xferEffect c x)
      else s)

end Sys2Proof.Machine
end

