-- ==== Sys2Proof/Machine/Context.lean ====
section
/-! DEFINITION. The context area of a team in device memory: the words that a save writes there, and what the loader reads back (R181,
R184 to R186, R254, R266, R271, R340). Where the manual gives a block but not the form of an entry in it, log 47 has the form. Parts of a
team that the layout has no place for are kept by the drover's own record of it (log 47). -/

namespace Sys2Proof.Machine

/-! ### Sizes and places (R185) -/

/-- The pages of a class's context area: CTXSZ of R185 in whole pages. -/
def ctxPages : Cls → Nat
  | .vec => 2
  | .cube => 9
  | _ => 1

/-- The 64-byte lines of CTXSZ (R185). -/
def ctxLines : Cls → Nat
  | .vec => 99 * 16
  | .sparse => 30 * 16
  | .sort => 30 * 16
  | .cube => 538 * 16
  | .mem => 8 * 16
  | .drover => 0

/-- The first word of the X state block (R185). -/
def ctxX : Cls → Nat
  | .vec => 0xD800 / 8
  | .sparse => 0x4800 / 8
  | .sort => 0x4800 / 8
  | _ => 0x1C00 / 8

/-- The words of one datum of the X width (R185). -/
def datumWords (cls : Cls) : Nat := if vecCls cls then Config.lanes cls / 2 else 1

/-! ### Words of entries -/

/-- A pair of lanes as a word. -/
def lanePair (l : List W32) (j : Nat) : W64 := l.getD (2 * j + 1) 0 ++ l.getD (2 * j) 0

/-- Lanes read from words, one after another. -/
def pairLanes (f : Nat → W64) (n : Nat) : List W32 := (List.range n).flatMap fun j => [lo32 (f j), hi32 (f j)]

/-- The code of a poison, 0 where there is none. -/
def codeNum (c : Option Code) : Nat := (c.map Code.num).getD 0

/-- The two words of an entry of `ca`, `cx`, `xc` or `ac`: its value, and its mark with bit 63 set. -/
def qWord (l : List QEnt) (i f : Nat) : W64 :=
  match l[i]? with
  | some e => if f == 0 then e.val else packW [(e.mark % 2 ^ 32, 0), (1, 63)]
  | none => 0

/-- The number of a branch outcome's kind, and its value. -/
def bqParts : BqVal → Nat × W64
  | .taken b => (0, BitVec.ofNat 64 (b2n b))
  | .target n => (1, n)
  | .count n => (2, n)
  | .brk b => (3, BitVec.ofNat 64 (b2n b))

/-- The branch outcome of a kind and a value. -/
def bqOf (k : Nat) (v : W64) : BqVal :=
  match k with
  | 0 => .taken (v != 0)
  | 1 => .target v
  | 2 => .count v
  | _ => .brk (v != 0)

/-- The two words of a BQ entry: its value, and its kind, the pops already made, and bit 63 set. -/
def bqWord (l : List BqEnt) (i f : Nat) : W64 :=
  match l[i]? with
  | some e => if f == 0 then (bqParts e.val).2 else packW [((bqParts e.val).1, 0), (b2n e.popA, 2), (b2n e.popX, 3), (1, 63)]
  | none => 0

/-- A word of a `dq` entry: its header's poison address, and mark, poison code, auxiliary word and form; then its datum. -/
def dqWord (l : List DqEnt) (i f : Nat) : W64 :=
  match l[i]? with
  | none => 0
  | some e =>
    match f with
    | 0 => (e.poison.map (·.addr)).getD 0
    | 1 => packW [(e.mark % 2 ^ 32, 0), (codeNum (e.poison.map (·.code)), 32), ((e.poison.map (·.aux)).getD 0 % 2 ^ 16, 40),
                  (match e.data with | .scalar _ => 0 | _ => 1, 56), (1, 63)]
    | n + 2 => match e.data with
      | .scalar v => if n == 0 then v else 0
      | .lanes d => lanePair d n
      | .lines _ => 0

/-- The four words of a level of a strand's loop state: level, body and bit 63; count; index; instance (R121, R124). -/
def loopWord (l : List Loop) (i f : Nat) : W64 :=
  match l[i]? with
  | none => 0
  | some e =>
    match f with
    | 0 => packW [(e.lv, 0), (e.start, 8), (e.last, 24), (1, 63)]
    | 1 => BitVec.ofNat 64 e.count
    | 2 => BitVec.ofNat 64 e.index
    | _ => BitVec.ofNat 64 e.inst

/-- Four indices of a link stack in a word (R34). -/
def linkWord (l : List Nat) (j : Nat) : W64 := packW ((List.range 4).map fun k => (l.getD (4 * j + k) 0, 16 * k))

/-! ### The control block (R186) -/

/-- The kind and the value of a wait condition: an address, an episode, a time or a ticket (R186). -/
def condParts : WaitCond → Nat × Nat
  | .fe _ _ off _ => (1, off)
  | .flock e => (2, e)
  | .time t => (3, t)
  | .ticket t => (4, t.toNat)
  | .anyCopy => (5, 0)
  | .board => (6, 0)
  | .polled off => (7, off)
  | .range ea _ _ => (8, ea.toNat)

/-- The number of an episode's kind: 0 none, 1 `FBAR`, 2 + FN `FRED`, 15 `XPH`. -/
def epNum : EpKind → Nat
  | .fbar => 1
  | .fred fn => 2 + fn.toNat
  | .xph => 15

/-- The arrival record: kind, whether the episode has completed, whether it has a result, and the result (R162). -/
def arrivalWord (a : Arrival) (f : Nat) : W64 :=
  match a, f with
  | .waiting k, 0 => packW [(epNum k, 0)]
  | .complete k r, 0 => packW [(epNum k, 0), (1, 8), (b2n r.isSome, 9)]
  | .complete _ r, 1 => r.getD 0
  | _, _ => 0

/-- The first word of the control block (R186). A save that serves both a pre-emption and a swap has the bit of the one that asked for it
(log 78, DESIGN CHOICE). -/
def flagWord (cls : Cls) (t : TeamSt) (l : Leave) : W64 :=
  packW [(Config.clsNum cls, 0), (match l with | .fault _ => 1 | .reset => 1 | _ => 0, 8), (b2n (l == .preempt), 9), (b2n (l == .swap), 10),
         (b2n t.c.exited, 11), (b2n t.a.exited, 12), (b2n t.x.exited, 13), (b2n (t.preHeld.isSome || t.preNow), 14),
         (match t.phase with | some p => b2n p.ended | none => 0, 15)]

/-- A word of a scoreboard entry: ticket, source, destination, length. -/
def boardWord (b : Tab CopyEnt) (i f : Nat) : W64 :=
  match tget? b i with
  | none => 0
  | some e =>
    match f with
    | 0 => packW [(e.seq.toNat, 16), (i, 0)]
    | 1 => e.src
    | 2 => e.dst
    | _ => BitVec.ofNat 64 e.len

/-- A word of the control block (R186). -/
def ctlWord (cls : Cls) (t : TeamSt) (l : Leave) (conds : List WaitCond) (k : Nat) : W64 :=
  match k with
  | 0 => flagWord cls t l
  | 1 => packW [(t.c.pc, 0), (t.a.pc, 16), (t.x.pc, 32)]
  | 2 => BitVec.ofNat 64 t.c.span
  | 3 => BitVec.ofNat 64 t.a.span
  | 4 => BitVec.ofNat 64 t.x.span
  | 5 => BitVec.ofNat 64 t.slip
  | 6 => t.fmtctl.setWidth 64
  | 7 => t.waitth
  | 8 => t.locsz
  | 9 => t.serr.setWidth 64
  | 10 => t.serra
  | 11 => t.c.waitT
  | 12 => t.a.waitT
  | 13 => t.x.waitT
  | 14 => packW [(b2n t.c.waitV, 0), (b2n t.a.waitV, 1), (b2n t.x.waitV, 2)]
  | 15 => BitVec.ofNat 64 t.runCyc
  | 16 => packW [(t.c.preds.toNat, 0), (t.a.preds.toNat, 8), (t.x.preds.toNat, 16), (t.copySeq.toNat, 32)]
  | _ =>
    if k < 49 then boardWord t.board ((k - 17) / 4) ((k - 17) % 4)
    else if k < 57 then arrivalWord t.arrival (k - 49)
    else match k, conds with
      | 57, c :: _ => BitVec.ofNat 64 (condParts c).1
      | 58, c :: _ => BitVec.ofNat 64 (condParts c).2
      | _, _ => 0

/-! ### The C and A block, and the queues of X (R185) -/

/-- A word of the C and A block: registers, latches, brands, queues, BQ, loop state and link stacks, in this order. -/
def caWord (t : TeamSt) (k : Nat) : W64 :=
  if k < 48 then tget 0 t.c.regs k
  else if k < 96 then tget 0 t.a.regs (k - 48)
  else if k < 104 then t.c.lat.getD (k - 96) 0
  else if k < 112 then t.a.lat.getD (k - 104) 0
  else if k < 144 then
    let b := ((tget? t.brands ((k - 112) / 2)).map (·.bits)).getD 0
    if k % 2 == 0 then b.setWidth 64 else (b >>> 64).setWidth 64
  else if k < 272 then
    qWord ([t.ca, t.cx, t.xc, t.ac].getD ((k - 144) / 32) []) ((k - 144) % 32 / 2) (k % 2)
  else if k < 336 then bqWord t.bq ((k - 272) / 2) (k % 2)
  else if k < 384 then loopWord ([t.c.loops, t.a.loops, t.x.loops].getD ((k - 336) / 16) []) ((k - 336) % 16 / 4) (k % 4)
  else if k < 396 then linkWord ([t.c.link, t.a.link, t.x.link].getD ((k - 384) / 4) []) (k % 4)
  else if k < 399 then BitVec.ofNat 64 ([t.c.link, t.a.link, t.x.link].getD (k - 396) []).length
  else 0

/-- A word of the `dq` and `sdq` block. -/
def queueWord (cls : Cls) (t : TeamSt) (k : Nat) : W64 :=
  let n := datumWords cls
  if k < 64 * (n + 2) then dqWord t.dq (k / (n + 2)) (k % (n + 2))
  else
    let j := k - 64 * (n + 2)
    if j < 32 * n then lanePair ((t.sdq[j / n]?.map (·.lanes)).getD []) (j % n) else 0

/-! ### The X state block (R185, R254, R266, R271, R340) -/

/-- A descriptor word of a port: those of `PSET` (R218), or those of `CSRW` (R260). -/
def portDescr (q : Port) (f : Nat) : W64 :=
  match q.csr, f with
  | none, 0 => packW [(q.n0, 0), (q.n1, 32)]
  | none, 1 => BitVec.ofNat 64 q.n2
  | none, 2 => BitVec.ofInt 32 q.s1 ++ BitVec.ofInt 32 q.s0
  | none, _ => (BitVec.ofInt 32 q.s2).setWidth 64
  | some c, 0 => c.cols
  | some c, 1 => c.vals
  | some c, 2 => c.ends
  | some c, _ => packW [(c.i0, 0), (c.m, 32)]

/-- One of the eight words of a port: base pointer, or W of R260; four descriptor words; mode, state and buffered operands; position; row
cursor. -/
def portWord (q : Port) (f : Nat) : W64 :=
  match f with
  | 0 => match q.csr with | some c => packW [(c.j0, 0), (c.cnt, 32)] | none => q.base
  | 5 => packW [(q.pol, 0), (b2n q.rep, 2), (q.st.num, 8), (codeNum q.code, 16), (match q.csr with | some c => c.role + 1 | none => 0, 24),
                (b2n q.wait, 28), (q.buf.length, 32), (q.pc, 48)]
  | 6 => BitVec.ofNat 64 q.pos
  | 7 => BitVec.ofNat 64 q.row
  | n => portDescr q (n - 1)

/-- The poison mark of a buffered operand: its code in [63:56] and its address but for the bits [59:52], which eight bytes have no room for:
where the word comes back as it was written, the drover's record has them (log 47). -/
def opMark (o : PortOp) : W64 :=
  match o.poison with
  | none => 0
  | some p => packW [(p.code.num, 56), (bits p.addr.toNat 63 60, 52), (bits p.addr.toNat 51 0, 0)]

/-- A word of the engine block. -/
def engineWord (cls : Cls) (t : TeamSt) (k : Nat) : W64 :=
  if k < 14 then
    let m := tget 0 t.masks (k / 2)
    if k % 2 == 0 then m.setWidth 64 else (m >>> 64).setWidth 64
  else if k == 14 then t.amask.setWidth 64
  else if k < 16 then 0
  else if k < 64 then portWord (tget portReset t.ports ((k - 16) / 8)) (k % 8)
  else if k < 96 then (((tget portReset t.ports ((k - 64) / 8)).buf[k % 8]?).map opMark).getD 0
  else if k < 104 then
    (if cls == .sort then packW ((List.range 8).map fun b => ((tget (BitVec.ofNat 7 (8 * (k - 96) + b)) t.perm (8 * (k - 96) + b)).toNat, 8 * b)) else 0)
  else 0

/-- A word of the X state block of a class with vector registers. -/
def vecWord (cls : Cls) (t : TeamSt) (k : Nat) : W64 :=
  let n := datumWords cls
  if k < 48 * n then lanePair (tget [] t.vregs (k / n)) (k % n)
  else if k < 56 * n then lanePair (t.vlat.getD (k / n - 48) []) (k % n)
  else if k < 88 * n then
    let o := k / n - 56
    lanePair ((((tget portReset t.ports (o / 8)).buf[o % 8]?).map (·.lanes)).getD []) (k % n)
  else engineWord cls t (k - 88 * n)

/-- The elements of a shape, and those in one word. -/
def shElems (w : W64) : Nat × Nat := (shRows w * shCols w, 64 / enBits (shType w))

/-- The codes of a shape's scale area, and those in one word. -/
def shScales (w : W64) : Nat × Nat := (scLines w * scCodes w, 8 / scaleBytes (shType w))

/-- A word of a tile's container (R251, R254): elements packed row by row, then the scale area line by line. -/
def tileWord (t : Tile) (k : Nat) : W64 :=
  let e := shElems t.shape
  let c := shScales t.shape
  let cols := shCols t.shape
  let codes := scCodes t.shape
  if k < e.1 / e.2 then
    packW ((List.range e.2).map fun i => ((t.at ((e.2 * k + i) / cols) ((e.2 * k + i) % cols)).toNat, 64 / e.2 * i))
  else
    let j := k - e.1 / e.2
    packW ((List.range c.2).map fun i =>
      (if c.2 * j + i < c.1 then (t.scaleAt ((c.2 * j + i) / codes) ((c.2 * j + i) % codes)).toNat else 0, 64 / c.2 * i))

/-- The number of a bank's kind in a context area, which R254 leaves open (R238, log 47, DESIGN CHOICE). -/
def BankKind.num : BankKind → Nat
  | .unset => 0 | .fp32 => 1 | .int32 => 2

/-- One of the four words of a pending tile transfer: its instruction word, base, layout and span tag (R254). -/
def xferWord (text : Tab W32) (l : List Xfer) (i f : Nat) : W64 :=
  match l[i]? with
  | none => 0
  | some x =>
    match f with
    | 0 => packW [((tget 0 text x.pc).toNat, 0), (x.pc, 32), (1, 63)]
    | 1 => x.base
    | 2 => x.lay
    | _ => BitVec.ofNat 64 x.tag

/-- A word of the X state block of a CUBE core (R254). -/
def cubeWord (text : Tab W32) (t : TeamSt) (k : Nat) : W64 :=
  if k < 0x10000 then tileWord (t.tile (k / 2048)) (k % 2048)
  else if k < 0x10800 then tget 0 t.bank (2 * (k - 0x10000) + 1) ++ tget 0 t.bank (2 * (k - 0x10000))
  else if k < 0x10820 then (t.tile (k - 0x10800)).shape
  else if k < 0x10824 then packW ((List.range 8).map fun b => (codeNum (t.tile (8 * (k - 0x10820) + b)).poison, 8 * b))
  else if k == 0x10824 then
    packW [(t.ix0.toNat, 0), (t.ix1.toNat, 8), (t.ix2.toNat, 16), (t.kind.num, 32), (b2n t.fresh, 40), (b2n t.leaseRq, 48)]
  else if k < 0x10827 then
    packW ((List.range 8).map fun b => (if 8 * (k - 0x10825) + b < 10 then t.stage (8 * (k - 0x10825) + b) else 0, 8 * b))
  else if k < 0x1082F then t.x.lat.getD (k - 0x10827) 0
  else if k < 0x1092F then xferWord text t.tq ((k - 0x1082F) / 4) ((k - 0x1082F) % 4)
  else 0

/-- A word of the X state block of a MEM core (R185, R340). -/
def memWord (t : TeamSt) (k : Nat) : W64 :=
  if k < 48 then tget 0 t.x.regs k else if k < 56 then t.x.lat.getD (k - 48) 0 else if k < 61 then tget 0 t.mstat (k - 56) else 0

/-- A word of the X state block. -/
def xWord (cls : Cls) (text : Tab W32) (t : TeamSt) (k : Nat) : W64 :=
  match cls with
  | .cube => cubeWord text t k
  | .mem => memWord t k
  | .drover => 0
  | _ => vecWord cls t k

/-- What a save writes: the context area of a team as 8-byte words (R185). -/
def ctxWord (cls : Cls) (text : Tab W32) (t : TeamSt) (l : Leave) (conds : List WaitCond) (k : Nat) : W64 :=
  if k < 0x80 then ctlWord cls t l conds k
  else if k < 0x280 then caWord t (k - 0x80)
  else if k < ctxX cls then queueWord cls t (k - 0x280)
  else xWord cls text t (k - ctxX cls)

/-! ### Writing (R184 step 6) -/

/-- The bytes of a line of an area given as words. -/
def areaLine (f : Nat → W64) (n : Nat) : List Byte := (List.range 8).flatMap fun k => leBytes 8 (f (8 * n + k)).toNat

/-- One page of an area written at home, line by line, every cached copy of it dropped, or what it waits for while the page's frame has to be
made (R328). A page, or a line, that cannot be reached takes nothing (log 47). -/
def State.ctxPage (s : State) (w : Who) (pa first n : Nat) (f : Nat → W64) : Except Hold State :=
  match s.reachHome w pa 0 with
  | .ok u => .ok ((List.range n).foldl (fun (v : State) k =>
      match v.reachCopies w (pa / 64 + k) (v.holders (pa / 64 + k)) 0 with
      | .ok _ => (v.recallInv (pa / 64 + k)).homeWrite w (pa + 64 * k) (areaLine f (first + k))
      | .error _ => v) u)
  | .error (.stall h) => .error h
  | .error (.fault x) => .ok (s.markBad x.bad)

/-- A context area written (R184, R185). -/
def State.ctxWrite (s : State) (w : Who) (i : TeamId) (f : Nat → W64) : Except Hold State :=
  (List.range (ctxPages i.cls)).foldl (fun o q => o.bind fun (u : State) =>
    u.ctxPage w (i.ctx + 65536 * q) (1024 * q) (min 1024 (ctxLines i.cls - 1024 * q)) f) (.ok s)

/-! ### Reading (R181) -/

/-- A context area as the loader is to read it at home (R295): every L2 copy that can be reached recalled and invalidated. -/
def State.ctxRecall (s : State) (w : Who) (i : TeamId) : State :=
  (List.range (ctxLines i.cls)).foldl (fun (u : State) k => match u.atStack w (i.ctx + 64 * k) 0, u.reachCopies w (i.ctx / 64 + k) (u.holders (i.ctx / 64 + k)) 0 with
    | .ok _, .ok _ => u.recallInv (i.ctx / 64 + k)
    | _, _ => u) s

/-- A word of a context area as the loader reads it at home: none where it cannot be read (log 47). -/
def State.ctxRead (s : State) (w : Who) (i : TeamId) (k : Nat) : Option W64 :=
  let pa := i.ctx + 8 * k
  match s.atStack w pa 0, s.reachCopies w (pa / 64) (s.holders (pa / 64)) 0, s.homeRead w (pa / 64) 0 with
  | .ok _, .ok _, .ok r => some (BitVec.ofNat 64 (leNat ((r.1.drop (pa % 64)).take 8)))
  | _, _, _ => none

/-- What the loader's reading of an area has found bad, marked and logged (R323, R343). -/
def State.ctxMet (s : State) (w : Who) (i : TeamId) : State :=
  (List.range (ctxLines i.cls)).foldl (fun (u : State) k => match u.atStack w (i.ctx + 64 * k) 0, u.homeRead w (i.ctx / 64 + k) 0 with
    | .ok _, .ok r => r.2
    | .ok _, .error (.fault f) => u.markBad f.bad
    | _, _ => u) s

/-- A value read back, or what the drover's record has where the area cannot be read. -/
def orOld (rd : Nat → Option W64) (k : Nat) (old : W64) : W64 := (rd k).getD old

/-- A table of words read back. -/
def loadTab (rd : Nat → Option W64) (k n : Nat) (old : Tab W64) : Tab W64 :=
  (List.range n).filterMap fun i =>
    let v := orOld rd (k + i) (tget 0 old i)
    if v == 0 then none else some (i, v)

/-- A list of words read back. -/
def loadList (rd : Nat → Option W64) (k n : Nat) (old : List W64) : List W64 := (List.range n).map fun i => orOld rd (k + i) (old.getD i 0)

/-- A named queue read back. -/
def loadQ (rd : Nat → Option W64) (k : Nat) (old : List QEnt) : List QEnt :=
  (List.range 16).filterMap fun i =>
    let h := orOld rd (k + 2 * i + 1) (qWord old i 1)
    if h.getLsbD 63 then some { val := orOld rd (k + 2 * i) (qWord old i 0), mark := fieldW h 31 0 } else none

/-- BQ read back. -/
def loadBq (rd : Nat → Option W64) (k : Nat) (old : List BqEnt) : List BqEnt :=
  (List.range 32).filterMap fun i =>
    let h := orOld rd (k + 2 * i + 1) (bqWord old i 1)
    if h.getLsbD 63 then
      some { val := bqOf (fieldW h 1 0) (orOld rd (k + 2 * i) (bqWord old i 0)), popA := h.getLsbD 2, popX := h.getLsbD 3 }
    else none

/-- The loop state of a strand read back. -/
def loadLoops (rd : Nat → Option W64) (k : Nat) (old : List Loop) : List Loop :=
  (List.range 4).filterMap fun i =>
    let v := fun f => orOld rd (k + 4 * i + f) (loopWord old i f)
    if (v 0).getLsbD 63 then
      some { lv := fieldW (v 0) 7 0, start := fieldW (v 0) 23 8, last := fieldW (v 0) 39 24, count := (v 1).toNat, index := (v 2).toNat,
             inst := (v 3).toNat }
    else none

/-- A link stack read back. -/
def loadLink (rd : Nat → Option W64) (k n : Nat) (old : List Nat) : List Nat :=
  (List.range (orOld rd n (BitVec.ofNat 64 old.length)).toNat).map fun i =>
    fieldW (orOld rd (k + i / 4) (linkWord old (i / 4))) (16 * (i % 4) + 15) (16 * (i % 4))

/-- `dq` read back. -/
def loadDq (rd : Nat → Option W64) (cls : Cls) (k : Nat) (old : List DqEnt) : List DqEnt :=
  let n := datumWords cls
  (List.range 64).filterMap fun i =>
    let v := fun f => orOld rd (k + (n + 2) * i + f) (dqWord old i f)
    let h := v 1
    if h.getLsbD 63 then
      some { data := if h.getLsbD 56 then .lanes (pairLanes (fun j => v (j + 2)) n) else .scalar (v 2), locks := [],
             poison := (codeOf (fieldW h 39 32)).map fun c => { code := c, addr := v 0, aux := fieldW h 55 40 }, mark := fieldW h 31 0 }
    else none

/-- `sdq` read back: its entries' lanes. -/
def loadSdq (rd : Nat → Option W64) (cls : Cls) (k : Nat) (old : List SdqEnt) : List SdqEnt :=
  let n := datumWords cls
  (old.zipIdx).map fun e => { e.1 with lanes := pairLanes (fun j => orOld rd (k + n * e.2 + j) (lanePair e.1.lanes j)) n }

/-- A vector register file read back. -/
def loadVregs (rd : Nat → Option W64) (n : Nat) (old : Tab (List W32)) : Tab (List W32) :=
  (List.range 48).map fun i => (i, pairLanes (fun j => orOld rd (n * i + j) (lanePair (tget [] old i) j)) n)

/-- The number of a port state read back (R223). -/
def portStOf (n : Nat) : PortState :=
  match n with
  | 0 => .idle | 1 => .set | 2 => .run | 3 => .done | 4 => .halted | _ => .fault

/-- A port read back: `k` is the first word of the engine block, `b` that of the read buffers. -/
def loadPort (rd : Nat → Option W64) (n k b p : Nat) (old : Port) : Port :=
  let v := fun f => orOld rd (k + 16 + 8 * p + f) (portWord old f)
  let h := v 5
  let role := fieldW h 27 24
  let buf : List PortOp := (List.range (fieldW h 35 32)).map fun i =>
    let o := old.buf.getD i { lanes := [], poison := none }
    let m := if p < 4 then orOld rd (k + 64 + 8 * p + i) (opMark o) else opMark o
    let read : Option Poison := (codeOf (fieldW m 63 56)).map fun c =>
      { code := c, addr := packW [(fieldW m 55 52, 60), (fieldW m 51 0, 0)], aux := (o.poison.map (·.aux)).getD 0 }
    { lanes := if p < 4 then pairLanes (fun j => orOld rd (b + n * (8 * p + i) + j) (lanePair o.lanes j)) n else o.lanes,
      poison := if m == opMark o then o.poison else read }
  let u : Port := { old with
    st := portStOf (fieldW h 15 8), rep := h.getLsbD 2, pol := fieldW h 1 0, code := codeOf (fieldW h 23 16), wait := h.getLsbD 28,
    pc := fieldW h 61 48, pos := (v 6).toNat, row := (v 7).toNat, buf := buf }
  if role == 0 then
    { u with base := v 0, n0 := (lo32 (v 1)).toNat, n1 := (hi32 (v 1)).toNat, n2 := (lo32 (v 2)).toNat, s0 := (lo32 (v 3)).toInt,
             s1 := (hi32 (v 3)).toInt, s2 := (lo32 (v 4)).toInt, csr := none }
  else
    { u with csr := some { role := role - 1, j0 := (lo32 (v 0)).toNat, cnt := (hi32 (v 0)).toNat, cols := v 1, vals := v 2, ends := v 3,
                           m := (hi32 (v 4)).toNat, i0 := (lo32 (v 4)).toNat } }

/-- Masks read back. -/
def loadMasks (rd : Nat → Option W64) (k : Nat) (old : Tab (BitVec 128)) : Tab (BitVec 128) :=
  (List.range 7).map fun i =>
    let m := tget 0 old i
    (i, orOld rd (k + 2 * i + 1) ((m >>> 64).setWidth 64) ++ orOld rd (k + 2 * i) (m.setWidth 64))

/-- A tile read back: `k` is the first word of the X state block. -/
def loadTile (rd : Nat → Option W64) (k i : Nat) (old : Tile) : Tile :=
  let sh := orOld rd (k + 0x10800 + i) old.shape
  let e := shElems sh
  let c := shScales sh
  let cols := shCols sh
  let codes := scCodes sh
  let v := fun j => orOld rd (k + 2048 * i + j) (tileWord old j)
  { shape := sh,
    elems := (List.range e.1).map fun m => (m / cols * 256 + m % cols, BitVec.ofNat 32 ((v (m / e.2)).toNat / 2 ^ (64 / e.2 * (m % e.2)) % 2 ^ (64 / e.2))),
    scales := (List.range c.1).map fun m =>
      (m / codes * 256 + m % codes, BitVec.ofNat 16 ((v (e.1 / e.2 + m / c.2)).toNat / 2 ^ (64 / c.2 * (m % c.2)) % 2 ^ (64 / c.2))),
    poison := codeOf (fieldW (orOld rd (k + 0x10820 + i / 8) (BitVec.ofNat 64 (codeNum old.poison * 2 ^ (8 * (i % 8))))) (8 * (i % 8) + 7) (8 * (i % 8))) }

/-- The kind of a bank read back (R238). -/
def bankOf (n : Nat) : BankKind :=
  match n with
  | 0 => .unset | 1 => .fp32 | _ => .int32

/-- The pending tile transfers read back: what the instruction word says of each (R45, R254). -/
def loadXfers (rd : Nat → Option W64) (k : Nat) (text : Tab W32) (old : List Xfer) : List Xfer :=
  (List.range 64).filterMap fun i =>
    let v := fun f => orOld rd (k + 4 * i + f) (xferWord text old i f)
    let h := v 0
    if h.getLsbD 63 then
      some { store := fieldW h 29 22 == 0x8A, ta := BitVec.ofNat 7 (fieldW h 21 15), base := v 1, lay := v 2, tag := (v 3).toNat, pc := fieldW h 47 32,
             places := [] }
    else none

/-- A strand read back from the control block and the C and A block: `i` is its number, `p` the place of its PC. -/
def loadStrand (rd : Nat → Option W64) (t : TeamSt) (l : Leave) (cls : Cls) (i : Nat) (old : StrandSt) : StrandSt :=
  let c := fun k => orOld rd k (ctlWord cls t l [] k)
  { old with
    pc := fieldW (c 1) (16 * i + 15) (16 * i), span := (c (2 + i)).toNat, exited := (c 0).getLsbD (11 + i), waitT := c (11 + i),
    waitV := (c 14).getLsbD i, preds := BitVec.ofNat 8 (fieldW (c 16) (8 * i + 7) (8 * i)),
    loops := loadLoops rd (0x80 + 336 + 16 * i) old.loops, link := loadLink rd (0x80 + 384 + 4 * i) (0x80 + 396 + i) old.link }

/-- The X state of a class with vector registers read back. -/
def loadVec (rd : Nat → Option W64) (cls : Cls) (t : TeamSt) : TeamSt :=
  let n := datumWords cls
  let k := ctxX cls
  let x := fun j => rd (k + j)
  let e := k + 88 * n
  { t with
    vregs := loadVregs x n t.vregs,
    vlat := (List.range 8).map fun i => pairLanes (fun j => orOld x (n * (48 + i) + j) (lanePair (t.vlat.getD i []) j)) n,
    masks := loadMasks rd e t.masks, amask := BitVec.ofNat 3 (fieldW (orOld rd (e + 14) (t.amask.setWidth 64)) 2 0),
    ports := (List.range 6).map fun p => (p, loadPort rd n e (k + 56 * n) p (tget portReset t.ports p)),
    perm := if cls == .sort then (List.range 64).map fun i =>
        (i, BitVec.ofNat 7 (fieldW (orOld rd (e + 96 + i / 8) (engineWord cls t (96 + i / 8))) (8 * (i % 8) + 6) (8 * (i % 8)))) else t.perm }

/-- The X state of a CUBE core read back (R254). -/
def loadCube (rd : Nat → Option W64) (text : Tab W32) (t : TeamSt) : TeamSt :=
  let k := ctxX .cube
  let v := fun j => orOld rd (k + j) (cubeWord text t j)
  let h := v 0x10824
  { t with
    tiles := (List.range 32).map fun i => (i, loadTile rd k i (t.tile i)),
    bank := (List.range 4096).filterMap fun i =>
      let x := v (0x10000 + i / 2)
      let e : W32 := if i % 2 == 0 then lo32 x else hi32 x
      if e == 0 then none else some (i, e),
    ix0 := BitVec.ofNat 6 (fieldW h 7 0), ix1 := BitVec.ofNat 6 (fieldW h 15 8), ix2 := BitVec.ofNat 6 (fieldW h 23 16),
    kind := bankOf (fieldW h 39 32), fresh := h.getLsbD 40, leaseRq := h.getLsbD 48,
    staging := (List.range 10).map fun i => (i, fieldW (v (0x10825 + i / 8)) (8 * (i % 8) + 7) (8 * (i % 8))),
    x := { t.x with lat := loadList rd (k + 0x10827) 8 t.x.lat },
    tq := loadXfers rd (k + 0x1082F) text t.tq }

/-- A count added to an entry of a table of words. -/
def addAt (t : Tab W64) (k n : Nat) : Tab W64 := if n == 0 then t else tset t k (tget 0 t k + BitVec.ofNat 64 n)

/-- The X state of a MEM core read back (R185, R340), with the pages expanded for the team while it was away. -/
def loadMem (rd : Nat → Option W64) (t : TeamSt) : TeamSt :=
  let k := ctxX .mem
  { t with x := { t.x with regs := loadTab rd k 48 t.x.regs, lat := loadList rd (k + 48) 8 t.x.lat }, mstat := addAt (loadTab rd (k + 56) 5 t.mstat) 4 t.xpandOut, xpandOut := 0 }

/-- The X state of a class read back. -/
def loadX (rd : Nat → Option W64) (cls : Cls) (text : Tab W32) (t : TeamSt) : TeamSt :=
  match cls with
  | .cube => loadCube rd text t
  | .mem => loadMem rd t
  | .drover => t
  | _ => loadVec rd cls t

/-- The brands of a team read back: the drover's record has which of them are views. -/
def loadBrands (rd : Nat → Option W64) (k : Nat) (old : Tab BrandReg) : Tab BrandReg :=
  tmap (fun i b => { b with bits := orOld rd (k + 2 * i + 1) ((b.bits >>> 64).setWidth 64) ++ orOld rd (k + 2 * i) (b.bits.setWidth 64) }) old

/-- A team as the loader restores it (R181, R185, R186): what the area holds where it can be read, but for reserved bits, which stay 0 (R9). The copies that run on, the arrival at an
episode and the wait condition are the drover's, which have gone on since the save. -/
def loadTeam (rd : Nat → Option W64) (cls : Cls) (text : Tab W32) (t : TeamSt) : TeamSt :=
  let c := fun k => orOld rd k (ctlWord cls t .swap [] k)
  let n := datumWords cls
  loadX rd cls text { t with
    c := { loadStrand rd t .swap cls 0 t.c with regs := loadTab rd 0x80 48 t.c.regs, lat := loadList rd (0x80 + 96) 8 t.c.lat },
    a := { loadStrand rd t .swap cls 1 t.a with regs := loadTab rd (0x80 + 48) 48 t.a.regs, lat := loadList rd (0x80 + 104) 8 t.a.lat },
    x := loadStrand rd t .swap cls 2 t.x,
    slip := (c 5).toNat, fmtctl := lo32 (c 6) &&& 0x3FF, waitth := c 7, locsz := c 8, serr := lo32 (c 9) &&& 0x8000FFFF, serra := c 10, runCyc := (c 15).toNat,
    copySeq := BitVec.ofNat 16 (fieldW (c 16) 47 32),
    preHeld := if (c 0).getLsbD 14 && !t.preNow then some (t.preHeld.getD .X) else none, preNow := (c 0).getLsbD 14 && t.preNow,
    phase := t.phase.map fun p => { p with ended := (c 0).getLsbD 15 },
    brands := loadBrands rd (0x80 + 112) t.brands,
    ca := loadQ rd (0x80 + 144) t.ca, cx := loadQ rd (0x80 + 176) t.cx, xc := loadQ rd (0x80 + 208) t.xc, ac := loadQ rd (0x80 + 240) t.ac,
    bq := loadBq rd (0x80 + 272) t.bq, dq := loadDq rd cls 0x280 t.dq, sdq := loadSdq rd cls (0x280 + 64 * (n + 2)) t.sdq }

/-- A team restored from its context area by the loader for a core (R181). -/
def State.ctxLoad (s : State) (c : CoreId) (text : Tab W32) (t : TeamSt) : TeamSt × State :=
  match t.id with
  | none => (t, s)
  | some i =>
    let u := s.ctxRecall (whoOf c t) i
    (loadTeam (u.ctxRead (whoOf c t) i) i.cls text t, u.ctxMet (whoOf c t) i)

end Sys2Proof.Machine
end

