-- ==== Sys2Proof/Machine/Fences.lean ====
section
/-! DEFINITION. Fences, OP 0x59 and 0x5A (R158, R159, R357, R360). -/

namespace Sys2Proof.Machine

/-- Whether a place lies on the REMOTE path (R4, R134). -/
def remotePlace : Place → Bool
  | .peer _ _ => true
  | .host _ => true
  | _ => false

/-- Whether every earlier load of a strand has been performed: the queued loads are A's (R139). -/
def loadsDone (t : TeamSt) (σ : Strand) : Bool := σ != .A || lqLoads t == 0

/-- Whether every earlier store of a strand has been performed. -/
def storesDone (t : TeamSt) (σ : Strand) : Bool := (strandStores t σ).isEmpty

/-- `FENCE` (R158, R357): holds its strand until its order is met; a release raises a store failure of its strand (R140). -/
def execFence (t : Tag) (k : BitVec 2) (c : BitVec 3) (s : State) : Host.Outcome State Fault Refusal :=
  s.run (headOf t (k < 3 && c < 5)) fun s => do
    let acq := k == 0 || k == 2
    let rel := k == 1 || k == 2
    needWait (loadsDone s.tm s.strand)
    if rel then do
      needWait (storesDone s.tm s.strand)
      s.raiseSerr
    else .ok ()
    let s1 ← if rel && c != 0 then s.released s.me else .ok s
    let s2 ← if acq && c != 0 then s1.acquired s.me else .ok s1
    .ok s2.goOn

/-- Whether a copy has an end in another package or in host memory, so that it runs on the REMOTE path (R149). -/
def remoteCopy (e : CopyEnt) : Bool := [tagNum e.dst, tagNum e.src].any fun n => n == 3 || n == 4

/-- The paths of a mask (R4). -/
def pathIn (m : BitVec 6) : Path → Bool
  | .strand => m.getLsbD 0
  | .copy => m.getLsbD 1
  | .cube => m.getLsbD 2
  | .stream => m.getLsbD 3
  | .mem => m.getLsbD 4
  | .remote => m.getLsbD 5

/-- Whether a port still has accesses to make: a read port without REPEAT that runs, or a write port with unfilled claims. One with REPEAT never
ends its walk, and holds no fence (log 76, DESIGN CHOICE). -/
def portBusy (t : TeamSt) (p : Nat) : Bool :=
  let q := t.port p
  if p < 4 then q.st == .run && !q.rep else t.claims.any fun c => match c with | .port k n => k == p && decide (0 < n) | .store _ => false

/-- Whether a strand has a queued load on the REMOTE path, or on the STRAND path (R4, R139). -/
def queuedAt (t : TeamSt) (σ : Strand) (remote : Bool) : Bool :=
  σ == .A && t.lq.any fun e => match e with | .load p .. => remotePlace p == remote | .marker .. => false

/-- Whether every access of a path that a strand of the team started before its fence has been performed (R159, R253). The
accesses of cube commands and of row-engine, gather and scatter words are performed when those words retire. -/
def pathDone (t : TeamSt) (σ : Strand) : Path → Bool
  | .strand => !queuedAt t σ false && !t.sq.any fun e => e.strand == σ && !remotePlace e.place
  | .remote =>
    !queuedAt t σ true && !(t.sq.any fun e => e.strand == σ && remotePlace e.place) && !t.board.any fun e => e.2.strand == σ && remoteCopy e.2
  | .copy => !t.board.any fun e => e.2.strand == σ && !remoteCopy e.2
  | .cube => σ != .A || !t.tq.any fun x => decide (x.tag < t.a.span)
  | .stream => (σ != .A || !(List.range 6).any fun p => portBusy t p) && !t.scat.any fun e => e.strand == σ
  | .mem => true

/-- All six paths (R4). -/
def allPaths : List Path := [.strand, .copy, .cube, .stream, .mem, .remote]

/-- Whether every from-path of a mask is done for a strand. -/
def maskDone (t : TeamSt) (σ : Strand) (m : BitVec 6) : Bool := allPaths.all fun p => !pathIn m p || pathDone t σ p

/-- Whether the three strands of the running team have reached the same word: the running strand stands at it, and each other
strand stands at it too or, having passed it, is one span further (R159, R163, R18). -/
def State.allReached (s : State) : Bool :=
  let n := s.st.pc
  [Strand.C, .A, .X].all fun τ =>
    let st := s.tm.str τ
    τ == s.strand || (s.standsAt s.cur τ n && st.span == s.st.span) || decide (s.st.span < st.span)

/-- Whether a strand of the team has passed the W-tagged word at which the running strand stands (R18). -/
def State.passedBy (s : State) : Bool := [Strand.C, .A, .X].any fun τ => decide (s.st.span < (s.tm.str τ).span)

/-- `XFENCE` (R159): a private one covers the accesses of its own strand, a W-tagged one those of all three once all have reached
it. Where one strand has passed a W-tagged one, all that it covers has been performed. -/
def execXfence (t : Tag) (a b : BitVec 6) (c : BitVec 3) (s : State) : Host.Outcome State Fault Refusal :=
  s.run (headOf t (a != 0 && b != 0 && c < 5)) fun s => do
    if t == .W then do
      needWait s.allReached
      needWait (s.passedBy || (maskDone s.tm .C a && maskDone s.tm .A a && maskDone s.tm .X a))
    else needWait (maskDone s.tm s.strand a)
    let s1 ← if pathIn a .strand || pathIn b .strand then s.released s.me else .ok s
    let s2 ← if pathIn b .strand then s1.acquired s.me else .ok s1
    .ok s2.goOn

end Sys2Proof.Machine
end

