-- ==== Sys2Proof/Decode.lean ====
section
/-! DEFINITION. From words to instructions and back (R12, R41 to R52). `decode` reads a word as the map of a core's class
gives it and refuses every other word; the encoder writes the word of an instruction. -/

namespace Sys2Proof

/-- The strand tag of a word, bits [31:30] (R12). -/
def tagOf (w : W32) : Tag :=
  match (w.extractLsb' 30 2).toNat with
  | 0 => .C
  | 1 => .A
  | 2 => .X
  | _ => .W

/-- The bits of a strand tag (R12). -/
def tagBits : Tag → BitVec 2
  | .C => 0
  | .A => 1
  | .X => 2
  | .W => 3

/-- Bit 30 of a strand tag, where the opcode fixes bit 31. -/
def tagLow : Tag → BitVec 1
  | .C => 0
  | .A => 1
  | .X => 0
  | .W => 1

/-- Bits [29:22] of a word (R41). -/
def opOf (w : W32) : Nat := (w.extractLsb' 22 8).toNat

/-- The common half (R47). Every other OP is reserved. -/
def decodeCommon (w : W32) : Option Instr :=
  match opOf w with
  | 0x00 => if w.extractLsb' 0 22 = 0 then some (.nop (tagOf w)) else none
  | 0x01 => some (.add (tagOf w) (w.getLsbD 21) (w.extractLsb' 15 6) (w.extractLsb' 9 6) (w.extractLsb' 3 6) (w.extractLsb' 0 3))
  | 0x02 => some (.addi (tagOf w) (w.getLsbD 21) (w.extractLsb' 15 6) (w.extractLsb' 9 6) (w.extractLsb' 0 9))
  | 0x03 => some (.sub (tagOf w) (w.getLsbD 21) (w.extractLsb' 15 6) (w.extractLsb' 9 6) (w.extractLsb' 3 6) (w.extractLsb' 0 3))
  | 0x04 => some (.mul (tagOf w) (w.getLsbD 21) (w.extractLsb' 15 6) (w.extractLsb' 9 6) (w.extractLsb' 3 6) (w.extractLsb' 0 3))
  | 0x05 => some (.div (tagOf w) (w.getLsbD 21) (w.extractLsb' 15 6) (w.extractLsb' 9 6) (w.extractLsb' 3 6) (w.extractLsb' 0 3))
  | 0x06 => if w.extractLsb' 0 3 = 0 then some (.andK (tagOf w) (w.getLsbD 21) (w.extractLsb' 15 6) (w.extractLsb' 9 6) (w.extractLsb' 3 6)) else none
  | 0x07 => some (.andi (tagOf w) (w.getLsbD 21) (w.extractLsb' 15 6) (w.extractLsb' 9 6) (w.extractLsb' 0 9))
  | 0x08 => if w.extractLsb' 0 3 = 0 then some (.orK (tagOf w) (w.getLsbD 21) (w.extractLsb' 15 6) (w.extractLsb' 9 6) (w.extractLsb' 3 6)) else none
  | 0x09 => some (.ori (tagOf w) (w.getLsbD 21) (w.extractLsb' 15 6) (w.extractLsb' 9 6) (w.extractLsb' 0 9))
  | 0x0A => if w.extractLsb' 0 3 = 0 then some (.xorK (tagOf w) (w.getLsbD 21) (w.extractLsb' 15 6) (w.extractLsb' 9 6) (w.extractLsb' 3 6)) else none
  | 0x0B => some (.xori (tagOf w) (w.getLsbD 21) (w.extractLsb' 15 6) (w.extractLsb' 9 6) (w.extractLsb' 0 9))
  | 0x0C => if w.extractLsb' 0 3 = 0 then some (.shl (tagOf w) (w.getLsbD 21) (w.extractLsb' 15 6) (w.extractLsb' 9 6) (w.extractLsb' 3 6)) else none
  | 0x0D => some (.shli (tagOf w) (w.getLsbD 21) (w.extractLsb' 15 6) (w.extractLsb' 9 6) (w.extractLsb' 0 9))
  | 0x0E => if w.extractLsb' 0 3 = 0 then some (.shr (tagOf w) (w.getLsbD 21) (w.extractLsb' 15 6) (w.extractLsb' 9 6) (w.extractLsb' 3 6)) else none
  | 0x0F => some (.shri (tagOf w) (w.getLsbD 21) (w.extractLsb' 15 6) (w.extractLsb' 9 6) (w.extractLsb' 0 9))
  | 0x10 => if w.extractLsb' 0 3 = 0 then some (.sra (tagOf w) (w.getLsbD 21) (w.extractLsb' 15 6) (w.extractLsb' 9 6) (w.extractLsb' 3 6)) else none
  | 0x11 => some (.srai (tagOf w) (w.getLsbD 21) (w.extractLsb' 15 6) (w.extractLsb' 9 6) (w.extractLsb' 0 9))
  | 0x12 => some (.minK (tagOf w) (w.getLsbD 21) (w.extractLsb' 15 6) (w.extractLsb' 9 6) (w.extractLsb' 3 6) (w.extractLsb' 0 3))
  | 0x13 => some (.maxK (tagOf w) (w.getLsbD 21) (w.extractLsb' 15 6) (w.extractLsb' 9 6) (w.extractLsb' 3 6) (w.extractLsb' 0 3))
  | 0x14 => if w.extractLsb' 18 3 = 0 then some (.cmp (tagOf w) (w.getLsbD 21) (w.extractLsb' 15 3) (w.extractLsb' 9 6) (w.extractLsb' 3 6) (w.extractLsb' 0 3)) else none
  | 0x15 => some (.cmpi (tagOf w) (w.getLsbD 21) (w.extractLsb' 18 3) (w.extractLsb' 15 3) (w.extractLsb' 9 6) (w.extractLsb' 0 9))
  | 0x16 => some (.sel (tagOf w) (w.getLsbD 21) (w.extractLsb' 15 6) (w.extractLsb' 9 6) (w.extractLsb' 3 6) (w.extractLsb' 0 3))
  | 0x17 => some (.li (tagOf w) (w.extractLsb' 16 6) (w.extractLsb' 0 16))
  | 0x18 => some (.lsi (tagOf w) (w.extractLsb' 16 6) (w.extractLsb' 0 16))
  | 0x19 => some (.bfx (tagOf w) (w.getLsbD 21) (w.extractLsb' 15 6) (w.extractLsb' 9 6) (w.extractLsb' 3 6) (w.extractLsb' 0 3))
  | 0x1A => if w.extractLsb' 0 3 = 0 then some (.bfi (tagOf w) (w.getLsbD 21) (w.extractLsb' 15 6) (w.extractLsb' 9 6) (w.extractLsb' 3 6)) else none
  | 0x1B => if w.extractLsb' 3 6 = 0 then some (.bitc (tagOf w) (w.getLsbD 21) (w.extractLsb' 15 6) (w.extractLsb' 9 6) (w.extractLsb' 0 3)) else none
  | 0x1C => if w.extractLsb' 18 3 = 0 ∧ w.extractLsb' 12 3 = 0 ∧ w.extractLsb' 6 3 = 0 then some (.plog (tagOf w) (w.getLsbD 21) (w.extractLsb' 15 3) (w.extractLsb' 9 3) (w.extractLsb' 3 3) (w.extractLsb' 0 3)) else none
  | 0x1D => if w.extractLsb' 3 6 = 0 then some (.pmov (tagOf w) (w.getLsbD 21) (w.extractLsb' 15 6) (w.extractLsb' 9 6) (w.extractLsb' 0 3)) else none
  | 0x20 => if w.extractLsb' 31 1 = 0 then some (.fadd (tagOf w) (w.getLsbD 21) (w.extractLsb' 15 6) (w.extractLsb' 9 6) (w.extractLsb' 3 6) (w.extractLsb' 0 3)) else none
  | 0x21 => if w.extractLsb' 31 1 = 0 then some (.fmul (tagOf w) (w.getLsbD 21) (w.extractLsb' 15 6) (w.extractLsb' 9 6) (w.extractLsb' 3 6) (w.extractLsb' 0 3)) else none
  | 0x22 => if w.extractLsb' 31 1 = 0 then some (.ffma (tagOf w) (w.getLsbD 21) (w.extractLsb' 15 6) (w.extractLsb' 9 6) (w.extractLsb' 3 6) (w.extractLsb' 0 3)) else none
  | 0x23 => if w.extractLsb' 31 1 = 0 then some (.fmnx (tagOf w) (w.getLsbD 21) (w.extractLsb' 15 6) (w.extractLsb' 9 6) (w.extractLsb' 3 6) (w.extractLsb' 0 3)) else none
  | 0x24 => if w.extractLsb' 31 1 = 0 ∧ w.extractLsb' 18 3 = 0 then some (.fcmp (tagOf w) (w.getLsbD 21) (w.extractLsb' 15 3) (w.extractLsb' 9 6) (w.extractLsb' 3 6) (w.extractLsb' 0 3)) else none
  | 0x25 => if w.extractLsb' 31 1 = 0 ∧ w.extractLsb' 3 6 = 0 then some (.fcvt (tagOf w) (w.getLsbD 21) (w.extractLsb' 15 6) (w.extractLsb' 9 6) (w.extractLsb' 0 3)) else none
  | 0x30 => some (.br (tagOf w) (w.extractLsb' 18 4) (w.extractLsb' 0 18))
  | 0x31 => if w.extractLsb' 18 4 = 7 then some (.call (tagOf w) (w.extractLsb' 0 18)) else none
  | 0x32 => if w.extractLsb' 0 22 = 0 then some (.ret (tagOf w)) else none
  | 0x33 => if w.extractLsb' 15 7 = 0 ∧ w.extractLsb' 0 9 = 0 then some (.jmpr (tagOf w) (w.extractLsb' 9 6)) else none
  | 0x34 => if w.extractLsb' 30 2 = 3 then some (.loop (w.extractLsb' 20 2) (w.extractLsb' 14 6) (w.extractLsb' 0 14)) else none
  | 0x35 => if w.extractLsb' 30 2 = 3 ∧ w.extractLsb' 0 16 = 0 then some (.lbrk (w.extractLsb' 18 4) (w.extractLsb' 16 2)) else none
  | 0x36 => if w.extractLsb' 3 12 = 0 then some (.lcnt (tagOf w) (w.getLsbD 21) (w.extractLsb' 15 6) (w.extractLsb' 0 3)) else none
  | 0x37 => if w.extractLsb' 30 2 = 3 ∧ w.extractLsb' 10 12 = 0 then some (.slip (w.extractLsb' 0 10)) else none
  | 0x38 => if w.extractLsb' 10 6 = 0 then some (.push (tagOf w) (w.extractLsb' 16 6) (w.extractLsb' 0 10)) else none
  | 0x39 => if w.extractLsb' 10 6 = 0 then some (.pop (tagOf w) (w.extractLsb' 16 6) (w.extractLsb' 0 10)) else none
  | 0x3A => if w.extractLsb' 0 22 = 0 then some (.align (tagOf w)) else none
  | 0x3B => if w.extractLsb' 31 1 = 1 ∧ w.extractLsb' 10 12 = 0 then some (.fmtc (tagOf w) (w.extractLsb' 0 10)) else none
  | 0x3C => if w.extractLsb' 10 6 = 0 then some (.time (tagOf w) (w.extractLsb' 16 6) (w.extractLsb' 0 10)) else none
  | 0x3D => if w.extractLsb' 10 6 = 0 then some (.waitt (tagOf w) (w.extractLsb' 16 6) (w.extractLsb' 0 10)) else none
  | 0x3E => if w.extractLsb' 30 2 = 3 ∧ w.extractLsb' 0 22 = 0 then some (.exit) else none
  | 0x3F => if w.extractLsb' 10 6 = 0 then some (.trap (tagOf w) (w.extractLsb' 16 6) (w.extractLsb' 0 10)) else none
  | 0x40 => some (.ldb (tagOf w) (w.getLsbD 21) (w.extractLsb' 15 6) (w.extractLsb' 9 6) (w.extractLsb' 7 2) (w.extractLsb' 0 7))
  | 0x41 => some (.ldh (tagOf w) (w.getLsbD 21) (w.extractLsb' 15 6) (w.extractLsb' 9 6) (w.extractLsb' 7 2) (w.extractLsb' 0 7))
  | 0x42 => some (.ldw (tagOf w) (w.getLsbD 21) (w.extractLsb' 15 6) (w.extractLsb' 9 6) (w.extractLsb' 7 2) (w.extractLsb' 0 7))
  | 0x43 => some (.ldd (tagOf w) (w.getLsbD 21) (w.extractLsb' 15 6) (w.extractLsb' 9 6) (w.extractLsb' 7 2) (w.extractLsb' 0 7))
  | 0x44 => some (.ldbz (tagOf w) (w.getLsbD 21) (w.extractLsb' 15 6) (w.extractLsb' 9 6) (w.extractLsb' 7 2) (w.extractLsb' 0 7))
  | 0x45 => some (.ldhz (tagOf w) (w.getLsbD 21) (w.extractLsb' 15 6) (w.extractLsb' 9 6) (w.extractLsb' 7 2) (w.extractLsb' 0 7))
  | 0x46 => some (.ldwz (tagOf w) (w.getLsbD 21) (w.extractLsb' 15 6) (w.extractLsb' 9 6) (w.extractLsb' 7 2) (w.extractLsb' 0 7))
  | 0x48 => some (.stb (tagOf w) (w.getLsbD 21) (w.extractLsb' 15 6) (w.extractLsb' 9 6) (w.extractLsb' 7 2) (w.extractLsb' 0 7))
  | 0x49 => some (.sth (tagOf w) (w.getLsbD 21) (w.extractLsb' 15 6) (w.extractLsb' 9 6) (w.extractLsb' 7 2) (w.extractLsb' 0 7))
  | 0x4A => some (.stw (tagOf w) (w.getLsbD 21) (w.extractLsb' 15 6) (w.extractLsb' 9 6) (w.extractLsb' 7 2) (w.extractLsb' 0 7))
  | 0x4B => some (.std (tagOf w) (w.getLsbD 21) (w.extractLsb' 15 6) (w.extractLsb' 9 6) (w.extractLsb' 7 2) (w.extractLsb' 0 7))
  | 0x4C => if w.extractLsb' 31 1 = 0 then some (.ldf (tagOf w) (w.getLsbD 21) (w.extractLsb' 15 6) (w.extractLsb' 9 6) (w.extractLsb' 7 2) (w.extractLsb' 0 7)) else none
  | 0x4D => if w.extractLsb' 31 1 = 0 then some (.stf (tagOf w) (w.getLsbD 21) (w.extractLsb' 15 6) (w.extractLsb' 9 6) (w.extractLsb' 7 2) (w.extractLsb' 0 7)) else none
  | 0x4E => if w.extractLsb' 31 1 = 0 then some (.fefill (tagOf w) (w.getLsbD 21) (w.extractLsb' 15 6) (w.extractLsb' 9 6) (w.extractLsb' 3 6) (w.extractLsb' 0 3)) else none
  | 0x50 => if w.extractLsb' 21 1 = 0 then some (.cpy (tagOf w) (w.extractLsb' 15 6) (w.extractLsb' 9 6) (w.extractLsb' 3 6) (w.extractLsb' 0 3)) else none
  | 0x51 => if w.extractLsb' 10 6 = 0 then some (.cpyw (tagOf w) (w.extractLsb' 16 6) (w.extractLsb' 0 10)) else none
  | 0x52 => if w.extractLsb' 0 10 = 0 then some (.cpys (tagOf w) (w.extractLsb' 16 6) (w.extractLsb' 10 6)) else none
  | 0x54 => some (.amo (tagOf w) (w.getLsbD 21) (w.extractLsb' 15 6) (w.extractLsb' 9 6) (w.extractLsb' 3 6) (w.extractLsb' 0 3))
  | 0x55 => some (.amow (tagOf w) (w.getLsbD 21) (w.extractLsb' 15 6) (w.extractLsb' 9 6) (w.extractLsb' 3 6) (w.extractLsb' 0 3))
  | 0x56 => if w.extractLsb' 21 1 = 0 ∧ w.extractLsb' 0 3 = 0 then some (.cas (tagOf w) (w.extractLsb' 15 6) (w.extractLsb' 9 6) (w.extractLsb' 3 6)) else none
  | 0x57 => if w.extractLsb' 21 1 = 0 ∧ w.extractLsb' 0 3 = 0 then some (.casw (tagOf w) (w.extractLsb' 15 6) (w.extractLsb' 9 6) (w.extractLsb' 3 6)) else none
  | 0x58 => some (.amof (tagOf w) (w.getLsbD 21) (w.extractLsb' 15 6) (w.extractLsb' 9 6) (w.extractLsb' 3 6) (w.extractLsb' 0 3))
  | 0x59 => if w.extractLsb' 5 17 = 0 then some (.fence (tagOf w) (w.extractLsb' 3 2) (w.extractLsb' 0 3)) else none
  | 0x5A => if w.extractLsb' 3 7 = 0 then some (.xfence (tagOf w) (w.extractLsb' 16 6) (w.extractLsb' 10 6) (w.extractLsb' 0 3)) else none
  | 0x5B => if w.extractLsb' 15 6 = 0 then some (.pref (tagOf w) (w.getLsbD 21) (w.extractLsb' 9 6) (w.extractLsb' 7 2) (w.extractLsb' 0 7)) else none
  | 0x60 => if w.extractLsb' 30 2 = 3 ∧ w.extractLsb' 10 6 = 0 then some (.fjoin (w.extractLsb' 16 6) (w.extractLsb' 0 10)) else none
  | 0x61 => if w.extractLsb' 30 2 = 3 ∧ w.extractLsb' 0 22 = 0 then some (.fleave) else none
  | 0x62 => if w.extractLsb' 30 2 = 3 ∧ w.extractLsb' 0 16 = 0 then some (.fbar (w.extractLsb' 16 6)) else none
  | 0x63 => if w.extractLsb' 30 2 = 0 ∧ w.extractLsb' 3 6 = 0 then some (.fred (w.getLsbD 21) (w.extractLsb' 15 6) (w.extractLsb' 9 6) (w.extractLsb' 0 3)) else none
  | 0x64 => if w.extractLsb' 30 2 = 3 ∧ w.extractLsb' 0 22 = 0 then some (.xph) else none
  | 0x65 => if w.extractLsb' 30 2 = 2 ∧ w.extractLsb' 10 6 = 0 then some (.xmit (w.extractLsb' 16 6) (w.extractLsb' 1 9) (w.extractLsb' 0 1)) else none
  | 0x66 => if w.extractLsb' 30 2 = 2 ∧ w.extractLsb' 10 6 = 0 then some (.msel (w.extractLsb' 16 6) (w.extractLsb' 1 9) (w.extractLsb' 0 1)) else none
  | 0x67 => if w.extractLsb' 30 2 = 3 ∧ w.extractLsb' 0 22 = 0 then some (.xend) else none
  | 0x68 => if w.extractLsb' 30 2 = 0 ∧ w.extractLsb' 13 2 = 0 ∧ w.extractLsb' 0 9 = 0 then some (.bopen (w.getLsbD 21) (w.extractLsb' 15 6) (w.extractLsb' 9 4)) else none
  | 0x69 => if w.extractLsb' 30 2 = 0 ∧ w.extractLsb' 20 2 = 0 ∧ w.extractLsb' 3 13 = 0 then some (.bgive (w.extractLsb' 16 4) (w.extractLsb' 0 3)) else none
  | 0x6A => if w.extractLsb' 30 2 = 0 ∧ w.extractLsb' 20 2 = 0 ∧ w.extractLsb' 14 2 = 0 ∧ w.extractLsb' 6 4 = 0 then some (.bdup (w.extractLsb' 16 4) (w.extractLsb' 10 4) (w.extractLsb' 0 6)) else none
  | 0x6B => if w.extractLsb' 30 2 = 0 ∧ w.extractLsb' 20 2 = 0 ∧ w.extractLsb' 0 16 = 0 then some (.bdrop (w.extractLsb' 16 4)) else none
  | 0x6C => if w.extractLsb' 30 2 = 0 ∧ w.extractLsb' 13 2 = 0 ∧ w.extractLsb' 3 6 = 0 then some (.binfo (w.getLsbD 21) (w.extractLsb' 15 6) (w.extractLsb' 9 4) (w.extractLsb' 0 3)) else none
  | 0x6D => if w.extractLsb' 9 6 = 0 then some (.nparam (tagOf w) (w.getLsbD 21) (w.extractLsb' 15 6) (w.extractLsb' 0 9)) else none
  | 0x6E => if w.extractLsb' 3 12 = 0 then some (.inst (tagOf w) (w.getLsbD 21) (w.extractLsb' 15 6) (w.extractLsb' 0 3)) else none
  | 0x6F => if w.extractLsb' 30 2 = 0 then some (.signal (w.extractLsb' 16 6) (w.extractLsb' 10 6) (w.extractLsb' 0 10)) else none
  | 0x70 => if w.extractLsb' 10 6 = 0 then some (.cfr (tagOf w) (w.extractLsb' 16 6) (w.extractLsb' 0 10)) else none
  | 0x71 => if w.extractLsb' 10 6 = 0 then some (.cfw (tagOf w) (w.extractLsb' 16 6) (w.extractLsb' 0 10)) else none
  | 0x72 => if w.extractLsb' 30 2 = 0 ∧ w.extractLsb' 0 22 = 0 then some (.halt) else none
  | 0x73 => if w.extractLsb' 30 2 = 0 then some (.tlbi (w.extractLsb' 16 6) (w.extractLsb' 10 6) (w.extractLsb' 0 10)) else none
  | 0x74 => if w.extractLsb' 30 2 = 0 ∧ w.extractLsb' 0 22 = 0 then some (.eret) else none
  | _ => none

/-- The vector half shared by VEC, SPARSE and SORT (R49). Every other OP is reserved. -/
def decodeVector (w : W32) : Option Instr :=
  match opOf w with
  | 0x80 => if w.extractLsb' 30 2 = 2 then some (.vadd (w.getLsbD 21) (w.extractLsb' 15 6) (w.extractLsb' 9 6) (w.extractLsb' 3 6) (w.extractLsb' 0 3)) else none
  | 0x81 => if w.extractLsb' 30 2 = 2 then some (.vsub (w.getLsbD 21) (w.extractLsb' 15 6) (w.extractLsb' 9 6) (w.extractLsb' 3 6) (w.extractLsb' 0 3)) else none
  | 0x82 => if w.extractLsb' 30 2 = 2 then some (.vmul (w.getLsbD 21) (w.extractLsb' 15 6) (w.extractLsb' 9 6) (w.extractLsb' 3 6) (w.extractLsb' 0 3)) else none
  | 0x83 => if w.extractLsb' 30 2 = 2 then some (.vfma (w.getLsbD 21) (w.extractLsb' 15 6) (w.extractLsb' 9 6) (w.extractLsb' 3 6) (w.extractLsb' 0 3)) else none
  | 0x84 => if w.extractLsb' 30 2 = 2 then some (.vfnma (w.getLsbD 21) (w.extractLsb' 15 6) (w.extractLsb' 9 6) (w.extractLsb' 3 6) (w.extractLsb' 0 3)) else none
  | 0x85 => if w.extractLsb' 30 2 = 2 then some (.vmin (w.getLsbD 21) (w.extractLsb' 15 6) (w.extractLsb' 9 6) (w.extractLsb' 3 6) (w.extractLsb' 0 3)) else none
  | 0x86 => if w.extractLsb' 30 2 = 2 then some (.vmax (w.getLsbD 21) (w.extractLsb' 15 6) (w.extractLsb' 9 6) (w.extractLsb' 3 6) (w.extractLsb' 0 3)) else none
  | 0x87 => if w.extractLsb' 30 2 = 2 then some (.vuna (w.getLsbD 21) (w.extractLsb' 15 6) (w.extractLsb' 9 6) (w.extractLsb' 3 6) (w.extractLsb' 0 3)) else none
  | 0x88 => if w.extractLsb' 30 2 = 2 then some (.vcmp (w.getLsbD 21) (w.extractLsb' 18 3) (w.extractLsb' 15 3) (w.extractLsb' 9 6) (w.extractLsb' 3 6) (w.extractLsb' 0 3)) else none
  | 0x89 => if w.extractLsb' 30 2 = 2 ∧ w.extractLsb' 0 3 = 0 then some (.vsel (w.getLsbD 21) (w.extractLsb' 15 6) (w.extractLsb' 9 6) (w.extractLsb' 3 6)) else none
  | 0x8A => if w.extractLsb' 30 2 = 2 then some (.vcvt (w.getLsbD 21) (w.extractLsb' 15 6) (w.extractLsb' 9 6) (w.extractLsb' 3 6) (w.extractLsb' 0 3)) else none
  | 0x8B => if w.extractLsb' 30 2 = 2 ∧ w.extractLsb' 3 6 = 0 then some (.vrcp (w.getLsbD 21) (w.extractLsb' 15 6) (w.extractLsb' 9 6) (w.extractLsb' 0 3)) else none
  | 0x8C => if w.extractLsb' 30 2 = 2 ∧ w.extractLsb' 3 6 = 0 then some (.vrsq (w.getLsbD 21) (w.extractLsb' 15 6) (w.extractLsb' 9 6) (w.extractLsb' 0 3)) else none
  | 0x8D => if w.extractLsb' 30 2 = 2 ∧ w.extractLsb' 3 6 = 0 then some (.vexp2 (w.getLsbD 21) (w.extractLsb' 15 6) (w.extractLsb' 9 6) (w.extractLsb' 0 3)) else none
  | 0x8E => if w.extractLsb' 30 2 = 2 ∧ w.extractLsb' 3 6 = 0 then some (.vlog2 (w.getLsbD 21) (w.extractLsb' 15 6) (w.extractLsb' 9 6) (w.extractLsb' 0 3)) else none
  | 0x8F => if w.extractLsb' 30 2 = 2 then some (.vscl2 (w.getLsbD 21) (w.extractLsb' 15 6) (w.extractLsb' 9 6) (w.extractLsb' 3 6) (w.extractLsb' 0 3)) else none
  | 0x90 => if w.extractLsb' 30 2 = 2 then some (.vdot (w.getLsbD 21) (w.extractLsb' 15 6) (w.extractLsb' 9 6) (w.extractLsb' 3 6) (w.extractLsb' 0 3)) else none
  | 0x91 => if w.extractLsb' 30 2 = 2 then some (.vdota (w.getLsbD 21) (w.extractLsb' 15 6) (w.extractLsb' 9 6) (w.extractLsb' 3 6) (w.extractLsb' 0 3)) else none
  | 0x92 => if w.extractLsb' 30 2 = 2 ∧ w.extractLsb' 3 6 = 0 then some (.vrsum (w.getLsbD 21) (w.extractLsb' 15 6) (w.extractLsb' 9 6) (w.extractLsb' 0 3)) else none
  | 0x93 => if w.extractLsb' 30 2 = 2 ∧ w.extractLsb' 3 6 = 0 then some (.vrmax (w.getLsbD 21) (w.extractLsb' 15 6) (w.extractLsb' 9 6) (w.extractLsb' 0 3)) else none
  | 0x94 => if w.extractLsb' 30 2 = 2 ∧ w.extractLsb' 3 6 = 0 then some (.vscan (w.getLsbD 21) (w.extractLsb' 15 6) (w.extractLsb' 9 6) (w.extractLsb' 0 3)) else none
  | 0x95 => if w.extractLsb' 30 2 = 2 ∧ w.extractLsb' 0 3 = 0 then some (.vperm (w.getLsbD 21) (w.extractLsb' 15 6) (w.extractLsb' 9 6) (w.extractLsb' 3 6)) else none
  | 0x96 => if w.extractLsb' 30 2 = 2 ∧ w.extractLsb' 0 3 = 0 then some (.vrot (w.getLsbD 21) (w.extractLsb' 15 6) (w.extractLsb' 9 6) (w.extractLsb' 3 6)) else none
  | 0x97 => if w.extractLsb' 30 2 = 2 ∧ w.extractLsb' 0 3 = 0 then some (.vbcast (w.getLsbD 21) (w.extractLsb' 15 6) (w.extractLsb' 9 6) (w.extractLsb' 3 6)) else none
  | 0x98 => if w.extractLsb' 30 2 = 2 then some (.viadd (w.getLsbD 21) (w.extractLsb' 15 6) (w.extractLsb' 9 6) (w.extractLsb' 3 6) (w.extractLsb' 0 3)) else none
  | 0x99 => if w.extractLsb' 30 2 = 2 then some (.visub (w.getLsbD 21) (w.extractLsb' 15 6) (w.extractLsb' 9 6) (w.extractLsb' 3 6) (w.extractLsb' 0 3)) else none
  | 0x9A => if w.extractLsb' 30 2 = 2 then some (.vimul (w.getLsbD 21) (w.extractLsb' 15 6) (w.extractLsb' 9 6) (w.extractLsb' 3 6) (w.extractLsb' 0 3)) else none
  | 0x9B => if w.extractLsb' 30 2 = 2 ∧ w.extractLsb' 0 3 = 0 then some (.vand (w.getLsbD 21) (w.extractLsb' 15 6) (w.extractLsb' 9 6) (w.extractLsb' 3 6)) else none
  | 0x9C => if w.extractLsb' 30 2 = 2 ∧ w.extractLsb' 0 3 = 0 then some (.vor (w.getLsbD 21) (w.extractLsb' 15 6) (w.extractLsb' 9 6) (w.extractLsb' 3 6)) else none
  | 0x9D => if w.extractLsb' 30 2 = 2 ∧ w.extractLsb' 0 3 = 0 then some (.vxor (w.getLsbD 21) (w.extractLsb' 15 6) (w.extractLsb' 9 6) (w.extractLsb' 3 6)) else none
  | 0x9E => if w.extractLsb' 30 2 = 2 then some (.vshl (w.getLsbD 21) (w.extractLsb' 15 6) (w.extractLsb' 9 6) (w.extractLsb' 3 6) (w.extractLsb' 0 3)) else none
  | 0x9F => if w.extractLsb' 30 2 = 2 then some (.vshr (w.getLsbD 21) (w.extractLsb' 15 6) (w.extractLsb' 9 6) (w.extractLsb' 3 6) (w.extractLsb' 0 3)) else none
  | 0xA0 => if w.extractLsb' 30 2 = 2 then some (.vsra (w.getLsbD 21) (w.extractLsb' 15 6) (w.extractLsb' 9 6) (w.extractLsb' 3 6) (w.extractLsb' 0 3)) else none
  | 0xA1 => if w.extractLsb' 30 2 = 2 then some (.vimnx (w.getLsbD 21) (w.extractLsb' 15 6) (w.extractLsb' 9 6) (w.extractLsb' 3 6) (w.extractLsb' 0 3)) else none
  | 0xA2 => if w.extractLsb' 30 2 = 2 then some (.vicmp (w.getLsbD 21) (w.extractLsb' 18 3) (w.extractLsb' 15 3) (w.extractLsb' 9 6) (w.extractLsb' 3 6) (w.extractLsb' 0 3)) else none
  | 0xA3 => if w.extractLsb' 30 2 = 2 then some (.vpack (w.getLsbD 21) (w.extractLsb' 15 6) (w.extractLsb' 9 6) (w.extractLsb' 3 6) (w.extractLsb' 0 3)) else none
  | 0xA4 => if w.extractLsb' 30 2 = 2 then some (.vunpk (w.getLsbD 21) (w.extractLsb' 15 6) (w.extractLsb' 9 6) (w.extractLsb' 3 6) (w.extractLsb' 0 3)) else none
  | 0xA5 => if w.extractLsb' 30 2 = 1 ∧ w.extractLsb' 15 6 = 63 then some (.ldv (w.getLsbD 21) (w.extractLsb' 9 6) (w.extractLsb' 7 2) (w.extractLsb' 0 7)) else none
  | 0xA6 => if w.extractLsb' 30 2 = 1 ∧ w.extractLsb' 15 7 = 127 then some (.stv (w.extractLsb' 9 6) (w.extractLsb' 7 2) (w.extractLsb' 0 7)) else none
  | 0xA8 => if w.extractLsb' 30 2 = 2 ∧ w.extractLsb' 0 3 = 0 then some (.vgath (w.getLsbD 21) (w.extractLsb' 15 6) (w.extractLsb' 9 6) (w.extractLsb' 3 6)) else none
  | 0xA9 => if w.extractLsb' 30 2 = 2 ∧ w.extractLsb' 21 1 = 0 ∧ w.extractLsb' 0 3 = 0 then some (.vscat (w.extractLsb' 15 6) (w.extractLsb' 9 6) (w.extractLsb' 3 6)) else none
  | 0xAA => if w.extractLsb' 30 2 = 2 ∧ w.extractLsb' 18 4 = 0 ∧ w.extractLsb' 0 15 = 0 then some (.vmset (w.extractLsb' 15 3)) else none
  | 0xAB => if w.extractLsb' 30 2 = 2 ∧ w.extractLsb' 18 3 = 0 then some (.vmlog (w.getLsbD 21) (w.extractLsb' 15 3) (w.extractLsb' 9 6) (w.extractLsb' 3 6) (w.extractLsb' 0 3)) else none
  | 0xAC => if w.extractLsb' 30 2 = 2 ∧ w.extractLsb' 0 9 = 0 then some (.vmov (w.getLsbD 21) (w.extractLsb' 15 6) (w.extractLsb' 9 6)) else none
  | 0xAD => if w.extractLsb' 30 2 = 2 ∧ w.extractLsb' 0 3 = 0 then some (.viota (w.getLsbD 21) (w.extractLsb' 15 6) (w.extractLsb' 9 6) (w.extractLsb' 3 6)) else none
  | 0xAE => if w.extractLsb' 30 2 = 2 ∧ w.extractLsb' 15 7 = 0 ∧ w.extractLsb' 0 3 = 0 then some (.vext (w.extractLsb' 9 6) (w.extractLsb' 3 6)) else none
  | 0xAF => if w.extractLsb' 30 2 = 2 ∧ w.extractLsb' 0 3 = 0 then some (.vins (w.getLsbD 21) (w.extractLsb' 15 6) (w.extractLsb' 9 6) (w.extractLsb' 3 6)) else none
  | 0xB0 => if w.extractLsb' 30 2 = 1 then some (.pset (w.extractLsb' 19 3) (w.extractLsb' 13 6) (w.extractLsb' 7 6) (w.extractLsb' 0 7)) else none
  | 0xB1 => if w.extractLsb' 30 2 = 1 ∧ w.extractLsb' 0 19 = 0 then some (.pgo (w.extractLsb' 19 3)) else none
  | 0xB2 => if w.extractLsb' 30 2 = 1 ∧ w.extractLsb' 0 19 = 0 then some (.phalt (w.extractLsb' 19 3)) else none
  | 0xB3 => if w.extractLsb' 30 2 = 1 ∧ w.extractLsb' 0 13 = 0 then some (.pstat (w.extractLsb' 19 3) (w.extractLsb' 13 6)) else none
  | _ => none

/-- The VEC codes from 0xC0 (R50). Every other OP is reserved. -/
def decodeVec (w : W32) : Option Instr :=
  match opOf w with
  | 0xC0 => if w.extractLsb' 30 2 = 2 then some (.vqnt (w.getLsbD 21) (w.extractLsb' 15 6) (w.extractLsb' 9 6) (w.extractLsb' 3 6) (w.extractLsb' 0 3)) else none
  | 0xC1 => if w.extractLsb' 30 2 = 2 then some (.vdqnt (w.getLsbD 21) (w.extractLsb' 15 6) (w.extractLsb' 9 6) (w.extractLsb' 3 6) (w.extractLsb' 0 3)) else none
  | _ => none

/-- The SPARSE codes from 0xC0 (R50). Every other OP is reserved. -/
def decodeSparse (w : W32) : Option Instr :=
  match opOf w with
  | 0xC0 => if w.extractLsb' 30 2 = 2 ∧ w.extractLsb' 0 3 = 0 then some (.mpath (w.getLsbD 21) (w.extractLsb' 15 6) (w.extractLsb' 9 6) (w.extractLsb' 3 6)) else none
  | 0xC1 => if w.extractLsb' 30 2 = 1 ∧ w.extractLsb' 3 4 = 0 then some (.csrw (w.extractLsb' 19 3) (w.extractLsb' 13 6) (w.extractLsb' 7 6) (w.extractLsb' 2 1) (w.extractLsb' 0 2)) else none
  | 0xC2 => if w.extractLsb' 30 2 = 2 then some (.segsum (w.getLsbD 21) (w.extractLsb' 15 6) (w.extractLsb' 9 6) (w.extractLsb' 3 6) (w.extractLsb' 0 3)) else none
  | 0xC3 => if w.extractLsb' 30 2 = 2 ∧ w.extractLsb' 0 3 = 0 then some (.segcar (w.getLsbD 21) (w.extractLsb' 15 6) (w.extractLsb' 9 6) (w.extractLsb' 3 6)) else none
  | 0xC4 => if w.extractLsb' 30 2 = 2 ∧ w.extractLsb' 0 3 = 0 then some (.vgathx (w.getLsbD 21) (w.extractLsb' 15 6) (w.extractLsb' 9 6) (w.extractLsb' 3 6)) else none
  | _ => none

/-- The SORT codes from 0xC0 (R50). Every other OP is reserved. -/
def decodeSort (w : W32) : Option Instr :=
  match opOf w with
  | 0xC0 => if w.extractLsb' 30 2 = 2 ∧ w.extractLsb' 1 8 = 0 then some (.sbit (w.getLsbD 21) (w.extractLsb' 15 6) (w.extractLsb' 9 6) (w.extractLsb' 0 1)) else none
  | 0xC1 => if w.extractLsb' 30 2 = 2 ∧ w.extractLsb' 1 2 = 0 then some (.smrg (w.getLsbD 21) (w.extractLsb' 15 6) (w.extractLsb' 9 6) (w.extractLsb' 3 6) (w.extractLsb' 0 1)) else none
  | 0xC2 => if w.extractLsb' 30 2 = 2 ∧ w.extractLsb' 1 8 = 0 then some (.skey (w.getLsbD 21) (w.extractLsb' 15 6) (w.extractLsb' 9 6) (w.extractLsb' 0 1)) else none
  | 0xC3 => if w.extractLsb' 30 2 = 2 ∧ w.extractLsb' 0 3 = 0 then some (.stopk (w.getLsbD 21) (w.extractLsb' 15 6) (w.extractLsb' 9 6) (w.extractLsb' 3 6)) else none
  | 0xC4 => if w.extractLsb' 30 2 = 2 ∧ w.extractLsb' 1 2 = 0 then some (.spay (w.getLsbD 21) (w.extractLsb' 15 6) (w.extractLsb' 9 6) (w.extractLsb' 3 6) (w.extractLsb' 0 1)) else none
  | _ => none

/-- The CUBE private half (R51). Every other OP is reserved. -/
def decodeCube (w : W32) : Option Instr :=
  match opOf w with
  | 0x80 => if w.extractLsb' 30 2 = 2 ∧ w.extractLsb' 0 22 = 0 then some (.clease) else none
  | 0x81 => if w.extractLsb' 30 2 = 2 ∧ w.extractLsb' 0 22 = 0 then some (.crel) else none
  | 0x82 => if w.extractLsb' 30 2 = 2 then some (.ccfg (w.extractLsb' 16 6) (w.extractLsb' 0 16)) else none
  | 0x83 => if w.extractLsb' 30 2 = 2 ∧ w.extractLsb' 0 1 = 0 then some (.tri (w.extractLsb' 15 7) (w.extractLsb' 8 7) (w.extractLsb' 1 7)) else none
  | 0x84 => if w.extractLsb' 30 2 = 2 ∧ w.extractLsb' 0 8 = 0 then some (.mma (w.extractLsb' 15 7) (w.extractLsb' 8 7)) else none
  | 0x85 => if w.extractLsb' 30 2 = 2 ∧ w.extractLsb' 0 22 = 0 then some (.accz) else none
  | 0x86 => if w.extractLsb' 30 2 = 2 ∧ w.extractLsb' 0 15 = 0 then some (.accst (w.extractLsb' 15 7)) else none
  | 0x87 => if w.extractLsb' 30 2 = 2 ∧ w.extractLsb' 0 15 = 0 then some (.tzero (w.extractLsb' 15 7)) else none
  | 0x88 => if w.extractLsb' 30 2 = 2 ∧ w.extractLsb' 14 1 = 0 ∧ w.extractLsb' 0 8 = 0 then some (.tshape (w.extractLsb' 15 7) (w.extractLsb' 8 6)) else none
  | 0x89 => if w.extractLsb' 30 2 = 1 ∧ w.extractLsb' 14 1 = 0 ∧ w.extractLsb' 7 1 = 0 ∧ w.extractLsb' 0 1 = 0 then some (.tld (w.extractLsb' 15 7) (w.extractLsb' 8 6) (w.extractLsb' 1 6)) else none
  | 0x8A => if w.extractLsb' 30 2 = 1 ∧ w.extractLsb' 14 1 = 0 ∧ w.extractLsb' 7 1 = 0 ∧ w.extractLsb' 0 1 = 0 then some (.tst (w.extractLsb' 15 7) (w.extractLsb' 8 6) (w.extractLsb' 1 6)) else none
  | 0x8B => if w.extractLsb' 30 2 = 2 ∧ w.extractLsb' 0 8 = 0 then some (.tcvt (w.extractLsb' 15 7) (w.extractLsb' 8 7)) else none
  | 0x8C => if w.extractLsb' 30 2 = 2 ∧ w.extractLsb' 0 1 = 0 then some (.teadd (w.extractLsb' 15 7) (w.extractLsb' 8 7) (w.extractLsb' 1 7)) else none
  | 0x8D => if w.extractLsb' 30 2 = 2 ∧ w.extractLsb' 0 1 = 0 then some (.temul (w.extractLsb' 15 7) (w.extractLsb' 8 7) (w.extractLsb' 1 7)) else none
  | 0x8E => if w.extractLsb' 30 2 = 2 ∧ w.extractLsb' 0 1 = 0 then some (.temax (w.extractLsb' 15 7) (w.extractLsb' 8 7) (w.extractLsb' 1 7)) else none
  | 0x8F => if w.extractLsb' 30 2 = 2 ∧ w.extractLsb' 0 1 = 0 then some (.tesub (w.extractLsb' 15 7) (w.extractLsb' 8 7) (w.extractLsb' 1 7)) else none
  | 0x90 => if w.extractLsb' 30 2 = 2 ∧ w.extractLsb' 7 1 = 0 ∧ w.extractLsb' 0 1 = 0 then some (.tred (w.extractLsb' 15 7) (w.extractLsb' 8 7) (w.extractLsb' 1 6)) else none
  | 0x91 => if w.extractLsb' 30 2 = 2 ∧ w.extractLsb' 14 8 = 0 ∧ w.extractLsb' 0 8 = 0 then some (.tix (w.extractLsb' 8 6)) else none
  | 0x92 => if w.extractLsb' 30 2 = 2 ∧ w.extractLsb' 0 22 = 0 then some (.cwait) else none
  | 0x93 => if w.extractLsb' 30 2 = 2 ∧ w.extractLsb' 0 8 = 0 then some (.tbcast (w.extractLsb' 15 7) (w.extractLsb' 8 7)) else none
  | _ => none

/-- The MEM private half (R52). Every other OP is reserved. -/
def decodeMem (w : W32) : Option Instr :=
  match opOf w with
  | 0x80 => if w.extractLsb' 30 2 = 2 ∧ w.extractLsb' 15 7 = 0 ∧ w.extractLsb' 0 3 = 0 then some (.mrowz (w.extractLsb' 9 6) (w.extractLsb' 3 6)) else none
  | 0x81 => if w.extractLsb' 30 2 = 2 ∧ w.extractLsb' 21 1 = 0 ∧ w.extractLsb' 0 3 = 0 then some (.mrowc (w.extractLsb' 15 6) (w.extractLsb' 9 6) (w.extractLsb' 3 6)) else none
  | 0x82 => if w.extractLsb' 30 2 = 2 ∧ w.extractLsb' 0 9 = 0 then some (.mloc (w.getLsbD 21) (w.extractLsb' 15 6) (w.extractLsb' 9 6)) else none
  | 0x83 => if w.extractLsb' 30 2 = 2 ∧ w.extractLsb' 15 7 = 0 then some (.minv (w.extractLsb' 9 6) (w.extractLsb' 3 6) (w.extractLsb' 0 3)) else none
  | 0x84 => if w.extractLsb' 30 2 = 2 ∧ w.extractLsb' 0 9 = 0 then some (.mcomp (w.getLsbD 21) (w.extractLsb' 15 6) (w.extractLsb' 9 6)) else none
  | 0x85 => if w.extractLsb' 30 2 = 2 ∧ w.extractLsb' 0 3 = 0 then some (.mexpd (w.getLsbD 21) (w.extractLsb' 15 6) (w.extractLsb' 9 6) (w.extractLsb' 3 6)) else none
  | 0x86 => if w.extractLsb' 30 2 = 2 ∧ w.extractLsb' 0 3 = 0 then some (.mscrb (w.getLsbD 21) (w.extractLsb' 15 6) (w.extractLsb' 9 6) (w.extractLsb' 3 6)) else none
  | 0x87 => if w.extractLsb' 30 2 = 2 ∧ w.extractLsb' 3 6 = 0 then some (.mmig (w.getLsbD 21) (w.extractLsb' 15 6) (w.extractLsb' 9 6) (w.extractLsb' 0 3)) else none
  | 0x88 => if w.extractLsb' 30 2 = 2 then some (.mred (w.getLsbD 21) (w.extractLsb' 15 6) (w.extractLsb' 9 6) (w.extractLsb' 3 6) (w.extractLsb' 0 3)) else none
  | 0x89 => if w.extractLsb' 30 2 = 2 ∧ w.extractLsb' 21 1 = 0 ∧ w.extractLsb' 0 3 = 0 then some (.mfill (w.extractLsb' 15 6) (w.extractLsb' 9 6) (w.extractLsb' 3 6)) else none
  | 0x8A => if w.extractLsb' 30 2 = 2 ∧ w.extractLsb' 3 12 = 0 then some (.mstat (w.getLsbD 21) (w.extractLsb' 15 6) (w.extractLsb' 0 3)) else none
  | _ => none

/-- The DROVER private half (R52). Every other OP is reserved. -/
def decodeDrover (w : W32) : Option Instr :=
  match opOf w with
  | 0x80 => if w.extractLsb' 30 2 = 2 ∧ w.extractLsb' 0 3 = 0 then some (.rfetch (w.getLsbD 21) (w.extractLsb' 15 6) (w.extractLsb' 9 6) (w.extractLsb' 3 6)) else none
  | 0x81 => if w.extractLsb' 30 2 = 2 ∧ w.extractLsb' 3 6 = 0 then some (.bfxm (w.getLsbD 21) (w.extractLsb' 15 6) (w.extractLsb' 9 6) (w.extractLsb' 0 3)) else none
  | 0x82 => if w.extractLsb' 30 2 = 2 ∧ w.extractLsb' 0 3 = 0 then some (.swait (w.getLsbD 21) (w.extractLsb' 15 6) (w.extractLsb' 9 6) (w.extractLsb' 3 6)) else none
  | 0x83 => if w.extractLsb' 30 2 = 2 ∧ w.extractLsb' 0 3 = 0 then some (.disp (w.getLsbD 21) (w.extractLsb' 15 6) (w.extractLsb' 9 6) (w.extractLsb' 3 6)) else none
  | 0x84 => if w.extractLsb' 30 2 = 2 ∧ w.extractLsb' 0 9 = 0 then some (.qsave (w.getLsbD 21) (w.extractLsb' 15 6) (w.extractLsb' 9 6)) else none
  | 0x85 => if w.extractLsb' 30 2 = 2 ∧ w.extractLsb' 0 3 = 0 then some (.qload (w.getLsbD 21) (w.extractLsb' 15 6) (w.extractLsb' 9 6) (w.extractLsb' 3 6)) else none
  | 0x86 => if w.extractLsb' 30 2 = 2 ∧ w.extractLsb' 0 9 = 0 then some (.gdec (w.getLsbD 21) (w.extractLsb' 15 6) (w.extractLsb' 9 6)) else none
  | 0x87 => if w.extractLsb' 30 2 = 2 ∧ w.extractLsb' 0 3 = 0 then some (.glnch (w.getLsbD 21) (w.extractLsb' 15 6) (w.extractLsb' 9 6) (w.extractLsb' 3 6)) else none
  | 0x88 => if w.extractLsb' 30 2 = 2 ∧ w.extractLsb' 0 3 = 0 then some (.brnew (w.getLsbD 21) (w.extractLsb' 15 6) (w.extractLsb' 9 6) (w.extractLsb' 3 6)) else none
  | 0x89 => if w.extractLsb' 30 2 = 2 ∧ w.extractLsb' 0 9 = 0 then some (.brfree (w.getLsbD 21) (w.extractLsb' 15 6) (w.extractLsb' 9 6)) else none
  | 0x8A => if w.extractLsb' 30 2 = 2 then some (.flknew (w.getLsbD 21) (w.extractLsb' 15 6) (w.extractLsb' 9 6) (w.extractLsb' 3 6) (w.extractLsb' 0 3)) else none
  | 0x8B => if w.extractLsb' 30 2 = 2 ∧ w.extractLsb' 0 9 = 0 then some (.fltpop (w.getLsbD 21) (w.extractLsb' 15 6) (w.extractLsb' 9 6)) else none
  | 0x8C => if w.extractLsb' 30 2 = 2 ∧ w.extractLsb' 0 9 = 0 then some (.resume (w.getLsbD 21) (w.extractLsb' 15 6) (w.extractLsb' 9 6)) else none
  | 0x8D => if w.extractLsb' 30 2 = 2 ∧ w.extractLsb' 0 9 = 0 then some (.kill (w.getLsbD 21) (w.extractLsb' 15 6) (w.extractLsb' 9 6)) else none
  | 0x8E => if w.extractLsb' 30 2 = 2 ∧ w.extractLsb' 3 6 = 0 then some (.qmap (w.getLsbD 21) (w.extractLsb' 15 6) (w.extractLsb' 9 6) (w.extractLsb' 0 3)) else none
  | 0x8F => if w.extractLsb' 30 2 = 2 then some (.prio (w.getLsbD 21) (w.extractLsb' 15 6) (w.extractLsb' 9 6) (w.extractLsb' 3 6) (w.extractLsb' 0 3)) else none
  | _ => none

/-- The instruction that a core of class `k` reads from a word (R41, R42, R47 to R52); none where the word raises `ILLEGAL` for
its encoding (R53). Where the two halves meet, bit 7 of OP decides. -/
def decode (k : Cls) (w : W32) : Option Instr :=
  if opOf w < 0x80 then decodeCommon w
  else match k with
    | .vec => if opOf w < 0xC0 then decodeVector w else decodeVec w
    | .sparse => if opOf w < 0xC0 then decodeVector w else decodeSparse w
    | .sort => if opOf w < 0xC0 then decodeVector w else decodeSort w
    | .cube => decodeCube w
    | .mem => decodeMem w
    | .drover => decodeDrover w

/-- The class whose text an instruction's word stands in, for the words of a private half; VEC for the words that every class
(or every vector class) shares (R42, R47 to R52). -/
def classOf : Instr → Cls
  | .mpath .. => .sparse
  | .csrw .. => .sparse
  | .segsum .. => .sparse
  | .segcar .. => .sparse
  | .vgathx .. => .sparse
  | .sbit .. => .sort
  | .smrg .. => .sort
  | .skey .. => .sort
  | .stopk .. => .sort
  | .spay .. => .sort
  | .clease .. => .cube
  | .crel .. => .cube
  | .ccfg .. => .cube
  | .tri .. => .cube
  | .mma .. => .cube
  | .accz .. => .cube
  | .accst .. => .cube
  | .tzero .. => .cube
  | .tshape .. => .cube
  | .tld .. => .cube
  | .tst .. => .cube
  | .tcvt .. => .cube
  | .teadd .. => .cube
  | .temul .. => .cube
  | .temax .. => .cube
  | .tesub .. => .cube
  | .tred .. => .cube
  | .tix .. => .cube
  | .cwait .. => .cube
  | .tbcast .. => .cube
  | .mrowz .. => .mem
  | .mrowc .. => .mem
  | .mloc .. => .mem
  | .minv .. => .mem
  | .mcomp .. => .mem
  | .mexpd .. => .mem
  | .mscrb .. => .mem
  | .mmig .. => .mem
  | .mred .. => .mem
  | .mfill .. => .mem
  | .mstat .. => .mem
  | .rfetch .. => .drover
  | .bfxm .. => .drover
  | .swait .. => .drover
  | .disp .. => .drover
  | .qsave .. => .drover
  | .qload .. => .drover
  | .gdec .. => .drover
  | .glnch .. => .drover
  | .brnew .. => .drover
  | .brfree .. => .drover
  | .flknew .. => .drover
  | .fltpop .. => .drover
  | .resume .. => .drover
  | .kill .. => .drover
  | .qmap .. => .drover
  | .prio .. => .drover
  | _ => .vec

/-- The word of an instruction (R41 to R52); the part's own steps have none. -/
def encode : Instr → Option W32
  | .nop t => some (tagBits t ++ 0x00#8 ++ 0#22)
  | .add t d r a b f => some (tagBits t ++ 0x01#8 ++ BitVec.ofBool d ++ r ++ a ++ b ++ f)
  | .addi t d r a i => some (tagBits t ++ 0x02#8 ++ BitVec.ofBool d ++ r ++ a ++ i)
  | .sub t d r a b f => some (tagBits t ++ 0x03#8 ++ BitVec.ofBool d ++ r ++ a ++ b ++ f)
  | .mul t d r a b f => some (tagBits t ++ 0x04#8 ++ BitVec.ofBool d ++ r ++ a ++ b ++ f)
  | .div t d r a b f => some (tagBits t ++ 0x05#8 ++ BitVec.ofBool d ++ r ++ a ++ b ++ f)
  | .andK t d r a b => some (tagBits t ++ 0x06#8 ++ BitVec.ofBool d ++ r ++ a ++ b ++ 0#3)
  | .andi t d r a i => some (tagBits t ++ 0x07#8 ++ BitVec.ofBool d ++ r ++ a ++ i)
  | .orK t d r a b => some (tagBits t ++ 0x08#8 ++ BitVec.ofBool d ++ r ++ a ++ b ++ 0#3)
  | .ori t d r a i => some (tagBits t ++ 0x09#8 ++ BitVec.ofBool d ++ r ++ a ++ i)
  | .xorK t d r a b => some (tagBits t ++ 0x0A#8 ++ BitVec.ofBool d ++ r ++ a ++ b ++ 0#3)
  | .xori t d r a i => some (tagBits t ++ 0x0B#8 ++ BitVec.ofBool d ++ r ++ a ++ i)
  | .shl t d r a b => some (tagBits t ++ 0x0C#8 ++ BitVec.ofBool d ++ r ++ a ++ b ++ 0#3)
  | .shli t d r a i => some (tagBits t ++ 0x0D#8 ++ BitVec.ofBool d ++ r ++ a ++ i)
  | .shr t d r a b => some (tagBits t ++ 0x0E#8 ++ BitVec.ofBool d ++ r ++ a ++ b ++ 0#3)
  | .shri t d r a i => some (tagBits t ++ 0x0F#8 ++ BitVec.ofBool d ++ r ++ a ++ i)
  | .sra t d r a b => some (tagBits t ++ 0x10#8 ++ BitVec.ofBool d ++ r ++ a ++ b ++ 0#3)
  | .srai t d r a i => some (tagBits t ++ 0x11#8 ++ BitVec.ofBool d ++ r ++ a ++ i)
  | .minK t d r a b f => some (tagBits t ++ 0x12#8 ++ BitVec.ofBool d ++ r ++ a ++ b ++ f)
  | .maxK t d r a b f => some (tagBits t ++ 0x13#8 ++ BitVec.ofBool d ++ r ++ a ++ b ++ f)
  | .cmp t d p a b k => some (tagBits t ++ 0x14#8 ++ BitVec.ofBool d ++ 0#3 ++ p ++ a ++ b ++ k)
  | .cmpi t d k p a i => some (tagBits t ++ 0x15#8 ++ BitVec.ofBool d ++ k ++ p ++ a ++ i)
  | .sel t d r a b f => some (tagBits t ++ 0x16#8 ++ BitVec.ofBool d ++ r ++ a ++ b ++ f)
  | .li t r i => some (tagBits t ++ 0x17#8 ++ r ++ i)
  | .lsi t r i => some (tagBits t ++ 0x18#8 ++ r ++ i)
  | .bfx t d r a b f => some (tagBits t ++ 0x19#8 ++ BitVec.ofBool d ++ r ++ a ++ b ++ f)
  | .bfi t d r a b => some (tagBits t ++ 0x1A#8 ++ BitVec.ofBool d ++ r ++ a ++ b ++ 0#3)
  | .bitc t d r a f => some (tagBits t ++ 0x1B#8 ++ BitVec.ofBool d ++ r ++ a ++ 0#6 ++ f)
  | .plog t d r a b f => some (tagBits t ++ 0x1C#8 ++ BitVec.ofBool d ++ 0#3 ++ r ++ 0#3 ++ a ++ 0#3 ++ b ++ f)
  | .pmov t d r a f => some (tagBits t ++ 0x1D#8 ++ BitVec.ofBool d ++ r ++ a ++ 0#6 ++ f)
  | .fadd t d r a b f => some (0#1 ++ tagLow t ++ 0x20#8 ++ BitVec.ofBool d ++ r ++ a ++ b ++ f)
  | .fmul t d r a b f => some (0#1 ++ tagLow t ++ 0x21#8 ++ BitVec.ofBool d ++ r ++ a ++ b ++ f)
  | .ffma t d r a b f => some (0#1 ++ tagLow t ++ 0x22#8 ++ BitVec.ofBool d ++ r ++ a ++ b ++ f)
  | .fmnx t d r a b f => some (0#1 ++ tagLow t ++ 0x23#8 ++ BitVec.ofBool d ++ r ++ a ++ b ++ f)
  | .fcmp t d p a b f => some (0#1 ++ tagLow t ++ 0x24#8 ++ BitVec.ofBool d ++ 0#3 ++ p ++ a ++ b ++ f)
  | .fcvt t d r a f => some (0#1 ++ tagLow t ++ 0x25#8 ++ BitVec.ofBool d ++ r ++ a ++ 0#6 ++ f)
  | .br t c i => some (tagBits t ++ 0x30#8 ++ c ++ i)
  | .call t i => some (tagBits t ++ 0x31#8 ++ 7#4 ++ i)
  | .ret t => some (tagBits t ++ 0x32#8 ++ 0#22)
  | .jmpr t a => some (tagBits t ++ 0x33#8 ++ 0#7 ++ a ++ 0#9)
  | .loop l a i => some (3#2 ++ 0x34#8 ++ l ++ a ++ i)
  | .lbrk c l => some (3#2 ++ 0x35#8 ++ c ++ l ++ 0#16)
  | .lcnt t d r f => some (tagBits t ++ 0x36#8 ++ BitVec.ofBool d ++ r ++ 0#12 ++ f)
  | .slip i => some (3#2 ++ 0x37#8 ++ 0#12 ++ i)
  | .push t a q => some (tagBits t ++ 0x38#8 ++ a ++ 0#6 ++ q)
  | .pop t a q => some (tagBits t ++ 0x39#8 ++ a ++ 0#6 ++ q)
  | .align t => some (tagBits t ++ 0x3A#8 ++ 0#22)
  | .fmtc t i => some (1#1 ++ tagLow t ++ 0x3B#8 ++ 0#12 ++ i)
  | .time t r i => some (tagBits t ++ 0x3C#8 ++ r ++ 0#6 ++ i)
  | .waitt t a i => some (tagBits t ++ 0x3D#8 ++ a ++ 0#6 ++ i)
  | .exit => some (3#2 ++ 0x3E#8 ++ 0#22)
  | .trap t a i => some (tagBits t ++ 0x3F#8 ++ a ++ 0#6 ++ i)
  | .ldb t d r a p o => some (tagBits t ++ 0x40#8 ++ BitVec.ofBool d ++ r ++ a ++ p ++ o)
  | .ldh t d r a p o => some (tagBits t ++ 0x41#8 ++ BitVec.ofBool d ++ r ++ a ++ p ++ o)
  | .ldw t d r a p o => some (tagBits t ++ 0x42#8 ++ BitVec.ofBool d ++ r ++ a ++ p ++ o)
  | .ldd t d r a p o => some (tagBits t ++ 0x43#8 ++ BitVec.ofBool d ++ r ++ a ++ p ++ o)
  | .ldbz t d r a p o => some (tagBits t ++ 0x44#8 ++ BitVec.ofBool d ++ r ++ a ++ p ++ o)
  | .ldhz t d r a p o => some (tagBits t ++ 0x45#8 ++ BitVec.ofBool d ++ r ++ a ++ p ++ o)
  | .ldwz t d r a p o => some (tagBits t ++ 0x46#8 ++ BitVec.ofBool d ++ r ++ a ++ p ++ o)
  | .stb t d v a p o => some (tagBits t ++ 0x48#8 ++ BitVec.ofBool d ++ v ++ a ++ p ++ o)
  | .sth t d v a p o => some (tagBits t ++ 0x49#8 ++ BitVec.ofBool d ++ v ++ a ++ p ++ o)
  | .stw t d v a p o => some (tagBits t ++ 0x4A#8 ++ BitVec.ofBool d ++ v ++ a ++ p ++ o)
  | .std t d v a p o => some (tagBits t ++ 0x4B#8 ++ BitVec.ofBool d ++ v ++ a ++ p ++ o)
  | .ldf t d r a p o => some (0#1 ++ tagLow t ++ 0x4C#8 ++ BitVec.ofBool d ++ r ++ a ++ p ++ o)
  | .stf t d v a p o => some (0#1 ++ tagLow t ++ 0x4D#8 ++ BitVec.ofBool d ++ v ++ a ++ p ++ o)
  | .fefill t d r a b f => some (0#1 ++ tagLow t ++ 0x4E#8 ++ BitVec.ofBool d ++ r ++ a ++ b ++ f)
  | .cpy t r a b f => some (tagBits t ++ 0x50#8 ++ 0#1 ++ r ++ a ++ b ++ f)
  | .cpyw t a i => some (tagBits t ++ 0x51#8 ++ a ++ 0#6 ++ i)
  | .cpys t r a => some (tagBits t ++ 0x52#8 ++ r ++ a ++ 0#10)
  | .amo t d r a b f => some (tagBits t ++ 0x54#8 ++ BitVec.ofBool d ++ r ++ a ++ b ++ f)
  | .amow t d r a b f => some (tagBits t ++ 0x55#8 ++ BitVec.ofBool d ++ r ++ a ++ b ++ f)
  | .cas t r a b => some (tagBits t ++ 0x56#8 ++ 0#1 ++ r ++ a ++ b ++ 0#3)
  | .casw t r a b => some (tagBits t ++ 0x57#8 ++ 0#1 ++ r ++ a ++ b ++ 0#3)
  | .amof t d r a b f => some (tagBits t ++ 0x58#8 ++ BitVec.ofBool d ++ r ++ a ++ b ++ f)
  | .fence t k s => some (tagBits t ++ 0x59#8 ++ 0#17 ++ k ++ s)
  | .xfence t m n s => some (tagBits t ++ 0x5A#8 ++ m ++ n ++ 0#7 ++ s)
  | .pref t d a p o => some (tagBits t ++ 0x5B#8 ++ BitVec.ofBool d ++ 0#6 ++ a ++ p ++ o)
  | .fjoin a i => some (3#2 ++ 0x60#8 ++ a ++ 0#6 ++ i)
  | .fleave => some (3#2 ++ 0x61#8 ++ 0#22)
  | .fbar a => some (3#2 ++ 0x62#8 ++ a ++ 0#16)
  | .fred d r a f => some (0#2 ++ 0x63#8 ++ BitVec.ofBool d ++ r ++ a ++ 0#6 ++ f)
  | .xph => some (3#2 ++ 0x64#8 ++ 0#22)
  | .xmit a i c => some (2#2 ++ 0x65#8 ++ a ++ 0#6 ++ i ++ c)
  | .msel r i c => some (2#2 ++ 0x66#8 ++ r ++ 0#6 ++ i ++ c)
  | .xend => some (3#2 ++ 0x67#8 ++ 0#22)
  | .bopen d r a => some (0#2 ++ 0x68#8 ++ BitVec.ofBool d ++ r ++ 0#2 ++ a ++ 0#9)
  | .bgive a i => some (0#2 ++ 0x69#8 ++ 0#2 ++ a ++ 0#13 ++ i)
  | .bdup a b i => some (0#2 ++ 0x6A#8 ++ 0#2 ++ a ++ 0#2 ++ b ++ 0#4 ++ i)
  | .bdrop a => some (0#2 ++ 0x6B#8 ++ 0#2 ++ a ++ 0#16)
  | .binfo d r a f => some (0#2 ++ 0x6C#8 ++ BitVec.ofBool d ++ r ++ 0#2 ++ a ++ 0#6 ++ f)
  | .nparam t d r i => some (tagBits t ++ 0x6D#8 ++ BitVec.ofBool d ++ r ++ 0#6 ++ i)
  | .inst t d r f => some (tagBits t ++ 0x6E#8 ++ BitVec.ofBool d ++ r ++ 0#12 ++ f)
  | .signal a b i => some (0#2 ++ 0x6F#8 ++ a ++ b ++ i)
  | .cfr t r i => some (tagBits t ++ 0x70#8 ++ r ++ 0#6 ++ i)
  | .cfw t a i => some (tagBits t ++ 0x71#8 ++ a ++ 0#6 ++ i)
  | .halt => some (0#2 ++ 0x72#8 ++ 0#22)
  | .tlbi a b i => some (0#2 ++ 0x73#8 ++ a ++ b ++ i)
  | .eret => some (0#2 ++ 0x74#8 ++ 0#22)
  | .vadd d r a b s => some (2#2 ++ 0x80#8 ++ BitVec.ofBool d ++ r ++ a ++ b ++ s)
  | .vsub d r a b s => some (2#2 ++ 0x81#8 ++ BitVec.ofBool d ++ r ++ a ++ b ++ s)
  | .vmul d r a b s => some (2#2 ++ 0x82#8 ++ BitVec.ofBool d ++ r ++ a ++ b ++ s)
  | .vfma d r a b s => some (2#2 ++ 0x83#8 ++ BitVec.ofBool d ++ r ++ a ++ b ++ s)
  | .vfnma d r a b s => some (2#2 ++ 0x84#8 ++ BitVec.ofBool d ++ r ++ a ++ b ++ s)
  | .vmin d r a b s => some (2#2 ++ 0x85#8 ++ BitVec.ofBool d ++ r ++ a ++ b ++ s)
  | .vmax d r a b s => some (2#2 ++ 0x86#8 ++ BitVec.ofBool d ++ r ++ a ++ b ++ s)
  | .vuna d r a b s => some (2#2 ++ 0x87#8 ++ BitVec.ofBool d ++ r ++ a ++ b ++ s)
  | .vcmp d k m a b s => some (2#2 ++ 0x88#8 ++ BitVec.ofBool d ++ k ++ m ++ a ++ b ++ s)
  | .vsel d r a b => some (2#2 ++ 0x89#8 ++ BitVec.ofBool d ++ r ++ a ++ b ++ 0#3)
  | .vcvt d r a b s => some (2#2 ++ 0x8A#8 ++ BitVec.ofBool d ++ r ++ a ++ b ++ s)
  | .vrcp d r a s => some (2#2 ++ 0x8B#8 ++ BitVec.ofBool d ++ r ++ a ++ 0#6 ++ s)
  | .vrsq d r a s => some (2#2 ++ 0x8C#8 ++ BitVec.ofBool d ++ r ++ a ++ 0#6 ++ s)
  | .vexp2 d r a s => some (2#2 ++ 0x8D#8 ++ BitVec.ofBool d ++ r ++ a ++ 0#6 ++ s)
  | .vlog2 d r a s => some (2#2 ++ 0x8E#8 ++ BitVec.ofBool d ++ r ++ a ++ 0#6 ++ s)
  | .vscl2 d r a b s => some (2#2 ++ 0x8F#8 ++ BitVec.ofBool d ++ r ++ a ++ b ++ s)
  | .vdot d r a b s => some (2#2 ++ 0x90#8 ++ BitVec.ofBool d ++ r ++ a ++ b ++ s)
  | .vdota d r a b s => some (2#2 ++ 0x91#8 ++ BitVec.ofBool d ++ r ++ a ++ b ++ s)
  | .vrsum d r a s => some (2#2 ++ 0x92#8 ++ BitVec.ofBool d ++ r ++ a ++ 0#6 ++ s)
  | .vrmax d r a s => some (2#2 ++ 0x93#8 ++ BitVec.ofBool d ++ r ++ a ++ 0#6 ++ s)
  | .vscan d r a s => some (2#2 ++ 0x94#8 ++ BitVec.ofBool d ++ r ++ a ++ 0#6 ++ s)
  | .vperm d r a b => some (2#2 ++ 0x95#8 ++ BitVec.ofBool d ++ r ++ a ++ b ++ 0#3)
  | .vrot d r a b => some (2#2 ++ 0x96#8 ++ BitVec.ofBool d ++ r ++ a ++ b ++ 0#3)
  | .vbcast d r a b => some (2#2 ++ 0x97#8 ++ BitVec.ofBool d ++ r ++ a ++ b ++ 0#3)
  | .viadd d r a b s => some (2#2 ++ 0x98#8 ++ BitVec.ofBool d ++ r ++ a ++ b ++ s)
  | .visub d r a b s => some (2#2 ++ 0x99#8 ++ BitVec.ofBool d ++ r ++ a ++ b ++ s)
  | .vimul d r a b s => some (2#2 ++ 0x9A#8 ++ BitVec.ofBool d ++ r ++ a ++ b ++ s)
  | .vand d r a b => some (2#2 ++ 0x9B#8 ++ BitVec.ofBool d ++ r ++ a ++ b ++ 0#3)
  | .vor d r a b => some (2#2 ++ 0x9C#8 ++ BitVec.ofBool d ++ r ++ a ++ b ++ 0#3)
  | .vxor d r a b => some (2#2 ++ 0x9D#8 ++ BitVec.ofBool d ++ r ++ a ++ b ++ 0#3)
  | .vshl d r a b s => some (2#2 ++ 0x9E#8 ++ BitVec.ofBool d ++ r ++ a ++ b ++ s)
  | .vshr d r a b s => some (2#2 ++ 0x9F#8 ++ BitVec.ofBool d ++ r ++ a ++ b ++ s)
  | .vsra d r a b s => some (2#2 ++ 0xA0#8 ++ BitVec.ofBool d ++ r ++ a ++ b ++ s)
  | .vimnx d r a b s => some (2#2 ++ 0xA1#8 ++ BitVec.ofBool d ++ r ++ a ++ b ++ s)
  | .vicmp d k m a b s => some (2#2 ++ 0xA2#8 ++ BitVec.ofBool d ++ k ++ m ++ a ++ b ++ s)
  | .vpack d r a b s => some (2#2 ++ 0xA3#8 ++ BitVec.ofBool d ++ r ++ a ++ b ++ s)
  | .vunpk d r a b s => some (2#2 ++ 0xA4#8 ++ BitVec.ofBool d ++ r ++ a ++ b ++ s)
  | .ldv d a p o => some (1#2 ++ 0xA5#8 ++ BitVec.ofBool d ++ 63#6 ++ a ++ p ++ o)
  | .stv a p o => some (1#2 ++ 0xA6#8 ++ 127#7 ++ a ++ p ++ o)
  | .vgath d r a b => some (2#2 ++ 0xA8#8 ++ BitVec.ofBool d ++ r ++ a ++ b ++ 0#3)
  | .vscat r a b => some (2#2 ++ 0xA9#8 ++ 0#1 ++ r ++ a ++ b ++ 0#3)
  | .vmset m => some (2#2 ++ 0xAA#8 ++ 0#4 ++ m ++ 0#15)
  | .vmlog d m a b f => some (2#2 ++ 0xAB#8 ++ BitVec.ofBool d ++ 0#3 ++ m ++ a ++ b ++ f)
  | .vmov d r a => some (2#2 ++ 0xAC#8 ++ BitVec.ofBool d ++ r ++ a ++ 0#9)
  | .viota d r a b => some (2#2 ++ 0xAD#8 ++ BitVec.ofBool d ++ r ++ a ++ b ++ 0#3)
  | .vext a b => some (2#2 ++ 0xAE#8 ++ 0#7 ++ a ++ b ++ 0#3)
  | .vins d r a b => some (2#2 ++ 0xAF#8 ++ BitVec.ofBool d ++ r ++ a ++ b ++ 0#3)
  | .pset p a g m => some (1#2 ++ 0xB0#8 ++ p ++ a ++ g ++ m)
  | .pgo p => some (1#2 ++ 0xB1#8 ++ p ++ 0#19)
  | .phalt p => some (1#2 ++ 0xB2#8 ++ p ++ 0#19)
  | .pstat p r => some (1#2 ++ 0xB3#8 ++ p ++ r ++ 0#13)
  | .vqnt d r a b s => some (2#2 ++ 0xC0#8 ++ BitVec.ofBool d ++ r ++ a ++ b ++ s)
  | .vdqnt d r a b s => some (2#2 ++ 0xC1#8 ++ BitVec.ofBool d ++ r ++ a ++ b ++ s)
  | .mpath d r a b => some (2#2 ++ 0xC0#8 ++ BitVec.ofBool d ++ r ++ a ++ b ++ 0#3)
  | .csrw p a g w o => some (1#2 ++ 0xC1#8 ++ p ++ a ++ g ++ 0#4 ++ w ++ o)
  | .segsum d r a b s => some (2#2 ++ 0xC2#8 ++ BitVec.ofBool d ++ r ++ a ++ b ++ s)
  | .segcar d r a b => some (2#2 ++ 0xC3#8 ++ BitVec.ofBool d ++ r ++ a ++ b ++ 0#3)
  | .vgathx d r a b => some (2#2 ++ 0xC4#8 ++ BitVec.ofBool d ++ r ++ a ++ b ++ 0#3)
  | .sbit d r a f => some (2#2 ++ 0xC0#8 ++ BitVec.ofBool d ++ r ++ a ++ 0#8 ++ f)
  | .smrg d r a b f => some (2#2 ++ 0xC1#8 ++ BitVec.ofBool d ++ r ++ a ++ b ++ 0#2 ++ f)
  | .skey d r a f => some (2#2 ++ 0xC2#8 ++ BitVec.ofBool d ++ r ++ a ++ 0#8 ++ f)
  | .stopk d r a b => some (2#2 ++ 0xC3#8 ++ BitVec.ofBool d ++ r ++ a ++ b ++ 0#3)
  | .spay d r a b f => some (2#2 ++ 0xC4#8 ++ BitVec.ofBool d ++ r ++ a ++ b ++ 0#2 ++ f)
  | .clease => some (2#2 ++ 0x80#8 ++ 0#22)
  | .crel => some (2#2 ++ 0x81#8 ++ 0#22)
  | .ccfg f v => some (2#2 ++ 0x82#8 ++ f ++ v)
  | .tri a b g => some (2#2 ++ 0x83#8 ++ a ++ b ++ g ++ 0#1)
  | .mma a b => some (2#2 ++ 0x84#8 ++ a ++ b ++ 0#8)
  | .accz => some (2#2 ++ 0x85#8 ++ 0#22)
  | .accst a => some (2#2 ++ 0x86#8 ++ a ++ 0#15)
  | .tzero a => some (2#2 ++ 0x87#8 ++ a ++ 0#15)
  | .tshape a b => some (2#2 ++ 0x88#8 ++ a ++ 0#1 ++ b ++ 0#8)
  | .tld a b g => some (1#2 ++ 0x89#8 ++ a ++ 0#1 ++ b ++ 0#1 ++ g ++ 0#1)
  | .tst a b g => some (1#2 ++ 0x8A#8 ++ a ++ 0#1 ++ b ++ 0#1 ++ g ++ 0#1)
  | .tcvt a b => some (2#2 ++ 0x8B#8 ++ a ++ b ++ 0#8)
  | .teadd a b g => some (2#2 ++ 0x8C#8 ++ a ++ b ++ g ++ 0#1)
  | .temul a b g => some (2#2 ++ 0x8D#8 ++ a ++ b ++ g ++ 0#1)
  | .temax a b g => some (2#2 ++ 0x8E#8 ++ a ++ b ++ g ++ 0#1)
  | .tesub a b g => some (2#2 ++ 0x8F#8 ++ a ++ b ++ g ++ 0#1)
  | .tred a b g => some (2#2 ++ 0x90#8 ++ a ++ b ++ 0#1 ++ g ++ 0#1)
  | .tix b => some (2#2 ++ 0x91#8 ++ 0#8 ++ b ++ 0#8)
  | .cwait => some (2#2 ++ 0x92#8 ++ 0#22)
  | .tbcast a b => some (2#2 ++ 0x93#8 ++ a ++ b ++ 0#8)
  | .mrowz a b => some (2#2 ++ 0x80#8 ++ 0#7 ++ a ++ b ++ 0#3)
  | .mrowc r a b => some (2#2 ++ 0x81#8 ++ 0#1 ++ r ++ a ++ b ++ 0#3)
  | .mloc d r a => some (2#2 ++ 0x82#8 ++ BitVec.ofBool d ++ r ++ a ++ 0#9)
  | .minv a b f => some (2#2 ++ 0x83#8 ++ 0#7 ++ a ++ b ++ f)
  | .mcomp d r a => some (2#2 ++ 0x84#8 ++ BitVec.ofBool d ++ r ++ a ++ 0#9)
  | .mexpd d r a b => some (2#2 ++ 0x85#8 ++ BitVec.ofBool d ++ r ++ a ++ b ++ 0#3)
  | .mscrb d r a b => some (2#2 ++ 0x86#8 ++ BitVec.ofBool d ++ r ++ a ++ b ++ 0#3)
  | .mmig d r a f => some (2#2 ++ 0x87#8 ++ BitVec.ofBool d ++ r ++ a ++ 0#6 ++ f)
  | .mred d r a b f => some (2#2 ++ 0x88#8 ++ BitVec.ofBool d ++ r ++ a ++ b ++ f)
  | .mfill r a b => some (2#2 ++ 0x89#8 ++ 0#1 ++ r ++ a ++ b ++ 0#3)
  | .mstat d r f => some (2#2 ++ 0x8A#8 ++ BitVec.ofBool d ++ r ++ 0#12 ++ f)
  | .rfetch d r a b => some (2#2 ++ 0x80#8 ++ BitVec.ofBool d ++ r ++ a ++ b ++ 0#3)
  | .bfxm d r a f => some (2#2 ++ 0x81#8 ++ BitVec.ofBool d ++ r ++ a ++ 0#6 ++ f)
  | .swait d r a b => some (2#2 ++ 0x82#8 ++ BitVec.ofBool d ++ r ++ a ++ b ++ 0#3)
  | .disp d r a b => some (2#2 ++ 0x83#8 ++ BitVec.ofBool d ++ r ++ a ++ b ++ 0#3)
  | .qsave d r a => some (2#2 ++ 0x84#8 ++ BitVec.ofBool d ++ r ++ a ++ 0#9)
  | .qload d r a b => some (2#2 ++ 0x85#8 ++ BitVec.ofBool d ++ r ++ a ++ b ++ 0#3)
  | .gdec d r a => some (2#2 ++ 0x86#8 ++ BitVec.ofBool d ++ r ++ a ++ 0#9)
  | .glnch d r a b => some (2#2 ++ 0x87#8 ++ BitVec.ofBool d ++ r ++ a ++ b ++ 0#3)
  | .brnew d r a b => some (2#2 ++ 0x88#8 ++ BitVec.ofBool d ++ r ++ a ++ b ++ 0#3)
  | .brfree d r a => some (2#2 ++ 0x89#8 ++ BitVec.ofBool d ++ r ++ a ++ 0#9)
  | .flknew d r a b f => some (2#2 ++ 0x8A#8 ++ BitVec.ofBool d ++ r ++ a ++ b ++ f)
  | .fltpop d r a => some (2#2 ++ 0x8B#8 ++ BitVec.ofBool d ++ r ++ a ++ 0#9)
  | .resume d r a => some (2#2 ++ 0x8C#8 ++ BitVec.ofBool d ++ r ++ a ++ 0#9)
  | .kill d r a => some (2#2 ++ 0x8D#8 ++ BitVec.ofBool d ++ r ++ a ++ 0#9)
  | .qmap d r a f => some (2#2 ++ 0x8E#8 ++ BitVec.ofBool d ++ r ++ a ++ 0#6 ++ f)
  | .prio d r a b f => some (2#2 ++ 0x8F#8 ++ BitVec.ofBool d ++ r ++ a ++ b ++ f)
  | .loopEnd => none
  | .loadPerform => none
  | .storePerform => none
  | .copyFaultHold => none
  | .copyComplete => none
  | .polledWaitRetry => none
  | .waittExpire => none
  | .slipRelease => none
  | .portOperandFetch => none
  | .writePortWrite => none
  | .tileTransferEffect => none
  | .leaseGrant => none
  | .leaseBudgetExpiry => none
  | .leaseIdleExpiry => none
  | .flockJoinMessage => none
  | .flockLeaveMessage => none
  | .flockArrivalMessage => none
  | .planeLoadComplete => none
  | .teamComplete => none
  | .preemptRequest => none
  | .longWaitSwap => none
  | .teamSaveComplete => none
  | .teamRequeue => none
  | .nodeDispatch => none
  | .instanceComplete => none
  | .ageingInterval => none
  | .graphUpload => none
  | .graphUnload => none
  | .launchTrigger => none
  | .launchStart => none
  | .launchEnd => none
  | .timedLaunchPreplace => none
  | .timedLaunchFire => none
  | .gangCommit => none
  | .gangRollbackTimeout => none
  | .kick => none
  | .packetLaunch => none
  | .packetRelaunch => none
  | .packetTimedLaunch => none
  | .packetBarrierAnd => none
  | .barrierAndRelease => none
  | .packetSignal => none
  | .packetNop => none
  | .faultRecordEnqueue => none
  | .swaitTimeout => none
  | .tlbiInvalidateMessage => none
  | .tlbiAck => none
  | .pageWalk => none
  | .l2Fill => none
  | .directoryRequest => none
  | .sliceAtomic => none
  | .homeLineWrite => none
  | .homeLineRead => none
  | .pageExpansion => none
  | .extentAdd => none
  | .extentReleaseRequest => none
  | .releaseSweep => none
  | .releaseSweepTimeout => none
  | .extentForcedRemoval => none
  | .cxlTimeout => none
  | .flitSlot => none
  | .flitGroupReceive => none
  | .linkReplay => none
  | .linkRetryFail => none
  | .linkRetrainComplete => none
  | .linkDownTimeout => none
  | .clusterReset => none
  | .clusterResetSaveDeadline => none
  | .foldReset => none
  | .packageReset => none
  | .rstreqCluster => none
  | .rstreqFold => none
  | .rstreqPackage => none
  | .rstreqRelease => none
  | .bootgo => none
  | .firmwareCoreStart => none
  | .attestationRequest => none
  | .mailboxMessage => none
  | .dieDegrade => none
  | .dieRetirement => none
  | .coreWatchdog => none
  | .firmwareWatchdog => none
  | .nodeDeadline => none
  | .clusterWatchdog => none
  | .foldWatchdog => none
  | .fwkick => none
  | .thermalThrottle => none
  | .thermalRetire => none
  | .powerBrownout => none
  | .powerRecover => none
  | .elogclr => none
  | .tmslew => none
  | .tmset => none
  | .ptpEventTimestamp => none
  | .ptmExchange => none
  | .timeSourceLoss => none
  | .hostApertureAccess => none
  | .hostAccessTimeout => none
  | .peerRequestReceive => none
  | .peerRequestForward => none
  | .remoteTimeout => none
  | .collectiveKick => none
  | .allReduce => none
  | .reduceScatter => none
  | .allGather => none
  | .collectiveBroadcast => none
  | .collectiveBarrier => none
  | .collectivePartialReceive => none
  | .collectiveComplete => none
  | .collectiveTimeout => none
  | .registerWrite => none
  | .l1Eviction => none
  | .powerCapping => none
  | .hostPortLinkDown => none
  | .hostPortLinkUp => none
  | .gangStart => none
  | .bootStagingWrite => none
  | .softError => none

/-- The classes in the order in which a word of no stated class is read: VEC alone for a word of the half that every class shares,
and otherwise the classes whose private words fix more bits first (log 3). -/
def classOrder (w : W32) : List Cls :=
  if opOf w < 0x80 then [.vec] else if opOf w < 0xC0 then [.cube, .drover, .mem, .vec] else [.sparse, .sort, .vec]

/-- The first class of `classOrder` that has an instruction for a word, with that instruction (log 3). -/
def decodeFirst (w : W32) : List Cls → Option (Cls × Instr)
  | [] => none
  | k :: t => match decode k w with
    | some i => some (k, i)
    | none => decodeFirst w t

/-- The word of a number, bit 0 the least significant bit of the first byte in memory (R6). -/
def tableWord (nbits w : Nat) : W32 := BitVec.ofNat 32 (w % 2 ^ nbits)

/-- The instruction that the decoder reads from the bits of a table row. -/
def decodeTableWord (nbits w : Nat) : Option Instr := (decodeFirst (tableWord nbits w) (classOrder (tableWord nbits w))).map (·.2)

end Sys2Proof
end

