-- ==== Sys2Proof/Machine/Fetch.lean ====
section
/-! DEFINITION. Which strand may issue and what it meets (R13, R15, R35, R36, R38, R122), the passing of time (R469 to R471, log 7), and the
model's own rotation among the agents of the package (log 1). -/

namespace Sys2Proof.Machine

/-- Time passes: a free number of cycles and a free device time, corrected by TMRATE and the slew, and never backward (R469 to
R471). What a correction of less than 2^-16 ns leaves over counts in the steps that follow. -/
def State.tick (s : State) : State :=
  let d := Config.stepTime s.ticks
  let rate : Int := (d : Int) * sextNat 64 s.mgmt.tmrate.toNat + s.mgmt.rateRem
  let most : Nat := (d + s.mgmt.slewRem) / 1000
  let part : Int := clampI (-most) most s.mgmt.slew
  let adv : Int := d + rate / 2 ^ 48 + part
  let now := s.ns.toNat * 65536 + s.frac.toNat + adv.toNat
  { s with cyc := s.cyc + Config.stepCycles s.ticks, ns := BitVec.ofNat 64 (now / 65536), frac := BitVec.ofNat 16 now,
           up := s.up + d, ticks := s.ticks + 1,
           mgmt := { s.mgmt with slew := s.mgmt.slew - part, rateRem := (rate % 2 ^ 48).toNat,
                                 slewRem := if s.mgmt.slew == 0 then 0 else (d + s.mgmt.slewRem) % 1000 } }

/-- Whether X may go on with its phase although C or A has faulted (R168). -/
def phaseGoesOn (k : CoreSt) : Bool :=
  match k.leave with
  | some (.fault r) => r.strand != 2 && (match k.team.phase with | some p => !p.ended | none => false)
  | _ => false

/-- Whether the next load of a core's load queue needs a way of a set whose ways are all locked, which stalls A (R182, R356). -/
def State.wayless (s : State) (c : CoreId) : Bool :=
  let k := s.core c
  match nextLoad k.team [] k.team.lq with
  | some (_, .load p _ size _ vec _ _ _ _, _) =>
    (s.lockedBy p size vec).any fun x => (x.2 || (l1Find k x.1).isNone) && !l1Way k x.1
  | _ => false

/-- Whether X of a core has begun an `MMIG`, which it finishes before it stops (R36, R38, R341). -/
def State.migrating (s : State) (c : CoreId) : Bool := s.migrate.any fun m => m.core == c

/-- Whether a strand of a core may issue now (R36, R38, R132, R175, R182, R184). -/
def State.canIssue (s : State) (c : CoreId) (σ : Strand) : Bool :=
  let k := s.core c
  k.run && !k.halted && !(k.team.str σ).exited && !(σ == .A && s.wayless c) &&
  (k.leave.isNone || (σ == .X && (phaseGoesOn k || s.migrating c)))

/-- What a strand meets when it goes on. -/
inductive Fetched
  | loopEnd
  | past
  | word (n : Nat) (w : W32)
deriving DecidableEq, Repr

/-- What a strand of a core meets when it goes on (R13, R15, R122). -/
def State.fetch (s : State) (c : CoreId) (σ : Strand) : Fetched :=
  let st := (s.team c).str σ
  match endedLoop (s.text c) σ st with
  | some _ => .loopEnd
  | none =>
    match nextWord (s.text c) σ st.pc with
    | none => .past
    | some n => .word n (tget 0 (s.text c) n)

/-- The running strand at word `n`, the words between passed over (R13). -/
def State.atWord (s : State) (n : Nat) : State :=
  s.setSt { s.st with pc := n }

/-- The running strand past the last word of the window (R15): the record holds the strand's PC as it stands, 16384 as 0 in the
14 bits of its field (R414, log 38, DESIGN CHOICE). -/
def State.pastEnd (s : State) : State := s.takeFault (min s.st.pc 16384) (min s.st.pc 16384) ⟨.ILLEGAL, 0, 0, [], false, none⟩

/-- A word that the class has no instruction for (R53, check 1 to 3). -/
def State.badWord (s : State) (w : W32) : State := s.issue (headOf (wordTag w) false) fun _ => hold

/-- A step of the drovers, queues, links and collective engines that the rotation takes in turn: number `k`, for a drover or fabric die `x`
and a graph, slot, ring or port `n`. -/
def engineStep (k x n : Nat) : Sched :=
  let a : EvArg := { EvArg.zero with site := x % 2, n := n }
  match k with
  | 0 => .step .launchStart a
  | 1 => .step .launchEnd a
  | 2 => .step .timedLaunchPreplace a
  | 3 => .step .timedLaunchFire a
  | 4 => .step .gangCommit a
  | 5 => .step .gangRollbackTimeout a
  | 6 => .step .gangStart a
  | 7 => .step .packetLaunch { a with n := n % 64 }
  | 8 => .step .packetRelaunch { a with n := n % 64 }
  | 9 => .step .packetTimedLaunch { a with n := n % 64 }
  | 10 => .step .packetBarrierAnd { a with n := n % 64 }
  | 11 => .step .barrierAndRelease { a with n := n % 64 }
  | 12 => .step .packetSignal { a with n := n % 64 }
  | 13 => .step .packetNop { a with n := n % 64 }
  | 14 => .step .ageingInterval { a with fold := some (n % 8) }
  | 15 => .step .allReduce { a with n := n % 64 }
  | 16 => .step .reduceScatter { a with n := n % 64 }
  | 17 => .step .allGather { a with n := n % 64 }
  | 18 => .step .collectiveBroadcast { a with n := n % 64 }
  | 19 => .step .collectiveBarrier { a with n := n % 64 }
  | 20 => .step .collectiveComplete { a with n := n % 64 }
  | 21 => .step .collectiveTimeout { a with n := n % 64 }
  | 22 => .step .nodeDeadline a
  | 23 => .step .foldWatchdog { a with n := x % 2 * 2 ^ 31 + n }
  | 24 => .step .firmwareWatchdog { a with n := n % 16 }
  | 25 => .step .flitSlot { a with site := n / 32 % 60, n := n % 32 }
  | 26 => .step .flitGroupReceive { a with site := n / 32 % 60, n := n % 32 }
  | 27 => .step .clusterWatchdog { a with site := n / 16 % 60, n := n % 16 }
  | _ => .step .clusterResetSaveDeadline { a with site := n / 16 % 60, n := n % 16 }

/-- What moves next where the outside has put nothing on the agenda (log 1): every strand of every core and every engine of
every agent in turn. -/
def rotation (n : Nat) : Sched :=
  let key := n / 24 % 7680
  let c : CoreId := ⟨key / 128, key % 128⟩
  let e := n / 184320
  let x : EvArg := { EvArg.zero with core := c, site := c.site }
  match n % 24 with
  | 0 => .issue c .C
  | 1 => .issue c .A
  | 2 => .issue c .X
  | 3 => .step .loadPerform x
  | 4 => .step .storePerform { x with n := e % 2 }
  | 5 => .copyWord c (e % 16)
  | 6 => .step .copyComplete { x with n := e % 16 }
  | 7 => .step .portOperandFetch { x with n := e % 6 }
  | 8 => .step .writePortWrite { x with n := e % 6 }
  | 9 => .step .tileTransferEffect x
  | 10 => .step .planeLoadComplete x
  | 11 => .step .teamComplete x
  | 12 => .step .longWaitSwap x
  | 13 => .step .teamSaveComplete x
  | 14 => if e % 3 == 0 then .step .leaseGrant x else if e % 3 == 1 then .step .leaseBudgetExpiry x else .step .leaseIdleExpiry x
  | 15 => .step .flockJoinMessage x
  | 16 => .step .flockArrivalMessage x
  | 17 => .step .flockLeaveMessage x
  | 18 => .step .teamRequeue { x with site := key % 2, n := e % 64 }
  | 19 => .step .nodeDispatch { x with site := key % 2, n := e % 7 }
  | 20 => .step .instanceComplete { x with site := key % 2 }
  | 21 => .step .faultRecordEnqueue { x with site := key % 2 }
  | 22 =>
    if e % 4 == 0 then .step .tlbiInvalidateMessage x
    else if e % 4 == 1 then .step .tlbiAck { x with site := e / 4 % 60 }
    else if e % 4 == 2 then .step .swaitTimeout x
    else .step .coreWatchdog x
  | _ => engineStep (e % 29) key (e / 29 % 65536)

end Sys2Proof.Machine
end

