-- ==== Sys2Proof/Machine/Flocks.lean ====
section
/-! DEFINITION. Flocks, their episodes, and transfer phases: OP 0x60 to 0x67 and the messages to a flock's home die (R161 to R168,
R279 to R287). -/

namespace Sys2Proof.Machine

/-! ### Ids, entries and members -/

/-- The home die's site in a flock id (R279). -/
def flockSite (id : Nat) : Nat := bits id 15 10

/-- The entry in a flock id (R279). -/
def flockEntry (id : Nat) : Nat := bits id 7 0

/-- Whether an id has the form of R279. -/
def flockForm (id : Nat) : Bool := decide (flockSite id < 60) && bits id 9 8 == 0

/-- Whether a site's die has a flock table (R279). -/
def hasFlocks (site : Nat) : Bool :=
  match Config.kindAt site with
  | .cub => true
  | .vec => true
  | .spr => true
  | .srt => true
  | .far => true
  | .mem => true
  | _ => false

/-- An entry of a die's flock table. -/
def State.flockAt (s : State) (site e : Nat) : Option FlockEnt := tget? (s.die site).flocks e

/-- The state with an entry of a flock table changed. -/
def State.setFlock (s : State) (site e : Nat) (v : FlockEnt) : State :=
  s.setDie site { s.die site with flocks := tset (s.die site).flocks e v }

/-- A flock as it is made (R280, R387, R430): live, and without a member. -/
def FlockEnt.fresh (fold : Nat) (node : Option Nat) (area : Option (Nat × Nat)) : FlockEnt :=
  { fold := fold, members := [], had := false, node := node, episode := 0, value := 0, area := area, arrived := [] }

/-- An entry freed, with its contribution area back in its fold's BPOOL on the node's drover (R280, R387). -/
def State.freeFlock (s : State) (site n : Nat) : State :=
  match s.flockAt site n with
  | none => s
  | some e =>
    let s1 := s.setDie site { s.die site with flocks := tdel (s.die site).flocks n }
    match e.area, e.node with
    | some (pa, k), some nd => s1.setDrv (nd / 65536) ((s1.drv (nd / 65536)).givePages e.fold (pa / 65536) k)
    | _, _ => s1

/-- A team's node, in the numbering of `FlockEnt` (R161, R280). -/
def idNode (i : TeamId) : Nat := i.drv * 65536 + i.slot

/-- A team's member key (R161). -/
def idKey (i : TeamId) : Nat := i.slot * 65536 + i.inst

/-- Whether a team is the member of a key and node. -/
def isMember (node key : Nat) (t : TeamSt) : Bool :=
  match t.id with
  | some i => idNode i == node && idKey i == key
  | none => false

/-- A plane's team changed where it is a member. -/
def tellPlane (node key : Nat) (f : TeamSt → TeamSt) (p : Plane) : Plane :=
  { p with team := p.team.map fun t => if isMember node key t then f t else t }

/-- A core's team, or the team in its shadow plane, changed where it is a member. -/
def tellCore (node key : Nat) (f : TeamSt → TeamSt) (k : CoreSt) : CoreSt :=
  { k with team := if isMember node key k.team then f k.team else k.team, shadow := tellPlane node key f k.shadow }

/-- An away team changed where it is a member; one that waits for its flock is ready again (R187). -/
def tellAway (node key : Nat) (f : TeamSt → TeamSt) (a : Away) : Away :=
  if isMember node key a.team then
    ({ a with team := f a.team } : Away).met fun w => match w with | .flock _ => true | _ => false
  else a

/-- A member told something, wherever its team is: `f` for a team on a core, `g` for one that is away. -/
def State.tellMember (s : State) (node key : Nat) (f g : TeamSt → TeamSt) : State :=
  { s with
    cores := tmap (fun _ k => tellCore node key f k) s.cores,
    drovers := tmap (fun _ (d : Drover) => { d with away := d.away.map (tellAway node key g) }) s.drovers }

/-! ### Episodes (R162 to R165, R281 to R283) -/

/-- The kind of the open episode: that of its first arrival. -/
def FlockEnt.kind (e : FlockEnt) : Option EpKind := (e.arrived.head?).map (·.kind)

/-- Whether every arrival is of one kind, and an `FRED` of FN 3 has only instances of the flock's node as members (R162, R282). -/
def FlockEnt.agrees (e : FlockEnt) : Bool :=
  match e.kind with
  | none => false
  | some k => e.arrived.all (fun a => a.kind == k) &&
      (k != .fred 3 || (match e.node with | some n => e.members.all fun m => m.node == n | none => false))

/-- An arrival put into its place in ascending member key. -/
def insertArrive (a : ArriveRec) : List ArriveRec → List ArriveRec
  | [] => [a]
  | b :: t => if a.key ≤ b.key then a :: b :: t else b :: insertArrive a t

/-- The FP32 sum of R164 over contributions in ascending member key. -/
def fredSum : List W64 → W64
  | [] => 0
  | a :: rest => (rest.foldl (fun (r : W32) b => r32 0 (addN 0 (f32 r) (f32 (lo32 b)))) (canon32 (lo32 a))).setWidth 64

/-- One more contribution of FN 0 to 2 folded into the reduction value (R164, R281). -/
def fredFold (fn : BitVec 3) (r v : W64) : W64 :=
  match fn.toNat with
  | 0 => r + v
  | 1 => if v.slt r then v else r
  | _ => if r.slt v then v else r

/-- An arrival entered in the open episode, its contribution folded into the reduction value (R281). -/
def FlockEnt.arrive (e : FlockEnt) (a : ArriveRec) : FlockEnt :=
  { e with
    arrived := e.arrived ++ [a],
    value := match a.kind with
      | .fred fn => if e.arrived.isEmpty then a.val else fredFold fn e.value a.val
      | _ => e.value }

/-- The result of a completed episode for one member: the bellwether flag, the reduction value, the sum of the contribution area or the
phase's base cycle; none where the episode has no effect. -/
def FlockEnt.result (e : FlockEnt) (sum : W64) (base : Nat) (a : ArriveRec) : Option W64 :=
  if !e.agrees then none
  else match a.kind with
    | .fbar => some (b2w ((e.arrived.head?).map (·.key) == some a.key && (e.arrived.head?).map (·.node) == some a.node))
    | .fred fn => some (if fn == 3 then sum else e.value)
    | .xph => some (BitVec.ofNat 64 base)

/-! ### The contribution area (R280 to R282) -/

/-- The home die of a flock as a requester of memory, in the flock's fold. -/
def FlockEnt.who (e : FlockEnt) (site : Nat) : Who := { dieWho site with fold := some e.fold }

/-- The word of a contribution area at an instance index, which a member key ends in (R161, R282). -/
def areaWord (pa key : Nat) : Place := .mem (pa + 8 * (key % 65536)) .home

/-- A contribution to an `FRED` of FN 3 written at its instance index (R281, R282): one of another node's team has no word there. -/
def State.contribute (s : State) (site : Nat) (e : FlockEnt) (a : ArriveRec) : Iss State :=
  match e.area with
  | none => .ok s
  | some (pa, _) =>
    if a.kind != .fred 3 || e.node != some a.node then .ok s
    else match s.doStore (e.who site) (areaWord pa a.key) (leBytes 8 a.val.toNat) 0 with
      | .ok u => .ok u
      | .error (.stall h) => .error (.stall h)
      | .error (.fault f) => .ok (s.markBad f.bad)

/-- A contribution read back; one that cannot be read counts with a free value (log 48). -/
def State.contribution (s : State) (site : Nat) (e : FlockEnt) (a : ArriveRec) : W64 × State :=
  match e.area with
  | none => s.freshWord
  | some (pa, _) =>
    match s.doLoad (e.who site) (areaWord pa a.key) 8 0 with
    | .ok r => (BitVec.ofNat 64 (leNat r.1), r.2)
    | .error (.stall _) => s.freshWord
    | .error (.fault f) => (s.markBad f.bad).freshWord

/-- The contributions of arrivals read back in turn. -/
def State.contributions (s : State) (site : Nat) (e : FlockEnt) : List ArriveRec → List W64 × State
  | [] => ([], s)
  | a :: t =>
    let x := s.contribution site e a
    let r := x.2.contributions site e t
    (x.1 :: r.1, r.2)

/-- The sum that an episode of FN 3 gives, from the contribution area in ascending member key (R164, R281). -/
def State.episodeSum (s : State) (site : Nat) (e : FlockEnt) : W64 × State :=
  if e.agrees && e.kind == some (.fred 3) then
    let r := s.contributions site e (e.arrived.foldl (fun l a => insertArrive a l) [])
    (fredSum r.1, r.2)
  else (0, s)

/-- A member's team when its episode completes: on its core, or away from it, where a phase begins ended (log 75, DESIGN CHOICE). -/
def endEpisode (k : EpKind) (r : Option W64) (away : Bool) (base : Nat) (t : TeamSt) : TeamSt :=
  { t with
    arrival := .complete k r,
    phase := if k == .xph && r.isSome then some { base := base, last := none, ended := away, atEnd := false } else t.phase }

/-- The strips of a die. -/
def stripsAt (site : Nat) : Nat := Config.strips (Config.kindAt site)

/-- The cycle after which a driven value has left its chain (R285). -/
def driveGone (site : Nat) (d : Drive) : Nat := d.cycle + (if d.west then d.strip else stripsAt site - 1 - d.strip) + 1

/-- The cores of a die. -/
def State.dieCores (s : State) (site : Nat) : List (Nat × CoreSt) := s.cores.filter fun e => e.1 / 128 == site

/-- Values that have left the chains forgotten, where no team of the die is in a phase. -/
def State.clearDrives (s : State) (site : Nat) : State :=
  if (s.dieCores site).any fun e => inPhase e.2.team then s
  else s.setDie site { s.die site with drives := (s.die site).drives.filter fun d => decide (s.cyc < driveGone site d) }

/-- A member told something by the flock's home die, where a route leads to the member's die (R305, log 64). -/
def State.answerTo (s : State) (home site node key : Nat) (f g : TeamSt → TeamSt) : State :=
  if s.routed home site then s.tellMember node key f g else s

/-- Every arrival of a completed episode answered. -/
def State.answerAll (s : State) (home : Nat) (e : FlockEnt) (sum : W64) (base : Nat) : List ArriveRec → State
  | [] => s
  | a :: t =>
    let r := e.result sum base a
    let at_ := ((e.members.find? fun m => m.node == a.node && m.key == a.key).map (·.site)).getD home
    (s.answerTo home at_ a.node a.key (endEpisode a.kind r false base) (endEpisode a.kind r true base)).answerAll home e sum base t

/-- The open episode completed where every member has arrived (R162, R283). -/
def State.closeEpisode (s : State) (site n : Nat) : State :=
  match s.flockAt site n with
  | none => s
  | some e =>
    if e.arrived.isEmpty || e.arrived.length < e.members.length then s
    else
      let base := s.cyc + 1
      let s1 := if e.kind == some .xph then (match e.members with | m :: _ => s.clearDrives m.site | [] => s) else s
      let r := s1.episodeSum site e
      (r.2.setFlock site n { e with arrived := [], episode := e.episode + 1, value := 0 }).answerAll site e r.1 base e.arrived

/-- An arrival processed by the home die (R281); it waits while its contribution cannot be written. One at an entry that has been freed, as a
node's is when the node ends (R280), does nothing (log 83, DESIGN CHOICE). -/
def State.flockArrive (s : State) (site n : Nat) (a : ArriveRec) : Iss State :=
  match s.flockAt site n with
  | none => .ok s
  | some e => (s.contribute site e a).map fun u => (u.setFlock site n (e.arrive a)).closeEpisode site n

/-- A join processed by the home die (R161, R280, R283): none where it is refused. -/
def State.flockJoin (s : State) (site n : Nat) (m : Member) (fold : Nat) : Option State :=
  match s.flockAt site n with
  | none => none
  | some e =>
    if e.fold != fold || (e.kind == some .xph && e.members.any fun x => x.site != m.site) then none
    else some (s.setFlock site n { e with members := e.members ++ [m], had := true })

/-- A flock without a member (R162, R283). Where that team had arrived at the open episode, which only its end can make it leave (R373,
R291), its arrival and its contribution go with it (log 63, DESIGN CHOICE). -/
def FlockEnt.without (e : FlockEnt) (node key : Nat) : FlockEnt :=
  (e.arrived.filter fun a => !(a.node == node && a.key == key)).foldl FlockEnt.arrive
    { e with members := e.members.filter fun m => !(m.node == node && m.key == key), arrived := [], value := 0 }

/-- A leave processed by the home die (R280, R283): the entry is freed with its last member. -/
def State.flockLeave (s : State) (site n : Nat) (node key : Nat) : State :=
  match s.flockAt site n with
  | none => s
  | some e =>
    let e' := e.without node key
    if e'.members.isEmpty && e.had then s.freeFlock site n
    else (s.setFlock site n e').closeEpisode site n

/-- A message sent from a die to a flock's home die (R280); without a route it is discarded (R305, log 64). -/
def State.sendFlock (s : State) (from_ site : Nat) (m : FlockMsg) : State :=
  if s.routed from_ site then s.setDie site { s.die site with flockIn := (s.die site).flockIn ++ [m] } else s

/-- A team on a die leaves its flock, at once or by a message to another die (R161, R280). -/
def State.leaveFlock (s : State) (site : Nat) (t : TeamSt) : State :=
  match t.flock, t.id with
  | some id, some i =>
    if flockSite id == site then s.flockLeave site (flockEntry id) (idNode i) (idKey i)
    else s.sendFlock site (flockSite id) (.leave (flockEntry id) (idKey i) (idNode i))
  | _, _ => s

/-- The running team's arrival at its flock's open episode: it waits, and the home die is told (R162, R280). -/
def State.arriveAt (s : State) (id : Nat) (k : EpKind) (v : W64) : Iss State :=
  match s.tm.id with
  | none => .ok s
  | some i =>
    let s1 := s.setTm { s.tm with arrival := .waiting k }
    if flockSite id == s.cur.site then s1.flockArrive s.cur.site (flockEntry id) { key := idKey i, node := idNode i, kind := k, val := v }
    else .ok (s1.sendFlock s.cur.site (flockSite id) (.arrive (flockEntry id) (idKey i) (idNode i) k v))

/-- The first message at a die's table taken off. -/
def State.dropFlockMsg (s : State) (site : Nat) : State := s.setDie site { s.die site with flockIn := (s.die site).flockIn.drop 1 }

/-- `FLOCK_JOIN_MESSAGE` (R280, R283): the first message at the home die, where it is a join, is processed and answered. -/
def execFlockJoinMessage (s : State) : Host.Outcome State Fault Refusal :=
  let site := s.ev.site
  .next (match (s.die site).flockIn with
    | .join n key from_ fold node :: _ =>
      let s1 := s.dropFlockMsg site
      match s1.flockJoin site n { key := key, site := from_, node := node } fold with
      | some s2 => s2.answerTo site from_ node key (fun t => { t with join := .joined }) (fun t => { t with join := .joined })
      | none => s1.answerTo site from_ node key (fun t => { t with join := .refused }) (fun t => { t with join := .refused })
    | _ => s)

/-- `FLOCK_LEAVE_MESSAGE` (R280, R283). -/
def execFlockLeaveMessage (s : State) : Host.Outcome State Fault Refusal :=
  let site := s.ev.site
  .next (match (s.die site).flockIn with
    | .leave n key node :: _ => (s.dropFlockMsg site).flockLeave site n node key
    | _ => s)

/-- `FLOCK_ARRIVAL_MESSAGE` (R280, R281): the message stays while its contribution cannot be written. -/
def execFlockArrivalMessage (s : State) : Host.Outcome State Fault Refusal :=
  let site := s.ev.site
  .next (match (s.die site).flockIn with
    | .arrive n key node k v :: _ =>
      match (s.dropFlockMsg site).flockArrive site n { key := key, node := node, kind := k, val := v } with
      | .ok u => u
      | .error (.stall h) => s.waited h
      | .error (.fault _) => s
    | _ => s)

/-! ### Joining and leaving -/

/-- The flock that the drover allocated for a team's node (R161, R172). -/
def State.nodeFlock (s : State) (i : TeamId) : Option Nat :=
  let n := tget Node.reset (s.drv i.drv).nodes i.slot
  if n.flkreq then n.flock else none

/-- C's join of a flock by id: at once on the home die, by a message elsewhere (R161, R280). A home die that no route leads to fails the
join as a flock that is not there (R305, log 64). -/
def State.joinFlock (s : State) (i : TeamId) (id : Nat) : Iss Done := do
  need (flockForm id) .FLOCK 0 0
  let home := flockSite id
  if home == s.cur.site then
    match s.flockJoin home (flockEntry id) { key := idKey i, site := home, node := idNode i } i.fold with
    | some u => .ok (u.setTm { u.tm with flock := some id }).goOn
    | none => flt .FLOCK 0 0
  else do
    need (s.routed s.cur.site home) .FLOCK 0 0
    let u := (s.setTm { s.tm with join := .asked }).sendFlock s.cur.site home (.join (flockEntry id) (idKey i) s.cur.site i.fold (idNode i))
    .ok { u.goOn with held := some .stall }

/-- `FJOIN` (R161): C alone joins; IMM10 1 takes the id from the source. A firmware core joins none (R279). -/
def execFjoin (a : BitVec 6) (n : BitVec 10) (s : State) : Host.Outcome State Fault Refusal :=
  s.run (headOf .W (n < 2 && (if n == 1 then s.strand != .C || s.srcOk a else a == 0))) fun s =>
    if s.strand != .C then .ok s.goOn
    else do
      if n == 1 then s.popsOk [a] else .ok ()
      let x ← if n == 1 then s.src a else .ok (0, s)
      match s.tm.id with
      | none => flt .FLOCK 0 0
      | some i =>
        need (!i.fw && s.tm.flock.isNone) .FLOCK 0 0
        let id ← match if n == 1 then some (fieldW x.1 15 0) else s.nodeFlock i with
          | some v => pure v
          | none => flt .FLOCK 0 0
        match s.tm.join with
        | .asked => hold
        | .refused => flt .FLOCK 0 0
        | .joined => .ok (x.2.setTm { x.2.tm with join := .idle, flock := some id }).goOn
        | .idle =>
          let d ← x.2.joinFlock i id
          match d.held with
          | none => .ok d
          | some _ => s.joinFlock i id

/-- `FLEAVE` (R161). -/
def execFleave (s : State) : Host.Outcome State Fault Refusal :=
  s.run (headOf .W true) fun s =>
    if s.strand != .C then .ok s.goOn
    else do
      need s.tm.flock.isSome .FLOCK 0 0
      let u := s.leaveFlock s.cur.site s.tm
      .ok (u.setTm { u.tm with flock := none }).goOn

/-! ### Collectives -/

/-- The arrival consumed. -/
def State.arrivalDone (s : State) : State := s.setTm { s.tm with arrival := .idle }

/-- A and X at an `FBAR` that C has passed (R163): each performs its acquire; X, the last, ends the team's use of the episode. -/
def State.fbarFollow (s : State) : Iss Done := do
  let u ← s.acquired s.me
  .ok (if s.strand == .X then u.arrivalDone else u).goOn

/-- C at an `FBAR` (R163): the arrival once all three strands have reached it and the team's stores and loads are performed, the wait,
and the bellwether flag. -/
def State.fbarLead (s : State) (a : BitVec 6) : Iss Done := do
  needWait s.allReached
  s.room false a
  match s.tm.flock with
  | none => flt .FLOCK 0 0
  | some id =>
    match s.tm.arrival with
    | .complete _ (some v) => (s.acquired s.me).map fun u => (u.put false a v).goOn
    | .complete _ none => flt .FLOCK 0 0
    | .waiting _ => longHold waitFlock
    | .idle =>
      needWait (s.tm.sq.isEmpty && lqLoads s.tm == 0)
      needWait !(s.tm.serr.getLsbD 31 && s.tm.serrStrand != .C)
      s.raiseSerr
      let u ← s.released s.me
      (u.arriveAt id .fbar 0).map fun v => v.waitOn waitFlock

/-- `FBAR` (R163). A strand whose store failed raises that failure when it reaches the word, before C passes it (R140). -/
def execFbar (a : BitVec 6) (s : State) : Host.Outcome State Fault Refusal :=
  if s.strand != .C && s.tm.arrival == .idle && s.tm.sq.isEmpty && s.tm.serr.getLsbD 31 && s.tm.serrStrand == s.strand then
    match s.raiseSerr with
    | .error (.fault f) => .next (s.takeFault s.st.pc s.st.pc f)
    | _ => .next s
  else
    s.run (headOf .W (s.strand != .C || s.destOk a)) fun s => if s.strand == .C then s.fbarLead a else s.fbarFollow

/-- `FRED` (R164): C's, which arrives at the open episode as C reaches the word, whether or not X has reached an `XPH` that stands before it in
the text (log 63, DESIGN CHOICE). -/
def execFred (d : Bool) (r a : BitVec 6) (f : BitVec 3) (s : State) : Host.Outcome State Fault Refusal :=
  s.run (headOf .C (s.destOk r && s.srcOk a && f < 4)) fun s => do
    s.popsOk [a]
    s.room d r
    let x ← s.src a
    match s.tm.flock with
    | none => flt .FLOCK 0 0
    | some id =>
      match s.tm.arrival with
      | .complete (.fred _) (some v) => .ok (x.2.arrivalDone.put d r v).goOn
      | .complete (.fred _) none => flt .FLOCK 0 0
      | .waiting (.fred _) => longHold waitFlock
      | .idle => (s.arriveAt id (.fred f) x.1).map fun u => u.waitOn waitFlock
      | _ => hold

/-! ### Transfer phases (R165 to R168, R284 to R287) -/

/-- The word of `XEND`. -/
def xendWord : W32 := 0xD9C00000

/-- The next `XEND` in text order from a word on (R168). -/
def nextXend (text : Tab W32) (n : Nat) : Nat := ((text.find? fun e => decide (n ≤ e.1) && e.2 == xendWord).map (·.1)).getD n

/-- Whether the running X may issue `XPH` although its phase has begun: it has not retired the word yet. -/
def State.xphReady (s : State) : Bool :=
  match s.tm.arrival with
  | .complete .xph _ => true
  | _ => false

/-- X at an `XPH` (R165): a die without strips has no chains (R292). Its arrival is a release of what the team has performed, for which every
access goes first that can go (a store that waits for a datum of X, and what stands behind it, cannot), and its completion is an acquire
(R362). -/
def State.xphLead (s : State) : Iss Done :=
  match s.tm.flock with
  | none => flt .XPHASE 0 0
  | some id => do
    need (stripsAt s.cur.site != 0) .XPHASE 0 0
    let ms := match s.flockAt (flockSite id) (flockEntry id) with | some e => e.members | none => []
    match s.tm.arrival with
    | .complete .xph (some _) =>
      let u ← s.arrivalDone.acquired s.me
      .ok (if (match s.tm.phase with | some p => p.ended | none => false) then u.goTo (nextXend (s.text s.cur) s.st.pc) else u.goOn)
    | .complete .xph none => flt .FLOCK 0 0
    | .waiting .xph => longHold waitFlock
    | .idle =>
      need (ms.all fun m => m.site == s.cur.site) .XPHASE 0 0
      needWait (queuesDone s.tm && s.tm.scat.isEmpty)
      let u ← s.released s.me
      (u.arriveAt id .xph 0).map fun v => v.waitOn waitFlock
    | _ => hold

/-- `XPH` (R165): C and A retire it without effect. -/
def execXph (s : State) : Host.Outcome State Fault Refusal :=
  s.run { tag := .W, legal := true, priv := false, phase := s.xphReady } fun s => if s.strand == .X then s.xphLead else .ok s.goOn

/-- The earliest chain access that a core in a phase can still make: its cycle, and 0 for a drive or 1 for a capture. -/
def State.phaseBound (s : State) (c : CoreId) : Option (Nat × Nat) :=
  match (s.team c).phase with
  | none => none
  | some p =>
    let next := p.base + (match p.last with | some l => l + 1 | none => 0)
    if p.ended || p.atEnd || !s.canIssue c .X then none
    else match s.fetch c .X with
      | .loopEnd => some (next, 0)
      | .past => none
      | .word _ w =>
        match decode (coreCls c) w with
        | some (.xmit _ i _) => some (p.base + i.toNat, 0)
        | some (.msel _ i _) => some (p.base + i.toNat, 1)
        | some (.nop _) => some (next, 0)
        | some .xph => some (next, 0)
        | _ => none

/-- Whether the running X's chain access is the next of its die in order of cycle, drives before captures. -/
def State.phaseTurn (s : State) (t k : Nat) : Bool :=
  (s.dieCores s.cur.site).all fun e =>
    let c : CoreId := ⟨s.cur.site, e.1 % 128⟩
    c == s.cur || (match s.phaseBound c with
      | some b => decide (t < b.1) || (t == b.1 && decide (k ≤ b.2))
      | none => true)

/-- The strip of a core (R284). -/
def coreStrip (c : CoreId) : Nat := Config.clusterStrip (Config.kindAt c.site) (clusterOf c)

/-- The cycle of a phase offset, checked (R166). -/
def State.phaseCycle (s : State) (i : BitVec 9) : Iss Nat :=
  match s.tm.phase with
  | none => flt .XPHASE 0 0
  | some p => do
    need (match p.last with | some l => decide (l < i.toNat) | none => true) .XPHASE 0 0
    .ok (p.base + i.toNat)

/-- The offset of a phase used, and its cycle reached. -/
def State.phaseUsed (s : State) (i : BitVec 9) (t : Nat) : State :=
  let u := s.setTm { s.tm with phase := s.tm.phase.map fun p => { p with last := some i.toNat } }
  { u with cyc := max u.cyc t }

/-- `XMIT` (R166, R285). -/
def execXmit (a : BitVec 6) (i : BitVec 9) (c : BitVec 1) (s : State) : Host.Outcome State Fault Refusal :=
  s.run { tag := .X, legal := s.srcOk a && (decide (a.toNat < 56) || a == 62), priv := false, phase := true } fun s => do
    let t ← s.phaseCycle i
    needWait (s.phaseTurn t 0)
    let x ← s.src a
    let d := s.die s.cur.site
    let u := s.setDie s.cur.site { d with drives := d.drives ++ [{ west := c == 1, strip := coreStrip s.cur, cycle := t, val := x.1 }] }
    .ok (u.phaseUsed i t).goOn

/-- The cycle in which a driven value stands at a strip, where it passes it (R285). -/
def driveAt (d : Drive) (r : Nat) : Option Nat :=
  if d.west then (if r ≤ d.strip then some (d.cycle + (d.strip - r)) else none)
  else (if d.strip ≤ r then some (d.cycle + (r - d.strip)) else none)

/-- The values that would occupy a chain slot (R285, R286). -/
def slotDrives (l : List Drive) (west : Bool) (r t : Nat) : List Drive := l.filter fun d => d.west == west && driveAt d r == some t

/-- What an `MSEL` reads in a slot: zero where no value is there or two collide (R166, R286). -/
def slotVal (l : List Drive) (west : Bool) (r t : Nat) : W64 :=
  match slotDrives l west r t with
  | [d] => d.val
  | _ => 0

/-- `MSEL` (R166). -/
def execMsel (r : BitVec 6) (i : BitVec 9) (c : BitVec 1) (s : State) : Host.Outcome State Fault Refusal :=
  s.run { tag := .X, legal := s.destOk r, priv := false, phase := true } fun s => do
    let t ← s.phaseCycle i
    s.room false r
    needWait (s.phaseTurn t 1)
    let v := slotVal (s.die s.cur.site).drives (c == 1) (coreStrip s.cur) t
    .ok ((s.phaseUsed i t).put false r v).goOn

/-- Whether a strip recorded a collision in the cycles from `base` to `now` (R286). -/
def collided (l : List Drive) (r base now : Nat) : Bool :=
  l.any fun d => match driveAt d r with
    | some t => decide (base ≤ t) && decide (t ≤ now) && decide (2 ≤ (slotDrives l d.west r t).length)
    | none => false

/-- Whether every other member of the phase has reached its `XEND`, or its phase has ended (R167, R168). -/
def State.allAtEnd (s : State) (p : Phase) : Bool :=
  (s.dieCores s.cur.site).all fun e =>
    e.1 % 128 == s.cur.core || e.2.team.flock != s.tm.flock ||
      (match e.2.team.phase with | some q => q.base != p.base || q.ended || q.atEnd | none => true)

/-- The cycle by which every value driven on the running die has passed its last strip (R167, R285). -/
def State.drivesGone (s : State) : Nat := (s.die s.cur.site).drives.foldl (fun m d => max m (driveGone s.cur.site d)) s.cyc

/-- Whether no core of the running die can still drive a value by that cycle: one of another flock's phase may collide on the way (R286,
R287). -/
def State.chainsQuiet (s : State) : Bool :=
  (s.dieCores s.cur.site).all fun e =>
    e.1 % 128 == s.cur.core || (match s.phaseBound ⟨s.cur.site, e.1 % 128⟩ with
      | some b => decide (s.drivesGone < b.1)
      | none => true)

/-- X at an `XEND` (R167, R168). -/
def State.xendLead (s : State) : Iss Done :=
  match s.tm.phase with
  | none => flt .XPHASE 0 0
  | some p =>
    let out := s.setTm { s.tm with phase := none }
    if p.ended then .ok out.goOn
    else if !s.allAtEnd p || !s.chainsQuiet then
      .ok { (s.setTm { s.tm with phase := some { p with atEnd := true } }).goOn with held := some .stall }
    else
      let l := (s.die s.cur.site).drives
      let now := s.drivesGone
      let u : State := { out with cyc := now }
      .ok { u.goOn with trap := if collided l (coreStrip s.cur) p.base now then some ⟨.XCOLLIDE, 0, 0, [], false, none⟩ else none }

/-- `XEND` (R167): C and A retire it without effect. -/
def execXend (s : State) : Host.Outcome State Fault Refusal :=
  s.run { tag := .W, legal := true, priv := false, phase := true } fun s => if s.strand == .X then s.xendLead else .ok s.goOn

end Sys2Proof.Machine
end

