-- ==== Sys2Proof/Machine/Nodes.lean ====
section
/-! DEFINITION. Graph nodes and launches at the drover (R370, R372, R383 to R391, R406). A node is named by its drover die and its
slot, a graph by its drover die and its index. -/

namespace Sys2Proof.Machine

/-! ### Nodes and graphs by number -/

/-- A node slot. -/
def State.node (s : State) (d k : Nat) : Node := tget Node.reset (s.drv d).nodes k

/-- The state with a node slot changed. -/
def State.setNode (s : State) (d k : Nat) (n : Node) : State := s.setDrv d { s.drv d with nodes := tset (s.drv d).nodes k n }

/-- A loaded graph. -/
def State.graphAt (s : State) (d gi : Nat) : Option Graph := tget? (s.drv d).graphs gi

/-- The state with a loaded graph changed. -/
def State.setGraph (s : State) (d gi : Nat) (g : Graph) : State := s.setDrv d { s.drv d with graphs := tset (s.drv d).graphs gi g }

/-- The slots of a node's distinct successors (R369, R370). -/
def nodeSuccs (v : Drover) (n : Node) : List Nat :=
  match tget? v.graphs n.gid with
  | none => []
  | some g => ((List.range n.nsucc).map fun i => g.nodes.getD (leNat (cread v.gmem (n.succ + 2 * i) 2)) 0).eraseDups

/-- The drover as a requester of memory: no fold, so that it reaches every window. -/
def drvWho (d : Nat) : Who :=
  { c := ⟨Config.drvSite d, 0⟩, fold := none, asid := 0, loc := 0, drv := d, size := 0 }

/-! ### Slots (R383, R384, R386) -/

/-- One more reference of a brand's buffer, where the brand is of its present generation. -/
def State.refBrand (s : State) (b : W128) : State :=
  let r := s.buf (brDrv b) (brIdx b)
  if r.live && r.gen == brGen b then s.addRef (brDrv b) (brIdx b) else s

/-- Every reference that a node's slots hold dropped (R372). -/
def State.dropSlots (s : State) (d k : Nat) : State :=
  let n := s.node d k
  (n.slots.foldl (fun (u : State) e => u.dropBrand e.2) (s.setNode d k { n with slots := [] }))

/-- A reference handed to input slot `j` of a node, where the slot is unbound and empty (R384), whatever the folds of the two nodes (log 56,
DESIGN CHOICE). -/
def State.giveSlot (s : State) (d j : Nat) (b : W128) (k : Nat) : State :=
  let n := s.node d k
  if (n.bound.any fun e => e.1 == j) || tget 0 n.slots j != 0 then s
  else (s.setNode d k { n with slots := tset n.slots j b }).refBrand b

/-- Output slot `j` of a node handed off (R384). -/
def State.handoffSlot (s : State) (d k j : Nat) : State :=
  let n := s.node d k
  let b := tget 0 n.slots (8 + j)
  if b == 0 then s
  else
    let s1 := (nodeSuccs (s.drv d) n).foldl (fun (u : State) x => u.giveSlot d j b x) s
    let m := s1.node d k
    (s1.setNode d k { m with slots := tdel m.slots (8 + j) }).dropBrand b

/-- Every output slot of a node handed off (R384). -/
def State.handoff (s : State) (d k : Nat) : State := (List.range 8).foldl (fun (u : State) j => u.handoffSlot d k j) s

/-- The rights of a bound slot (R383): read, give, dup, drop of an input, and write too of an output. -/
def slotRights (j : Nat) : BitVec 6 := if j < 8 then 0x1D else 0x1F

/-- A bound slot filled when a launch starts (R383): a reference that `BRNEW` has put there is dropped (log 85, DESIGN CHOICE). -/
def State.bindSlot (s : State) (d k : Nat) (e : Nat × Nat) : State :=
  let old := tget 0 (s.node d k).slots e.1
  let s1 := s.dropBrand old
  let b := s1.makeBrand d e.2 (slotRights e.1)
  let n := s1.node d k
  (s1.setNode d k { n with slots := tset n.slots e.1 b }).addRef d e.2

/-! ### The state machine of R372 -/

/-- A node in READY, at the tail of its ready queue (R372, R374). -/
def State.makeReady (s : State) (d k : Nat) : State :=
  let v := s.drv d
  let n := s.node d k
  (s.setDrv d { v with readySeq := v.readySeq + 1 }).setNode d k { n with st := .ready, readyAt := v.readySeq, readyNs := s.runNs, agedAt := s.cyc }

/-- One `GDEC` of a node in WAITING (R372, R426). -/
def State.gdecNode (s : State) (d k : Nat) : State :=
  let n := s.node d k
  if n.st == .waiting && decide (0 < n.pending) then
    let s1 := s.setNode d k { n with pending := n.pending - 1 }
    if n.pending == 1 then s1.makeReady d k else s1
  else s

/-- The flock that the drover made for a node freed, where it is live (R387). -/
def State.freeNodeFlock (s : State) (d k : Nat) : State :=
  let n := s.node d k
  match n.flock with
  | none => s
  | some id =>
    let s1 := s.setNode d k { n with flock := none }
    let site := flockSite id
    match s1.flockAt site (flockEntry id) with
    | some e => if e.node == some (d * 65536 + k) then s1.freeFlock site (flockEntry id) else s1
    | none => s1

/-- A node ended in a state: its slot references dropped and its flock freed (R372, R387). -/
def State.endNode (s : State) (d k : Nat) (st : NodeSt) : State :=
  let s1 := (s.dropSlots d k).freeNodeFlock d k
  s1.setNode d k { s1.node d k with st := st }

/-- A bound on the nodes that one cancellation visits: every edge and node of the drover. -/
def edgeBound (v : Drover) : Nat := (v.nodes.map fun e => e.2.nsucc + 1).foldl (· + ·) 1

/-- A cancellation passed on to nodes in WAITING or READY, and to their successors (R372). -/
def State.cancelFrom (s : State) (d : Nat) : Nat → List Nat → State
  | 0, _ => s
  | _, [] => s
  | n + 1, k :: t =>
    let x := s.node d k
    if x.st == .waiting || x.st == .ready then (s.endNode d k .cancelled).cancelFrom d n (nodeSuccs (s.drv d) x ++ t)
    else s.cancelFrom d n t

/-- A node done or failed (R372): handoff, references dropped, then `GDEC` of every successor; or, of a failed node, its successors
cancelled. -/
def State.finishNode (s : State) (d k : Nat) (st : NodeSt) : State :=
  let n := s.node d k
  let next := nodeSuccs (s.drv d) n
  if st == .done then next.foldl (fun (u : State) x => u.gdecNode d x) ((s.handoff d k).endNode d k .done)
  else (s.endNode d k st).cancelFrom d (edgeBound (s.drv d)) next

/-- Whether a node has ended for its launch (R390). -/
def nodeOver (n : Node) : Bool := n.st == .done || n.st == .failed || n.st == .cancelled

/-- `INSTANCE_COMPLETE` (R372): the drover counts the next instance completed or killed; the last one ends its node. -/
def execInstanceComplete (s : State) : Host.Outcome State Fault Refusal :=
  let d := s.ev.site
  let v := s.drv d
  .next (match v.doneQ with
    | [] => s
    | (k, killed) :: rest =>
      let s1 := s.setDrv d { v with doneQ := rest }
      let n := s1.node d k
      let m : Node := { n with compl := n.compl + 1, killed := n.killed || killed }
      let s2 := s1.setNode d k m
      if m.st == .running && decide (m.count ≤ m.compl) then s2.finishNode d k (if m.killed then .failed else .done) else s2)

/-! ### Launches (R388 to R391, R406, R408) -/

/-- The pieces of a buffer that some L2 holds, each with its die (R406). -/
def State.bufPieces (s : State) (b : Buf) : List (Nat × Nat) :=
  s.dies.flatMap fun e =>
    (e.2.l2.filter fun p => decide (b.pa / 64 ≤ p.1) && decide (p.1 * 64 < b.pa + b.len)).map fun p => (e.1, p.1)

/-- The flush of R406: every dirty L2 piece of a buffer written back. -/
def State.flushBuf (s : State) (d idx : Nat) : State :=
  (s.bufPieces (s.buf d idx)).foldl (fun (u : State) e => u.pieceHome e.1 e.2) s

/-- The invalidation of R406: every L2 piece of a buffer written back if dirty, and then invalidated. -/
def State.invBuf (s : State) (d idx : Nat) : State :=
  (s.bufPieces (s.buf d idx)).foldl (fun (u : State) e => u.pieceLeave e.1 e.2) s

/-- The buffers of a launch's list whose mode holds a bit: 1 invalidate at start, 2 flush at end (R406). -/
def modeBufs (l : List W32) (k : Nat) : List (Nat × Nat) :=
  (l.filter fun (w : W32) => (w >>> 30).getLsbD k).map fun (w : W32) => (bits w.toNat 29 29, bits w.toNat 15 0)

/-- A launch's patch values written into the graph's parameter words, in list order (R389). -/
def State.applyPatch (s : State) (d : Nat) (g : Graph) (l : List (Nat × Nat × W64)) : State :=
  l.foldl (fun (u : State) e =>
    let v := u.drv d
    let at_ := (u.node d (g.nodes.getD e.1 0)).param.toNat + 8 * e.2.1
    u.setDrv d { v with gmem := cwrite v.gmem at_ (leBytes 8 e.2.2.toNat) }) s

/-- The first launch of a graph patched, once it is the graph's next launch (R388). -/
def State.patchNext (s : State) (d gi : Nat) : State :=
  match s.graphAt d gi with
  | none => s
  | some g =>
    match g.launches with
    | l :: rest =>
      if l.patched then s
      else (s.applyPatch d g l.patches).setGraph d gi { g with launches := { l with patched := true } :: rest }
    | [] => s

/-- The planes preplaced for a launch (R391, R395): cores by their place in the table. -/
def State.preplaced (s : State) (d lid : Nat) : List (Nat × CoreSt) := s.cores.filter fun e => e.2.shadow.pre == some (d, lid)

/-- The preplaced instances of a node, in ascending number. -/
def State.preplacedOf (s : State) (d lid k : Nat) : List Nat :=
  (((s.preplaced d lid).filterMap fun e => (e.2.shadow.team.bind (·.id)).bind fun i => if i.slot == k then some i.inst else none).foldl
    (fun (t : Tab Unit) i => tset t i ()) []).map (·.1)

/-- The number that stands at place `n` among those which a rising list leaves out. -/
def leftOut : List Nat → Nat → Nat
  | [], n => n
  | e :: t, n => if e ≤ n then leftOut t (n + 1) else n

/-- The undispatched instance of a node of lowest index (R374): those preplaced for its launch are dispatched already (R391). -/
def nextInst (n : Node) : Nat := leftOut n.early (n.disp - n.early.length)

/-- A node moved out of IDLE at a launch's start (R372, R383). The instances preplaced for the launch count as dispatched. -/
def State.startNode (s : State) (d lid k : Nat) : State :=
  let n := s.node d k
  let pre := s.preplacedOf d lid k
  let s1 := s.setNode d k { n with disp := pre.length, early := pre, compl := 0, killed := false, variant := if pre.isEmpty then none else n.variant,
                                   pcur := n.pbase, pending := n.preds, dropped := [], st := .waiting }
  let s2 := n.bound.foldl (fun (u : State) e => u.bindSlot d k e) s1
  if n.preds != 0 then s2
  else
    let s3 := s2.makeReady d k
    if n.count ≤ pre.length then s3.setNode d k { s3.node d k with st := .running } else s3

/-- The planes preplaced for a launch set free to flip (R391, R395). -/
def State.freePlanes (s : State) (d lid : Nat) : State :=
  { s with cores := tmap (fun _ (k : CoreSt) => if k.shadow.pre == some (d, lid) then { k with shadow := { k.shadow with pre := none } } else k) s.cores }

/-- The first launch of a graph started (R388): patched, its buffers invalidated, every node out of IDLE, its preplaced planes free. -/
def State.startLaunch (s : State) (d gi : Nat) : State :=
  let s0 := s.patchNext d gi
  match s0.graphAt d gi with
  | none => s
  | some g =>
    match g.launches with
    | [] => s
    | l :: rest =>
      let s1 := (modeBufs l.req.buffers 0).foldl (fun (u : State) e => u.invBuf e.1 e.2) s0
      let s2 := s1.setGraph d gi { g with launches := { l with started := true, startAt := s.runNs } :: rest }
      let s3 := g.nodes.foldl (fun (u : State) k => u.startNode d l.lid k) s2
      s3.freePlanes d l.lid

/-- Whether a graph is of more than one fold (R395). -/
def isGang (g : Graph) : Bool := decide (1 < countTrue ((List.range 8).map fun f => bit g.mask f))

/-- The first launch of a graph, where it has not started. -/
def State.nextLaunch (s : State) (d gi : Nat) : Option (Graph × Launch) :=
  match s.graphAt d gi with
  | none => none
  | some g =>
    match g.launches with
    | l :: _ => if l.started then none else some (g, l)
    | [] => none

/-- `LAUNCH_START` (R388): an untimed launch of one fold that is the graph's next starts. -/
def execLaunchStart (s : State) : Host.Outcome State Fault Refusal :=
  .next (match s.nextLaunch s.ev.site s.ev.n with
    | some (g, l) => if l.req.time.isNone && !isGang g then s.startLaunch s.ev.site s.ev.n else s
    | none => s)

/-- The requester that reads and writes for a queue or a trigger (R490): at the drover, in the ASID and fold of the request. -/
def askWho (d asid : Nat) (fold : Option Nat) : Who :=
  { c := ⟨Config.drvSite d, 0⟩, fold := fold, asid := asid, loc := 0, drv := d, size := 0 }

/-- The place of an access of the packet processor or the drover (R400, R408): DEV at home, or HOST. -/
def State.askPlace (s : State) (w : Who) (p : W64) (n al : Nat) (nd : Need) : Iss (Place × State) := do
  need (tagNum p == 0 || tagNum p == 4) .SPACE p 0
  let pol := if tagNum p == 0 then 3 else 0
  let sp ← s.checkEa w p p n al pol
  s.placeOf w sp n pol nd p

/-- Bytes read so. -/
def State.askRead (s : State) (w : Who) (p : W64) (n al : Nat) : Iss (List Byte × State) := do
  let q ← s.askPlace w p n al .read
  q.2.engineRead w q.1 n p

/-- Bytes written so. -/
def State.askWrite (s : State) (w : Who) (p : W64) (data : List Byte) : Iss State := do
  let q ← s.askPlace w p data.length data.length .write
  q.2.engineWrite w q.1 data p

/-- A 64-bit word read so. -/
def State.askWord (s : State) (w : Who) (p : W64) : Iss (W64 × State) := (s.askRead w p 8 8).map fun r => (BitVec.ofNat 64 (leNat r.1), r.2)

/-- The record of a fault of a queue's ring, header or signal (R402): strand 3, no node, the QCB number as auxiliary word. -/
def State.ringRecord (s : State) (d q : Nat) (f : Flt) : Record :=
  { addr := f.addr, node := 0xFFFFFFFF, inst := 0xFFFFFFFF, time := (s.nsAt (Config.drvSite d)).toNat % 2 ^ 48, code := f.code, strand := 3, site := 0,
    core := 0, pc := 0, held := false, susp := false, aux := q, handle := none }

/-- The completion signal of a request (R408): one store of bit 63 or the status, not retried. A failure of a queue's signal is reported
as a ring fault is (R402). Else what the store has to wait for. -/
def State.signal (s : State) (d : Nat) (r : LaunchReq) (status : Nat) : Except Hold State :=
  if r.signal == 0 then .ok s
  else
    let w := askWho ((r.queue.map (·.1)).getD d) r.asid r.fold
    match s.askWrite w r.signal (leBytes 8 (2 ^ 63 + status)) with
    | .ok s1 => .ok s1
    | .error (.fault f) =>
      let s1 := s.markBad f.bad
      match r.queue with
      | some (qd, q) => .ok (s1.raiseRecord qd (s1.ringRecord qd q f))
      | none => .ok s1
    | .error (.stall h) => .error h

/-- A launch taken off its graph with its status (R390, R393, R406, R408): flushes, the completion signal, the nodes IDLE, and the next
launch patched; or what the signal has to wait for. -/
def State.endLaunch (s : State) (d gi status : Nat) : Except Hold State :=
  match s.graphAt d gi with
  | none => .error .none
  | some g =>
    match g.launches with
    | [] => .error .none
    | l :: rest =>
      let s1 := (modeBufs l.req.buffers 1).foldl (fun (u : State) e => u.flushBuf e.1 e.2) s
      (s1.signal d l.req status).map fun s2 =>
        let s3 := g.nodes.foldl (fun (u : State) k => u.setNode d k { u.node d k with st := .idle }) s2
        (s3.setGraph d gi { g with launches := rest }).patchNext d gi

/-- Whether a team is of a launch. -/
def ofLaunch (d lid : Nat) (t : TeamSt) : Bool :=
  match t.id with
  | some i => i.drv == d && i.lid == BitVec.ofNat 64 lid && !i.fw
  | none => false

/-- Whether a team of a launch is on a core, in a shadow plane or away. -/
def State.launchTeams (s : State) (d lid : Nat) : Bool :=
  (s.cores.any fun e => ofLaunch d lid e.2.team || (match e.2.shadow.team with | some t => ofLaunch d lid t | none => false)) ||
  s.drovers.any fun e => e.2.away.any fun a => !a.dead && ofLaunch d lid a.team

/-- `LAUNCH_END` (R390): the running launch of a graph ends once every node is DONE, FAILED or CANCELLED and no instance is left. -/
def execLaunchEnd (s : State) : Host.Outcome State Fault Refusal :=
  let d := s.ev.site
  let gi := s.ev.n
  .next (match s.graphAt d gi with
    | none => s
    | some g =>
      match g.launches with
      | [] => s
      | l :: _ =>
        if l.started && (g.nodes.all fun k => nodeOver (s.node d k)) && !s.launchTeams d l.lid then
          s.orWaited (s.endLaunch d gi (if g.nodes.all fun k => (s.node d k).st == .done then 0 else 1))
        else s)

end Sys2Proof.Machine
end

