-- ==== Sys2Proof/Machine/Teams.lean ====
section
/-! DEFINITION. Teams on their cores: configuration planes and their flip, the drain point and completion, the save sequence, teams away
from their cores, and their end (R36 to R40, R132, R145, R178 to R188, R373, R499). -/

namespace Sys2Proof.Machine

/-! ### The ranges of a team (R185, R377) -/

/-- A team's range given back to BPOOL (R377): its context area and its LOC page. A firmware core's text has none. -/
def State.freeRange (s : State) (i : TeamId) : State :=
  if i.fw then s else s.setDrv i.drv ((s.drv i.drv).givePages i.fold (i.ctx / 65536) (ctxPages i.cls + 1))

/-! ### Planes (R179 to R181) -/

/-- The views of a node's slots that a starting team gets in its b registers (R169). -/
def State.startViews (s : State) (i : TeamId) : Tab BrandReg :=
  (List.range 16).filterMap fun k =>
    let b := tget 0 (s.node i.drv i.slot).slots k
    if b == 0 then none else some (k, { bits := b, view := some k })

/-- WAITMAX of a team's fold (R191, R392). -/
def State.waitmaxOf (s : State) (t : TeamSt) : W64 :=
  match t.id with
  | some i => (s.fold i.drv i.fold).waitmax.setWidth 64
  | none => 24000

/-- Whether a strand of a team has retired `EXIT`. -/
def begunExit (t : TeamSt) : Bool := t.c.exited || t.a.exited || t.x.exited

/-- Whether X is between `XPH` and the retirement of `XEND` (R165, R188). -/
def phaseHeld (t : TeamSt) : Bool :=
  t.phase.isSome || (match t.arrival with | .waiting .xph => true | .complete .xph _ => true | _ => false)

/-- A team as it goes on: a pre-emption that was held on a fault which its word completed with waits for the end of a phase, or takes
effect at once (R39, R133, R165). -/
def resumed (t : TeamSt) : TeamSt × Option Leave :=
  if !t.preNow then (t, none)
  else if begunExit t then ({ t with preNow := false }, none)
  else if phaseHeld t then ({ t with preNow := false, preHeld := some .X }, none)
  else ({ t with preNow := false }, some .preempt)

/-- The swap token: a READY plane becomes ACTIVE on a core without an active team (R179, R180). A plane preplaced for a launch that has
not started stays READY (R391). -/
def State.flip (s : State) (c : CoreId) : State :=
  let k := s.core c
  if k.run || k.shadow.st != .ready || k.shadow.pre.isSome then s
  else match k.shadow.team with
    | none => s
    | some t0 =>
      let (t, leave) := resumed t0
      let t1 : TeamSt := { t with
        brands := if k.shadow.fresh then (match t.id with | some i => s.startViews i | none => []) else t.brands, leaseRq := false }
      s.setCore c { k with
        run := true, team := t1,
        active := { k.shadow with st := .active, team := none, pre := none, fresh := false }, shadow := Plane.reset,
        l1 := [], leave := leave, leaveAt := s.runNs, halted := false, waitmax := s.waitmaxOf t, waitAcc := 0, waitAt := none, swapHeld := false,
        lease := if t.leaseRq then .want else .none, leaseN := 0, leaseT := s.cyc, leaseU := s.cyc,
        tlbi := none, lastIss := s.cyc, since := s.cyc }

/-- `PLANE_LOAD_COMPLETE` (R179): the last byte of a shadow plane is written; the planes flip where the core holds no active team. A
plane that is READY already flips if it now may. -/
def execPlaneLoadComplete (s : State) : Host.Outcome State Fault Refusal :=
  let c := s.ev.core
  let k := s.core c
  .next ((if k.shadow.st == .loading then s.setCore c { k with shadow := { k.shadow with st := .ready } } else s).flip c)

/-- A core whose team has left it: its plane EMPTY, and the lease passed on (R179, R235), also where the team has ended with it (log 82,
DEDUCED). -/
def State.vacate (s : State) (c : CoreId) : State :=
  let s1 := if (s.core c).lease != .none then s.passLease c .none else s
  let k := s1.core c
  (s1.setCore c { k with run := false, team := TeamSt.reset, active := Plane.reset, l1 := [], leave := none, waitAcc := 0,
                         waitAt := none, swapHeld := false, swait := none, tlbi := none }).flip c

/-! ### The end of a team (R132, R161, R169, R170, R377) -/

/-- What an ending team gives back: its flock membership, counted references, mappings and range. -/
def State.giveBack (s : State) (site : Nat) (t : TeamSt) : State :=
  let s1 := (s.leaveFlock site t).dropHeld t
  match t.id with
  | some i => s1.freeRange i
  | none => s1

/-- The drover told of an instance completed or killed (R372). -/
def State.instanceDone (s : State) (t : TeamSt) (killed : Bool) : State :=
  match t.id with
  | some i => if i.fw then s else s.setDrv i.drv { s.drv i.drv with doneQ := (s.drv i.drv).doneQ ++ [(i.slot, killed)] }
  | none => s

/-- Whether every condition of the drain point but the last holds (R180, R221, R249): all three strands have retired `EXIT`, and every
store, transfer, copy and claimed `sdq` entry is performed. -/
def drained (t : TeamSt) : Bool :=
  t.c.exited && t.a.exited && t.x.exited && t.sq.isEmpty && t.scat.isEmpty && t.claims.isEmpty && t.tq.isEmpty && t.board.isEmpty &&
  lqLoads t == 0

/-- The resident team completes (R132, R365): locks released, the L1 written back, the team's belongings given back; or what a write-back
has to wait for. -/
def State.completeTeam (s : State) (c : CoreId) : Except Hold State :=
  ((s.unlockDq c).l1Flush (s.who c)).map fun s1 =>
    let t := s1.team c
    ((s1.giveBack c.site t).instanceDone t false).vacate c

/-! ### Waiter records of a team that leaves (R277, R278, R499) -/

/-- The waiter records of a core when its team leaves: kept and marked by a swap, else freed; a polled wait ends either way. -/
def leaveWaiters (core : Nat) (swap : Bool) (l : List Waiter) : List Waiter :=
  l.filterMap fun x =>
    if x.core != core || x.swapped then some x
    else if swap && !x.polled then some { x with swapped := true } else none

/-- The waiter records of a core's cluster when its team leaves. -/
def State.leaveWait (s : State) (c : CoreId) (swap : Bool) : State :=
  if Config.clusterCores (Config.kindAt c.site) == 0 then s
  else
    let cl := s.cluster c.site (clusterOf c)
    s.setCluster c.site (clusterOf c) { cl with waiters := leaveWaiters c.core swap cl.waiters }

/-- The swapped records of an away team freed, as it ends or leaves its waits (R275, R499). -/
def State.freeSwapped (s : State) (a : Away) : State :=
  if Config.clusterCores (Config.kindAt a.from_.site) == 0 then s
  else
    let k := clusterOf a.from_
    let cl := s.cluster a.from_.site k
    s.setCluster a.from_.site k { cl with waiters := cl.waiters.filter fun x => !(x.swapped && x.team == teamTag a.team) }

/-! ### The save sequence (R184) -/

/-- Loads into `dq` and stores performed, as far as they can be (R184 steps 2 and 3). -/
def State.drainTeam (s : State) (c : CoreId) : State :=
  let s1 := s.drainCore c true
  s1.drainScat c (s1.team c).scat.length

/-- Whether a drained team may be saved: every load and store performed but those that wait, by the order of their queue, for a datum of X,
which are saved with the team (log 58); X out of its phase, or the phase ended (R168); no acknowledgement awaited (R341). -/
def saveReady (k : CoreSt) : Bool :=
  let t := k.team
  queuesDone t && t.scat.isEmpty &&
  (match t.phase with | some p => p.ended | none => true) && k.tlbi.isNone

/-- A `dq` entry as data, without locks (R184 step 6). -/
def State.dqSaved (s : State) (c : CoreId) (e : DqEnt) : DqEnt :=
  { e with
    data := match e.data with
      | .lines ids => .lanes (bytesLanes (Config.lanes (coreCls c)) (s.linesBytes c ids))
      | d => d,
    locks := [] }

/-- The read port whose poisoned operand X has raised goes on at the resume: that operand is fetched again in its place (R219). Where the word
that raised it reads the port more than once, the good operands before it stay (log 70, DEDUCED). -/
def portSaved (raised : Option Nat) (p : Nat) (q : Port) : Port :=
  if raised == some p && q.st == .fault then { q with st := .run, buf := q.buf.filter fun o => o.poison.isNone, code := none } else q

/-- Whether X's phase has begun and X has not retired its `XPH` yet. -/
def atPhase (t : TeamSt) : Bool := t.phase.isSome && (match t.arrival with | .complete .xph _ => true | _ => false)

/-- A resident team as its context keeps it (R168, R184 to R186): `dq` as data, ports with their positions, the lease request, the
run-cycle count, and X at its `XEND` where its phase has ended, its `XPH` retired. -/
def State.savedTeam (s : State) (c : CoreId) (r : Option Record) : TeamSt :=
  let k := s.core c
  let t := k.team
  { t with
    x := if t.phase.isSome then { t.x with pc := nextXend k.active.text t.x.pc, org := none, span := t.x.span + b2n (atPhase t) } else t.x,
    arrival := if atPhase t then .idle else t.arrival,
    dq := t.dq.map (s.dqSaved c),
    sq := t.sq.map fun e => { e with again := true },
    lq := t.lq.map fun e => match e with
      | .load p ea n g v m pc id _ => .load p ea n g v m pc id true
      | .marker σ l => .marker σ l,
    tq := t.tq.map fun x => { x with places := [] },
    ports := tmap (portSaved (match r with | some f => if f.strand == 2 then t.raised else none | none => none)) t.ports,
    raised := none,
    leaseRq := k.lease != .none,
    runCyc := t.runCyc + (s.cyc - k.since) }

/-- The wait that a strand of a team is held in, where it counts toward WAITTH. -/
def heldOn (st : StrandSt) : Option Hold := if longHeld st then some st.hold else none

/-- The number of the episode that a team's flock has open, which its home die counts (R162, R280). -/
def State.episodeOf (s : State) (t : TeamSt) : Nat :=
  match t.flock with
  | some id => ((tget? (s.die (bits id 15 10)).flocks (bits id 7 0)).map (·.episode)).getD 0
  | none => 0

/-- The ticket that a strand held at `CPYW` waits for: none for `.all` (R153). -/
def State.ticketAt (s : State) (c : CoreId) (σ : Strand) : Option W64 :=
  match s.fetch c σ with
  | .word _ w =>
    match decode (coreCls c) w with
    | some (.cpyw _ a n) =>
      if n == 1 then none
      else match ({ s with cur := c, strand := σ } : State).src a with | .ok r => some r.1 | .error _ => none
    | _ => none
  | _ => none

/-- The wait condition of a strand (R186, R187): none where its wait is over already. -/
def State.condOf (s : State) (c : CoreId) (σ : Strand) (h : Hold) : Option WaitCond :=
  let t := s.team c
  match h with
  | .rangeWait ea n src => if boardBusy t.board ea n src then some (.range ea n src) else none
  | .longWait kind =>
    if kind == waitFe then
      ((s.cluster c.site (clusterOf c)).waiters.find? fun x => x.core == c.core && x.strand == σ && !x.swapped).map fun x =>
        if x.polled then .polled x.off else .fe c.site (clusterOf c) x.off x.full
    else if kind == waitFlock then (match t.arrival with | .waiting _ => some (.flock (s.episodeOf t)) | _ => none)
    else if kind == waitTime then some (.time (t.str σ).waitT.toNat)
    else if kind == waitCopy then
      match s.ticketAt c σ with
      | some v => if (t.copyOf v).isSome then some (.ticket v) else none
      | none => if t.board.isEmpty then none else some .anyCopy
    else if (tfree t.board 8).isSome then none else some .board
  | _ => none

/-- The wait conditions that a swap records, one of each held strand (log 40): none where a wait is over already. -/
def State.swapConds (s : State) (c : CoreId) : List WaitCond :=
  let l := [Strand.C, .A, .X].filterMap fun σ => (heldOn ((s.team c).str σ)).map fun h => s.condOf c σ h
  if l.all Option.isSome then l.filterMap id else []

/-- The drover of a team's records and its place away from its core. -/
def State.putAway (s : State) (c : CoreId) (a : Away) : State :=
  let d := droverOf c a.team
  s.setDrv d { s.drv d with away := (s.drv d).away ++ [a] }

/-- A record that suspends a team: raised with a new suspension of its drover, whose entry it carries (R416, R417). -/
def State.raiseSusp (s : State) (d : Nat) (r : Record) (mayResume : Bool) : Nat × State :=
  let q := (s.drv d).suspend false mayResume
  (q.1, (s.setDrv d q.2).raiseRecord d { r with susp := true, handle := some (q.2.handleNo q.1) })

/-- The state of a team written to its context area (R184 step 6, R185, R186), or what that has to wait for. -/
def State.saveCtx (s : State) (c : CoreId) (t : TeamSt) (l : Leave) (conds : List WaitCond) : Except Hold State :=
  match t.id with
  | none => .ok s
  | some i => s.ctxWrite (whoOf c t) i (ctxWord i.cls (s.core c).active.text t l conds)

/-- A resident team whose save is made leaves its core (R184): the waiter records go, its state is written to its context area, the L1 is
written back, and the team stands away with the wait or the suspension that its leaving gives it; or what a write has to wait for. -/
def State.leaveCore (s : State) (c : CoreId) (l : Leave) : Except Hold State :=
  let r : Option Record := match l with | .fault r => some r | _ => none
  let conds := match l with | .swap => s.swapConds c | _ => []
  let t := s.savedTeam c r
  let d := droverOf c t
  ((((s.leaveWait c (l == .swap)).saveCtx c t l conds).bind fun u => (u.unlockDq c).l1Flush (s.who c))).map fun s1 =>
  let s2 : Nat × State := match l with
    | .fault rec => s1.raiseSusp d rec true
    | .reset => s1.raiseSusp d (s1.record c 3 t.c.pc ⟨.RESET, 0, 1, [], false, none⟩) true
    | _ => (0, s1)
  let h : Option Nat := match l with | .fault _ => some s2.1 | .reset => some s2.1 | _ => none
  (s2.2.putAway c { team := t, from_ := c, conds := conds, ready := false, handle := h, dead := false, fresh := false }).vacate c

/-- A DROVER core's pending exception entered, once the stores that stood before it have drained (R36, R192, R498). -/
def State.enterPending (s : State) (c : CoreId) (σ : Strand) (pc : Nat) (code : Code) (addr : W64) : State :=
  if s.canEnter c then s.enterException c σ pc code addr else s.drainEntry c

/-- `TEAM_SAVE_COMPLETE` (R184): the save of a team that is leaving its core is made, once its loads and stores are performed. On a DROVER
core, which saves nothing, a pending exception is entered then (R192). -/
def execTeamSaveComplete (s : State) : Host.Outcome State Fault Refusal :=
  let c := s.ev.core
  .next (match (s.core c).leave with
    | none => s
    | some (.entry σ pc code addr) => s.enterPending c σ pc code addr
    | some l =>
      if coreCls c == .drover || phaseGoesOn (s.core c) then s
      else
        let s1 := s.drainTeam c
        if saveReady (s1.core c) then s1.orWaited (s1.leaveCore c l) else s1)

/-- `TEAM_COMPLETE` (R132, R145, R180): at its drain point the team completes; a team with a pending store failure is suspended with the
record of R145 instead. -/
def execTeamComplete (s : State) : Host.Outcome State Fault Refusal :=
  let c := s.ev.core
  let k := s.core c
  let t := k.team
  .next (if !k.run || coreCls c == .drover || !drained t || k.leave.isSome then s.flip c
    else if t.serr.getLsbD 31 then
      let r := s.record c (strandNum t.serrStrand) ((t.str t.serrStrand).pc - 1)
        ⟨(codeOf (bits t.serr.toNat 7 0)).getD .QUEUE, t.serra, t.serrPc, [], false, none⟩
      s.orWaited ((s.setTeam c { t with serr := 0 }).leaveCore c (.fault r))
    else s.orWaited (s.completeTeam c))

/-! ### Requests to leave (R38, R39, R165, R187) -/

/-- A pre-emption asked of a core's team (R38, R165, R184): held through a phase, discarded once a strand has retired `EXIT` (R39), and served
by a save that is asked for or running. -/
def State.preempt (s : State) (c : CoreId) : State :=
  let k := s.core c
  let t := k.team
  if !k.run || coreCls c == .drover || begunExit t then s
  else match k.leave with
    | some _ => s
    | none => if phaseHeld t then s.setTeam c { t with preHeld := some .X } else s.setCore c (k.askLeave .preempt s.runNs)

/-- `PREEMPT_REQUEST` (R38, R39). -/
def execPreemptRequest (s : State) : Host.Outcome State Fault Refusal := .next (s.preempt s.ev.core)

/-- The long-wait counter of a core (R187). -/
def waitCount (k : CoreSt) (cyc : Nat) : Nat := k.waitAcc + (match k.waitAt with | some a => cyc - a | none => 0)

/-- `LONG_WAIT_SWAP` (R187, R188): the counter has reached WAITTH and the team is to be swapped out, from a phase once X has retired `XEND`
(R165), and not once a strand has retired `EXIT` (R39). -/
def execLongWaitSwap (s : State) : Host.Outcome State Fault Refusal :=
  let c := s.ev.core
  let k := s.core c
  .next (if k.run && coreCls c != .drover && k.leave.isNone && k.waitAt.isSome && decide (k.team.waitth.toNat ≤ waitCount k s.cyc) &&
      !begunExit k.team then
      s.setCore c (if phaseHeld k.team then { k with swapHeld := true } else k.askLeave .swap s.runNs)
    else s)

/-! ### Teams away from their cores (R187, R188, R373) -/

/-- The team number `n` that is away of a drover. -/
def State.awayAt (s : State) (d n : Nat) : Option Away := (s.drv d).away[n]?

/-- The state with an away team taken off. -/
def State.dropAway (s : State) (d n : Nat) : State := s.setDrv d { s.drv d with away := (s.drv d).away.eraseIdx n }

/-- The state with an away team changed. -/
def State.setAway (s : State) (d n : Nat) (a : Away) : State := s.setDrv d { s.drv d with away := (s.drv d).away.set n a }

/-- A team that is ready for its core again takes its node's place in the ready queues: at the tail, unless the node stands in one
(R187, R374). -/
def State.enterQueue (s : State) (i : TeamId) : State :=
  let v := s.drv i.drv
  let n := s.node i.drv i.slot
  if (n.st == .ready && decide (n.disp < n.count)) ||
      v.away.any fun a => a.ready && !a.dead && (match a.team.id with | some j => j.slot == i.slot && !j.fw | none => false) then s
  else (s.setDrv i.drv { v with readySeq := v.readySeq + 1 }).setNode i.drv i.slot { n with readyAt := v.readySeq, agedAt := s.cyc }

/-- An away team made ready for dispatch: what is left of its waits is over (R275). -/
def State.requeue (s : State) (d n : Nat) (a : Away) : State :=
  match a.team.id with
  | some i => ((s.freeSwapped a).enterQueue i).setAway d n { a with ready := true, conds := [], handle := none }
  | none => s

/-- Whether the wait of a swapped team is over (R187). -/
def State.condMet (s : State) (a : Away) : Bool :=
  a.conds.isEmpty || a.conds.any fun w => match w with | .time t => decide (t ≤ (s.nsAt a.from_.site).toNat) | _ => false

/-- `TEAM_REQUEUE` (R187): a swapped team whose wait condition is met, or a pre-empted one, is requeued. A team that has ended goes once
its copies have. -/
def execTeamRequeue (s : State) : Host.Outcome State Fault Refusal :=
  let d := s.ev.site
  let n := s.ev.n
  .next (match s.awayAt d n with
    | none => s
    | some a =>
      if a.dead then (if a.team.board.isEmpty && a.handle.isNone then s.dropAway d n else s)
      else if a.handle.isNone && !a.ready && s.condMet a then s.requeue d n a
      else s)

/-- What is left of an ended team: its copies, which run on without their completion actions (R373). -/
def deadTeam (t : TeamSt) : TeamSt :=
  { TeamSt.reset with id := t.id, board := tmap (fun _ e => { e with fn := 0 }) t.board, locsz := t.locsz }

/-- A team away from its core ends (R373): its waiter record is freed, its stores are discarded, what it holds is given back. -/
def State.endAway (s : State) (d n : Nat) (a : Away) (killed : Bool) : State :=
  let s1 := ((s.freeSwapped a).giveBack a.from_.site a.team).instanceDone a.team killed
  if a.team.board.isEmpty then s1.dropAway d n
  else s1.setAway d n { a with team := deadTeam a.team, conds := [], ready := false, handle := none, dead := true }

/-- A suspended team killed (R289, R373, R432): one that a reset has ended already only counts as killed now. -/
def State.killAway (s : State) (d n : Nat) (a : Away) : State :=
  if !a.dead then s.endAway d n a true
  else
    let s1 := s.instanceDone a.team true
    if a.team.board.isEmpty then s1.dropAway d n else s1.setAway d n { a with handle := none }

/-- A resident team ends without a save (R289, R373): its L1 contents, locks and unperformed stores are lost; its copies run on. -/
def State.endResident (s : State) (c : CoreId) (killed : Bool) : State :=
  let t := s.team c
  let s1 := ((s.leaveWait c false).giveBack c.site t).instanceDone t killed
  let s2 := if t.board.isEmpty then s1
    else s1.putAway c { team := deadTeam t, from_ := c, conds := [], ready := false, handle := none, dead := true, fresh := false }
  s2.vacate c

/-- An assignment withdrawn (R179): the shadow plane is EMPTY again, and its team returns to the ready queues (R288). The team of a
plane that was preplaced for a launch is no team yet, and gives its range back (R395). -/
def State.cancelPlane (s : State) (c : CoreId) : State :=
  let k := s.core c
  let s1 := s.setCore c { k with shadow := Plane.reset }
  match k.shadow.team with
  | none => s1
  | some t =>
    match t.id with
    | none => s1
    | some i =>
      if k.shadow.pre.isSome then s1.freeRange i
      else
        let s2 := s1.enterQueue i
        s2.setDrv i.drv { s2.drv i.drv with
          away := (s2.drv i.drv).away ++
            [{ team := t, from_ := c, conds := [], ready := true, handle := none, dead := false, fresh := k.shadow.fresh }] }

end Sys2Proof.Machine
end

