-- ==== Sys2Proof/Machine/Place.lean ====
section
/-! DEFINITION. Ready queues, ageing, placement and preplacement (R374 to R380, R387, R391, R395). -/

namespace Sys2Proof.Machine

/-! ### Dies and cores that can take a team (R376, R379, R392) -/

/-- The status codes of a die that serves: live or degraded (R379). -/
def State.serves (s : State) (d site : Nat) : Bool := s.siteStatus d site == 1 || s.siteStatus d site == 2

/-- The live or degraded dies of a class that a fold names (R376, R392). -/
def State.foldDies (s : State) (d f : Nat) (k : Cls) : List Nat :=
  (List.range 60).filter fun x =>
    (s.fold d f).sites.getLsbD x && Config.kindClass (Config.kindAt x) == some k && s.serves d x

/-- The cores with which a die serves: those in service, and on a degraded die as many as its live core count gives (R379). -/
def State.servingCores (s : State) (d site : Nat) : List CoreId :=
  let l := ((List.range (Config.kindCores (Config.kindAt site))).map fun k => (⟨site, k⟩ : CoreId)).filter fun c => (s.core c).service
  if s.siteStatus d site == 2 then l.take (bits (tget 0 (s.drv d).disc site).toNat 47 32) else l

/-- Whether a core's shadow plane can take a team: it is EMPTY, and the core's cluster is not in reset (R179, R288). -/
def State.planeFree (s : State) (c : CoreId) : Bool :=
  (s.core c).shadow.st == .empty && (s.cluster c.site (clusterOf c)).reset.isNone

/-- The core of a list that a team goes to: one without an active team if there is one, else the first (R376). With `idle`, the first
kind alone (R391). -/
def State.chooseCore (s : State) (idle : Bool) (l : List CoreId) : Option CoreId :=
  let free := l.filter s.planeFree
  match free.find? fun c => !(s.core c).run with
  | some c => some c
  | none => if idle then none else free.head?

/-- The planes of a die that are LOADING, READY or ACTIVE (R376). -/
def State.planesBusy (s : State) (site : Nat) : Nat :=
  ((s.dieCores site).map fun e => b2n (e.2.shadow.st != .empty) + b2n (e.2.active.st != .empty)).foldl (· + ·) 0

/-- The distance of two sites on the grid (R376). -/
def gridDist (a b : Nat) : Nat := (max (a / 10) (b / 10) - min (a / 10) (b / 10)) + (max (a % 10) (b % 10) - min (a % 10) (b % 10))

/-- The site of the stack that holds the first byte of the buffer in a node's lowest bound input slot (R316, R376). -/
def State.nearSite (s : State) (d : Nat) (n : Node) : Option Nat :=
  match (List.range 8).findSome? fun j => (n.bound.find? fun e => e.1 == j).map (·.2) with
  | none => none
  | some b => (s.homeOf (Config.drvSite d) (some n.fold) (s.buf d b).pa).map fun h => Config.stackSite h.1

/-- The die and core for an instance (R376): the fewest busy planes, then the nearest die, then the lowest site. -/
def State.pickCore (s : State) (d f : Nat) (k : Cls) (near : Option Nat) (idle : Bool) : Option CoreId :=
  let dies := (s.foldDies d f k).filterMap fun x =>
    (s.chooseCore idle (s.servingCores d x)).map fun c => (s.planesBusy x * 64 + ((near.map (gridDist x)).getD 0), c)
  (dies.foldl (fun (m : Option (Nat × CoreId)) e => match m with
    | some b => if e.1 < b.1 then some e else some b
    | none => some e) none).map (·.2)

/-- The core to which a team that has run returns: of its own cluster, or of its own die on CUBE and MEM (R188, R392). -/
def State.homeCore (s : State) (d : Nat) (i : TeamId) (from_ : CoreId) : Option CoreId :=
  if !(s.foldDies d i.fold i.cls).contains from_.site then none
  else
    let l := s.servingCores d from_.site
    s.chooseCore false (if i.cls == .cube || i.cls == .mem then l else l.filter fun c => clusterOf c == clusterOf from_)

/-! ### Classes (R380) -/

/-- The class on which a node's instances run: that of its variant text where the fallback was chosen. -/
def runCls (n : Node) (var : Bool) : Cls := (Config.numCls (if var then n.vclass else n.cls)).getD .drover

/-- The choice of R380: whether the variant text runs, or none where no class can take the node, as where its number names none (R3). -/
def State.chooseText (s : State) (d : Nat) (n : Node) : Option Bool :=
  if (Config.numCls n.cls).isNone then none
  else if !(s.foldDies d n.fold (runCls n false)).isEmpty then some false
  else if (n.cls == 1 || n.cls == 3 || n.cls == 4) && n.vclass == 2 && !(s.foldDies d n.fold .vec).isEmpty then some true
  else none

/-! ### Texts, ranges and flocks of a team (R179, R181, R377, R387) -/

/-- The words of a text in graph memory: TEXT or VTEXT of a node slot (R370). -/
def textWords (gm : List (Nat × Byte)) (w : W64) : Tab W32 :=
  (List.range (fieldW w 47 32)).filterMap fun k =>
    let v := leNat (cread gm (fieldW w 31 0 + 4 * k) 4)
    if v == 0 then none else some (k, BitVec.ofNat 32 v)

/-- A team put into a core's shadow plane, its text and format table from the node (R179, R181). The loader's second check of R17 (R61) has
no stated outcome and stops no load: `SPAN` is raised when the word issues (log 54, DESIGN CHOICE). -/
def State.loadPlane (s : State) (c : CoreId) (n : Node) (t : TeamSt) (drv : Nat) (fresh : Bool) (pre : Option (Nat × Nat)) : State :=
  let var := match t.id with | some i => i.cls != runCls n false | none => false
  let k := s.core c
  s.setCore c { k with loadAt := s.runNs, shadow :=
    { st := .loading, text := textWords (s.drv drv).gmem (if var then n.vtext else n.text), fmt := if var then n.vfmt else n.fmt,
      team := some { t with order := s.ticks }, pre := pre, fresh := fresh } }

/-- A page of a fold zeroed at home by the drover (R377). -/
def State.zeroPage (s : State) (d f page : Nat) : State :=
  match s.homeOf (Config.drvSite d) (some f) (page * 65536) with
  | none => s
  | some (n, lf) =>
    let site := Config.stackSite n
    (s.dropPage page).zeroAt site lf

/-- The ASID of a graph in a fold (R377). -/
def Graph.asidOf (g : Graph) (f : Nat) : Nat := ((g.asids.find? fun e => e.1 == f).map (·.2)).getD 0

/-- The dies of a fold that have a flock table (R279, R387). -/
def State.flockDies (s : State) (d f : Nat) : List Nat :=
  (List.range 60).filter fun x => hasFlocks x && (s.fold d f).sites.getLsbD x && s.serves d x

/-- The site nearest to another whose flock table has a free entry, with the entry (R387). -/
def State.flockPlace (s : State) (d f site : Nat) : Option (Nat × Nat) :=
  let here := (tfree (s.die site).flocks 256).map fun e => (site, e)
  let far := (s.flockDies d f).filterMap fun x =>
    (tfree (s.die x).flocks 256).map fun e => (gridDist site x, x, e)
  match here with
  | some p => some p
  | none => (far.foldl (fun (m : Option (Nat × Nat × Nat)) e => match m with
      | some b => if e.1 < b.1 then some e else some b
      | none => some e) none).map (·.2)

/-- The flock of a node allocated at the first dispatch of an instance, with its contribution area of 8 bytes an instance from the fold's
BPOOL (R280, R387): none where no die of the fold has a free entry, or the pool no room. -/
def State.makeFlock (s : State) (d k site : Nat) : Option State :=
  let n := s.node d k
  if !n.flkreq || n.flock.isSome then some s
  else
    let m := pagesOf (8 * n.count)
    match s.flockPlace d n.fold site, (s.drv d).takePages n.fold m with
    | some p, some r =>
      some (((s.setDrv d r.2).setFlock p.1 p.2 (FlockEnt.fresh n.fold (some (d * 65536 + k)) (some (r.1 * 65536, m)))).setNode d k
        { n with flock := some (p.1 * 1024 + p.2) })
    | _, _ => none

/-- A new team of an instance on a core (R181, R191, R376, R377): its range taken from BPOOL, its LOC page zeroed, and its node's flock
made. None where the range or the flock cannot be had. -/
def State.newTeam (s : State) (d k inst lid : Nat) (cls : Cls) (site : Nat) : Option (TeamSt × State) :=
  let n := s.node d k
  match s.graphAt d n.gid with
  | none => none
  | some g =>
    (s.makeFlock d k site).bind fun s1 =>
      ((s1.drv d).takePages n.fold (ctxPages cls + 1)).map fun r =>
        let s2 := (s1.setDrv d r.2).zeroPage d n.fold (r.1 + ctxPages cls)
        ({ TeamSt.reset with
            id := some { cls := cls, drv := d, slot := k, inst := inst, cnt := n.count, fold := n.fold, asid := g.asidOf n.fold,
                         lid := BitVec.ofNat 64 lid, ctx := r.1 * 65536, loc := (r.1 + ctxPages cls) * 65536, fw := false },
            locsz := 65536, waitth := (s2.fold d n.fold).waitmax.setWidth 64 }, s2)

/-! ### Dispatch (R374 to R376, R380) -/

/-- Whether an away team is one of a node that is ready for dispatch. -/
def awayReady (k : Nat) (a : Away) : Bool :=
  a.ready && !a.dead && (match a.team.id with | some i => i.slot == k && !i.fw | none => false)

/-- Whether a node stands in a ready queue (R374). -/
def State.queued (s : State) (d : Nat) (k : Nat) (n : Node) : Bool :=
  n.used && ((n.st == .ready && decide (n.disp < n.count)) || (s.drv d).away.any (awayReady k))

/-- A requeued team dispatched (R188, R374). -/
def State.dispatchAway (s : State) (d k n : Nat) (a : Away) : Option State :=
  match a.team.id with
  | none => none
  | some i =>
    let nd := s.node d k
    let c := if a.fresh then s.pickCore d i.fold i.cls (s.nearSite d nd) false else s.homeCore d i a.from_
    c.map fun c =>
      let r := if a.fresh then (a.team, s) else s.ctxLoad c (textWords (s.drv d).gmem (if i.cls != runCls nd false then nd.vtext else nd.text)) a.team
      let s1 := (r.2.dropAway d n).loadPlane c nd r.1 d a.fresh none
      s1.setNode d k { nd with agedAt := s.cyc }

/-- The running launch of a node's graph. -/
def State.launchOf (s : State) (d gi : Nat) : Nat :=
  match s.graphAt d gi with
  | some g => (g.launches.head?.map (·.lid)).getD 0
  | none => 0

/-- A node dispatched (R372): DISPATCHED counts the instance, and the last one brings the node to RUNNING with PCUR at PBASE. -/
def dispatched (n : Node) (cyc : Nat) : Node :=
  let last := decide (n.count ≤ n.disp + 1)
  { n with disp := n.disp + 1, st := if last then .running else n.st, pcur := if last then n.pbase else n.pcur, agedAt := cyc }

/-- The lowest undispatched instance of a node dispatched (R374, R376). -/
def State.dispatchNew (s : State) (d k : Nat) (var : Bool) : Option State :=
  let n := s.node d k
  let cls := runCls n var
  (s.pickCore d n.fold cls (s.nearSite d n) false).bind fun c =>
    (s.newTeam d k (nextInst n) (s.launchOf d n.gid) cls c.site).map fun r =>
      let m := r.2.node d k
      (r.2.setNode d k (dispatched m s.cyc)).loadPlane c m r.1 d true none

/-- The fault record of a node that no class can take (R372, R380, log 51). -/
def State.noClass (s : State) (d k : Nat) : Record :=
  { addr := 0, node := BitVec.ofNat 32 (d * 2 ^ 31 + k), inst := 0xFFFFFFFF, time := (s.nsAt (Config.drvSite d)).toNat % 2 ^ 48, code := .NO_CLASS, strand := 3,
    site := 0, core := 0, pc := 0, held := false, susp := false, aux := 0, handle := none }

/-- The next of a node dispatched (R374): a requeued team where one is present, else the undispatched instance of lowest index. None where it
cannot be had now. -/
def State.dispatchNext (s : State) (d k : Nat) (var : Bool) : Option State :=
  match (s.drv d).away.findIdx? (awayReady k) with
  | some j => (s.awayAt d j).bind fun a => s.dispatchAway d k j a
  | none => s.dispatchNew d k var

/-- A node's text chosen for its launch (R380): a node that no class can take fails. -/
def State.chooseNode (s : State) (d k : Nat) : State :=
  let n := s.node d k
  match s.chooseText d n with
  | none => (s.raiseRecord d (s.noClass d k)).finishNode d k .failed
  | some v => s.setNode d k { n with variant := some v }

/-- Whether a node stands before another in the choice of R374: the higher PCUR, and then the one that has waited longest. -/
def beforeNode (a b : Nat × Node) : Bool := decide (b.2.pcur < a.2.pcur) || (a.2.pcur == b.2.pcur && decide (a.2.readyAt ≤ b.2.readyAt))

/-- A node put into its place in the order of choice. -/
def insertNode (a : Nat × Node) : List (Nat × Node) → List (Nat × Node)
  | [] => [a]
  | b :: t => if beforeNode a b then a :: b :: t else b :: insertNode a t

/-- The class number of the ready queues in which a node stands: 0 for one whose number names no class (R3, log 51). -/
def nodeQueue (n : Node) : Nat := if (Config.numCls n.cls).isSome then n.cls else 0

/-- The queued nodes of a class in the order of choice (R374). -/
def State.readyNodes (s : State) (d cls : Nat) : List (Nat × Node) :=
  (((s.drv d).nodes.filter fun e => nodeQueue e.2 == cls && s.queued d e.1 e.2)).foldr insertNode []

/-- The class on which a node's instances are to run now. -/
def nodeCls (n : Node) : Cls := runCls n (n.variant.getD false)

/-- Whether some core of a class in a fold has an EMPTY shadow plane (R374, R378). -/
def State.anyFree (s : State) (d f : Nat) (k : Cls) : Bool :=
  (s.foldDies d f k).any fun x => (s.servingCores d x).any s.planeFree

/-- Whether a node is considered at a dispatch opportunity: its fold has a free shadow plane on a die of the class on which it runs (R374). -/
def State.considered (s : State) (d : Nat) (n : Node) : Bool := s.foldOn d n.fold && s.anyFree d n.fold (nodeCls n)

/-- Whether a node stands at the head of its ready queue, the nodes of other folds that are not considered left out (R374, R380). -/
def State.atHead (s : State) (d : Nat) (l : List (Nat × Node)) (e : Nat × Node) : Bool :=
  (l.takeWhile fun x => x.1 != e.1).all fun x => x.2.pcur != e.2.pcur || (x.2.fold != e.2.fold && !s.considered d x.2)

/-- The queued nodes of a class, those of some folds left out. -/
def State.nodesBut (s : State) (d cls : Nat) (no : List Nat) : List (Nat × Node) := (s.readyNodes d cls).filter fun e => !no.contains e.2.fold

/-- Every node of a class that has reached the head of its queue with its text chosen (R380). -/
def State.chooseHeads (s : State) (d cls : Nat) (no : List Nat) : State :=
  let l := s.nodesBut d cls no
  (l.filter fun e => e.2.variant.isNone && s.foldOn d e.2.fold && s.atHead d l e).foldl (fun (u : State) e => u.chooseNode d e.1) s

/-- The node that a dispatch opportunity for a class takes: of those whose text is chosen, the first that is considered (R374). -/
def State.nextNode (s : State) (d cls : Nat) (no : List Nat) : Option (Nat × Node) :=
  (s.nodesBut d cls no).find? fun e => e.2.variant.isSome && s.considered d e.2

/-- A dispatch opportunity for a class (R374, R376, R380): the heads of its queues get their texts, and the first node that is considered is
served. One of which nothing can be had now, for want of pages, of a flock entry or of a core of its team's cluster, keeps its place (R387)
and holds back the nodes of its own fold alone (R396, log 71, DEDUCED); `n` bounds the folds. -/
def State.serveClass (s : State) (d cls : Nat) : Nat → List Nat → State
  | 0, _ => s
  | n + 1, no =>
    let u := s.chooseHeads d cls no
    match u.nextNode d cls no with
    | none => u
    | some e =>
      match u.dispatchNext d e.1 (e.2.variant.getD false) with
      | some v => v
      | none => u.serveClass d cls n (e.2.fold :: no)

/-- `NODE_DISPATCH` (R374, R376, R380). -/
def execNodeDispatch (s : State) : Host.Outcome State Fault Refusal := .next (s.serveClass s.ev.site s.ev.n 8 [])

/-! ### Ageing (R278, R375, R378, R411) -/

/-- The fold that a step's operand names. -/
def State.evFold (s : State) : Nat := (s.ev.fold.getD 0) % 8

/-- The team that R378 pre-empts: the most recently dispatched resident team of the class and fold whose node has a lower PBASE. -/
def State.victim (s : State) (n : Node) : Option CoreId :=
  ((s.cores.filter fun e => e.2.run && e.2.leave.isNone && (match e.2.team.id with
      | some i => !i.fw && i.fold == n.fold && i.cls == nodeCls n && decide ((s.node i.drv i.slot).pbase < n.pbase)
      | none => false)).foldl (fun (m : Option (Nat × CoreSt)) e => match m with
    | some b => if b.2.team.order < e.2.team.order then some e else some b
    | none => some e) none).map fun e => ⟨e.1 / 128, e.1 % 128⟩

/-- A queued node at the end of an ageing interval of its own (R375, R378). -/
def State.ageNode (s : State) (d k age : Nat) : State :=
  let n := s.node d k
  if !s.queued d k n || decide (s.cyc < n.agedAt + age) then s
  else
    let s1 := s.setNode d k { n with agedAt := n.agedAt + age, pcur := min 7 (n.pcur + 1) }
    if n.pcur == 7 && n.st == .ready && decide (n.disp < n.count) && !s.anyFree d n.fold (nodeCls n) then
      match s.victim n with
      | some c => s1.preempt c
      | none => s1
    else s1

/-- The nodes of a fold aged. -/
def State.ageNodes (s : State) (d f : Nat) : State :=
  (((s.drv d).nodes.filter fun e => e.2.used && e.2.fold == f).map (·.1)).foldl
    (fun (u : State) k => u.ageNode d k (s.fold d f).age.toNat) s

/-- A swapped team with a polled wait, whose ageing interval has ended (R278). -/
def polledOver (f : Nat) (a : Away) : Away :=
  match a.team.id with
  | some i => if i.fold == f then a.met fun w => match w with | .polled _ => true | _ => false else a
  | none => a

/-- AGE of the pending UNMAPPED QCBs of a fold advanced (R411). -/
def ageQcbs (f : Nat) (v : Drover) : Tab Qcb :=
  tmap (fun q b => if tget false v.pend q && b.st == 1 && b.fold.toNat == f then { b with age := b.age + 1 } else b) v.qcbs

/-- The end of a fold's ageing interval at a drover, where it has come (R278, R411). -/
def State.ageFold (s : State) (d f : Nat) : State :=
  let v := s.drv d
  let at_ := tget 0 v.ageAt f + (s.fold d f).age.toNat
  if s.cyc < at_ then s
  else s.setDrv d { v with ageAt := tset v.ageAt f at_, away := v.away.map (polledOver f), qcbs := ageQcbs f v }

/-- `AGEING_INTERVAL` (R375): ageing of a fold's nodes, teams and queues at both drovers. -/
def execAgeingInterval (s : State) : Host.Outcome State Fault Refusal :=
  let f := s.evFold
  .next (((s.ageNodes 0 f).ageFold 0 f).ageNodes 1 f |>.ageFold 1 f)

/-! ### Preplacement, timed and gang launches (R391, R395) -/

/-- The text choice of a node for a launch that has not started: that of its preplaced instances, else a new one. -/
def State.preText (s : State) (d lid k : Nat) (n : Node) : Option Bool :=
  if (s.preplacedOf d lid k).isEmpty then s.chooseText d n else n.variant

/-- One more instance of a node of the first wave preplaced, the one of lowest index that is not (R288), where there is an idle core for it
(R391). -/
def State.preplaceOne (s : State) (d lid k : Nat) : Option State :=
  let n := s.node d k
  let have_ := s.preplacedOf d lid k
  if n.preds != 0 || decide (n.count ≤ have_.length) || !s.foldOn d n.fold then none
  else (s.preText d lid k n).bind fun var =>
    (s.pickCore d n.fold (runCls n var) (s.nearSite d n) true).bind fun c =>
      (s.newTeam d k (leftOut have_ 0) lid (runCls n var) c.site).map fun r =>
        let m := r.2.node d k
        (r.2.setNode d k { m with variant := some var }).loadPlane c m r.1 d true (some (d, lid))

/-- The next instance of the first wave preplaced, nodes in index order, of one fold or of all. -/
def State.preplaceNext (s : State) (d : Nat) (g : Graph) (lid : Nat) (f : Option Nat) : Option State :=
  g.nodes.findSome? fun k =>
    if (match f with | some x => (s.node d k).fold == x | none => true) then s.preplaceOne d lid k else none

/-- The first wave of a graph in a fold: its nodes without a predecessor. -/
def State.firstWave (s : State) (d : Nat) (g : Graph) (f : Nat) : List Nat :=
  g.nodes.filter fun k => (s.node d k).fold == f && (s.node d k).preds == 0

/-- The folds of a graph in ascending number. -/
def foldsOf (g : Graph) : List Nat := (List.range 8).filter fun f => bit g.mask f

/-- The nodes of a graph in a fold whose flock is still to be made. -/
def State.flocksToMake (s : State) (d : Nat) (g : Graph) (f : Nat) : Nat :=
  (g.nodes.filter fun k => (s.node d k).fold == f && (s.node d k).flkreq && (s.node d k).flock.isNone).length

/-- The free flock entries of a fold's dies. -/
def State.flocksFree (s : State) (d f : Nat) : Nat := ((s.flockDies d f).map fun x => 256 - (s.die x).flocks.length).foldl (· + ·) 0

/-- The node slots of a fold that are in use on a drover die (R392). -/
def State.slotsUsed (s : State) (d f : Nat) : Nat := ((s.drv d).nodes.filter fun e => e.2.used && e.2.fold == f).length

/-- The node slots of a fold's share on a drover die (R392). -/
def FoldDesc.share (f : FoldDesc) (d : Nat) : Nat := 16 * (if d == 0 then f.slot0 else f.slot1).toNat

/-- Whether a fold refuses a gang launch (R395): it is not enabled, its node-slot share is exceeded, or it has too few flock entries for the
nodes that ask for one. -/
def State.foldRefuses (s : State) (d : Nat) (g : Graph) (f : Nat) : Bool :=
  !s.foldOn d f || decide ((s.fold d f).share d < s.slotsUsed d f) || decide (s.flocksFree d f < s.flocksToMake d g f)

/-- Whether a fold's first wave is preplaced, each of its nodes in part at least (R391, R395). -/
def State.foldReady (s : State) (d : Nat) (g : Graph) (lid f : Nat) : Bool :=
  (s.firstWave d g f).all fun k => !(s.preplacedOf d lid k).isEmpty

/-- The first launch of a graph changed. -/
def State.setLaunch (s : State) (d gi : Nat) (l : Launch) : State :=
  match s.graphAt d gi with
  | some g => s.setGraph d gi { g with launches := l :: g.launches.drop 1 }
  | none => s

/-- Every plane preplaced for a launch back to EMPTY (R395). -/
def State.unplace (s : State) (d lid : Nat) : State :=
  (s.preplaced d lid).foldl (fun (u : State) e => u.cancelPlane ⟨e.1 / 128, e.1 % 128⟩) s

/-- A gang launch rolled back (R395): its planes EMPTY, its flocks freed, and the launch ended with status 4. -/
def State.rollBack (s : State) (d gi : Nat) (g : Graph) (l : Launch) : Except Hold State :=
  (g.nodes.foldl (fun (u : State) k => u.freeNodeFlock d k) (s.unplace d l.lid)).endLaunch d gi 4

/-- The reserve step of a gang launch (R395): the lowest fold that is not reserved refuses, which rolls the launch back at once, preplaces one
more instance, or is reserved. -/
def State.reserveStep (s : State) (d gi : Nat) (g : Graph) (l : Launch) : State :=
  match (foldsOf g).find? fun f => !l.reserved.contains f with
  | none => s
  | some f =>
    if s.foldRefuses d g f then s.orWaited (s.rollBack d gi g l)
    else match s.preplaceNext d g l.lid (some f) with
      | some s1 => s1
      | none => if s.foldReady d g l.lid f then s.setLaunch d gi { l with reserved := l.reserved ++ [f] } else s

/-- `TIMED_LAUNCH_PREPLACE` (R391, R395): from T - 50 µs a timed launch preplaces its first wave, one instance a step; a gang launch
reserves from its trigger on. -/
def execTimedLaunchPreplace (s : State) : Host.Outcome State Fault Refusal :=
  let d := s.ev.site
  let gi := s.ev.n
  .next (match s.nextLaunch d gi with
    | none => s
    | some (g, l) =>
      if isGang g then (if l.commit.isNone then s.reserveStep d gi g l else s)
      else match l.req.time with
        | some t => if t ≤ (s.nsAt (Config.drvSite d)).toNat + 50000 then (s.preplaceNext d g l.lid none).getD s else s
        | none => s)

/-- A launch with preplaced planes started: every one of them flips that is READY (R391, R395). -/
def State.fireLaunch (s : State) (d gi lid : Nat) : State :=
  (s.preplaced d lid).foldl (fun (u : State) e => u.flip ⟨e.1 / 128, e.1 % 128⟩) (s.startLaunch d gi)

/-- `TIMED_LAUNCH_FIRE` (R391): the launch starts once the trigger time has come. -/
def execTimedLaunchFire (s : State) : Host.Outcome State Fault Refusal :=
  .next (match s.nextLaunch s.ev.site s.ev.n with
    | some (g, l) => match l.req.time with
      | some t => if !isGang g && decide (t ≤ (s.nsAt (Config.drvSite s.ev.site)).toNat) then s.fireLaunch s.ev.site s.ev.n l.lid else s
      | none => s
    | none => s)

/-- Whether a gang launch's 100 µs are over (R395). -/
def State.gangLate (s : State) (l : Launch) : Bool := decide (l.arrived + 100000 < s.runNs)

/-- `GANG_COMMIT` (R395): every fold is reserved in time, and the start time is fixed. -/
def execGangCommit (s : State) : Host.Outcome State Fault Refusal :=
  .next (match s.nextLaunch s.ev.site s.ev.n with
    | some (g, l) =>
      if isGang g && l.commit.isNone && ((foldsOf g).all fun f => l.reserved.contains f) && !s.gangLate l then
        s.setLaunch s.ev.site s.ev.n { l with commit := some (l.req.time.getD ((s.nsAt (Config.drvSite s.ev.site)).toNat + 1000)) }
      else s
    | none => s)

/-- `GANG_ROLLBACK_TIMEOUT` (R395): 100 µs have passed, or a fold of the launch is not enabled, before every fold was reserved. -/
def execGangRollbackTimeout (s : State) : Host.Outcome State Fault Refusal :=
  .next (match s.nextLaunch s.ev.site s.ev.n with
    | some (g, l) =>
      if isGang g && l.commit.isNone && (s.gangLate l || (foldsOf g).any fun f => !s.foldOn s.ev.site f) then
        s.orWaited (s.rollBack s.ev.site s.ev.n g l)
      else s
    | none => s)

/-- `GANG_START` (R395): at the start time every preplaced plane of every fold is free to flip, and the launch runs. -/
def execGangStart (s : State) : Host.Outcome State Fault Refusal :=
  .next (match s.nextLaunch s.ev.site s.ev.n with
    | some (g, l) => match l.commit with
      | some t => if isGang g && decide (t ≤ (s.nsAt (Config.drvSite s.ev.site)).toNat) then s.fireLaunch s.ev.site s.ev.n l.lid else s
      | none => s
    | none => s)

end Sys2Proof.Machine
end

