-- ==== Sys2Proof/Machine/Graphs.lean ====
section
/-! DEFINITION. Graph images, their upload and unload, and triggers of launches (R62 to R66, R369 to R371, R377, R381, R388 to R390). -/

namespace Sys2Proof.Machine

/-! ### Images (R369) -/

/-- A little-endian field of an image. -/
def imgNat (b : List Byte) (o n : Nat) : Nat := leNat ((b.drop o).take n)

/-- A 64-bit word of an image. -/
def imgWord (b : List Byte) (o : Nat) : W64 := BitVec.ofNat 64 (imgNat b o 8)

/-- Whether a range of an image is zero. -/
def imgZero (b : List Byte) (o n : Nat) : Bool := ((b.drop o).take n).all (· == 0)

/-- The header of an image. -/
structure Header where
  nodes : Nat
  bufs  : Nat
  mask  : Nat
  node  : Nat
  buf   : Nat
  brand : Nat
  text  : Nat
  param : Nat
  succ  : Nat
  data  : Nat
  size  : Nat
deriving DecidableEq, Repr

/-- An image's header read. -/
def headerOf (b : List Byte) : Header :=
  { nodes := imgNat b 4 2, bufs := imgNat b 6 2, mask := imgNat b 8 1, node := imgNat b 0x10 8, buf := imgNat b 0x18 8,
    brand := imgNat b 0x20 8, text := imgNat b 0x28 8, param := imgNat b 0x30 8, succ := imgNat b 0x38 8, data := imgNat b 0x40 8,
    size := imgNat b 0x48 8 }

/-- Whether a header is as R369 states, with every area inside the image. -/
def headerOk (b : List Byte) (h : Header) : Bool :=
  decide (0x80 ≤ b.length) && imgNat b 0 4 == 1 && decide (1 ≤ h.nodes) && decide (h.nodes ≤ 4096) && decide (h.bufs ≤ 4096) &&
  imgZero b 9 7 && imgZero b 0x50 48 && decide (h.size ≤ b.length) && decide (h.size ≤ 64 * 2 ^ 20) &&
  decide (h.node + 64 * h.nodes ≤ h.size) && decide (h.buf + 32 * h.bufs ≤ h.size) && decide (h.brand + 64 * h.nodes ≤ h.size) &&
  decide (h.param + 128 * h.nodes ≤ h.size) && decide (h.text ≤ h.size) && decide (h.succ ≤ h.size) && decide (h.data ≤ h.size)

/-- The word `k` of a node record. -/
def recWord (b : List Byte) (h : Header) (i k : Nat) : W64 := imgWord b (h.node + 64 * i + 8 * k)

/-- Whether a text word names words inside the image, at most 16 384 of them. -/
def textOk (h : Header) (w : W64) : Bool := decide (fieldW w 31 0 + 4 * fieldW w 47 32 ≤ h.size) && decide (fieldW w 47 32 ≤ 16384)

/-- The successors of a node in an image, by index. -/
def imgSuccs (b : List Byte) (h : Header) (i : Nat) : List Nat :=
  let w := recWord b h i 7
  ((List.range (fieldW w 63 48)).map fun k => imgNat b (fieldW w 47 0 + 2 * k) 2).eraseDups

/-- The binding of a slot of a node in an image: a buffer index, none where it is unbound. -/
def imgBind (b : List Byte) (h : Header) (i j : Nat) : Option Nat :=
  let v := imgNat b (h.brand + 64 * i + 4 * j) 4
  if v == 0xFFFFFFFF then none else some v

/-- Whether a class may have a variant text of another (R65, R380). -/
def variantOk (cls v : Nat) : Bool := v == 0 || (v == 2 && (cls == 1 || cls == 3 || cls == 4))

/-- Whether a node record is as R64, R65, R369 and R370 state. A class that names no engine does not refuse the image: the node fails when it is
to be dispatched (R3, log 51). -/
def nodeOk (b : List Byte) (h : Header) (i : Nat) : Bool :=
  let w0 := recWord b h i 0
  let w1 := recWord b h i 1
  let w2 := recWord b h i 2
  let cls := fieldW w0 7 4
  let v := fieldW w0 11 8
  fieldW w0 3 0 == 0 && fieldW w0 63 32 == 0 && fieldW w0 31 23 == 0 && fieldW w0 15 15 == 0 &&
  variantOk cls v && decide (1 ≤ fieldW w1 31 0) && decide (fieldW w1 31 0 ≤ 65536) && fieldW w1 63 32 == 0 && w2 == 0 &&
  textOk h (recWord b h i 3) && decide (1 ≤ fieldW (recWord b h i 3) 47 32) &&
  (v == 0 || (textOk h (recWord b h i 4) && decide (1 ≤ fieldW (recWord b h i 4) 47 32))) &&
  decide ((recWord b h i 5).toNat + 128 ≤ h.size) && decide ((recWord b h i 6).toNat + 64 ≤ h.size) &&
  decide (fieldW (recWord b h i 7) 47 0 + 2 * fieldW (recWord b h i 7) 63 48 ≤ h.size) &&
  ((imgSuccs b h i).all fun k => decide (k < h.nodes)) &&
  ((List.range 16).all fun j => match imgBind b h i j with | some k => decide (k < h.bufs) | none => true)

/-- Whether a buffer record is as R64 and R369 state (log 12: size, fold, offset and length of the initial data). -/
def bufOk (b : List Byte) (h : Header) (i : Nat) : Bool :=
  let o := h.buf + 32 * i
  let n := imgNat b o 8
  decide (1 ≤ n) && decide (n ≤ 2 ^ 40) && decide (imgNat b (o + 8) 8 < 8) && decide (imgNat b (o + 24) 8 ≤ n) &&
  decide (h.data + imgNat b (o + 16) 8 + imgNat b (o + 24) 8 ≤ h.size)

/-- One round of taking out the nodes that no remaining node precedes. -/
def peel (b : List Byte) (h : Header) (l : List Nat) : List Nat :=
  let after := l.flatMap (imgSuccs b h)
  l.filter fun k => after.contains k

/-- Rounds of `peel`. -/
def peelAll (b : List Byte) (h : Header) : Nat → List Nat → List Nat
  | 0, l => l
  | n + 1, l => peelAll b h n (peel b h l)

/-- Whether a node names a buffer in a range of its slots. -/
def namesBuf (b : List Byte) (h : Header) (i from_ : Nat) (k : Nat) : Bool :=
  (List.range 8).any fun j => imgBind b h i (from_ + j) == some k

/-- Whether an image holds the edges of R65: from every node that names a buffer in an output slot to every node that names it in an input
slot. -/
def bufEdges (b : List Byte) (h : Header) : Bool :=
  (List.range h.nodes).all fun i => (List.range 8).all fun j => match imgBind b h i (8 + j) with
    | none => true
    | some k => (List.range h.nodes).all fun x => !namesBuf b h x 0 k || (imgSuccs b h i).contains x

/-- Whether an image breaks no rule of R64, R65 and R369: its edges hold no cycle and follow its buffers, and its fold mask is that of its
nodes. -/
def imageOk (b : List Byte) (h : Header) : Bool :=
  headerOk b h && ((List.range h.nodes).all fun i => nodeOk b h i) && ((List.range h.bufs).all fun i => bufOk b h i) &&
  (peelAll b h h.nodes (List.range h.nodes)).isEmpty && bufEdges b h &&
  ((List.range 8).all fun f => bit h.mask f == (List.range h.nodes).any fun i => fieldW (recWord b h i 0) 14 12 == f)

/-! ### Upload (R371, R377, R381) -/

/-- The place of an image in graph memory: the lowest one that is free. -/
def gmemPlace (v : Drover) (size : Nat) : Option Nat :=
  let ends := 0 :: v.graphs.map fun e => e.2.base + (e.2.size + 63) / 64 * 64
  let fits := ends.filter fun b => decide (b + size ≤ Config.graphMemory) && v.graphs.all fun e => !overlaps b size e.2.base e.2.size
  match fits with
  | [] => none
  | x :: t => some (t.foldl min x)

/-- Whether a fold's share has room for a graph's nodes (R371, R392). -/
def State.shareOk (s : State) (d f need_ : Nat) : Bool :=
  decide (s.slotsUsed d f + need_ ≤ (s.fold d f).share d)

/-- The lowest free node slots. -/
def freeSlots (v : Drover) (n : Nat) : List Nat := ((List.range 65536).filter fun k => !(tget Node.reset v.nodes k).used).take n

/-- The lowest free buffer records (R381). -/
def freeBufs (v : Drover) (n : Nat) : List Nat := ((List.range 65536).filter fun k => !(tget Buf.reset v.bufs k).live).take n

/-- The lowest ASID of a fold that no loaded graph of the fold holds (R377). -/
def State.freeAsid (s : State) (d f : Nat) : Option Nat :=
  let x := s.fold d f
  ((List.range x.acnt.toNat).map fun k => x.abase.toNat + k).find? fun a =>
    !s.drovers.any fun e => e.2.graphs.any fun g => g.2.asids.contains (f, a)

/-- The ASIDs of a graph's folds; none where a fold has no free one. -/
def State.takeAsids (s : State) (d : Nat) : List Nat → Option (List (Nat × Nat))
  | [] => some []
  | f :: t => match s.freeAsid d f, s.takeAsids d t with
    | some a, some l => some ((f, a) :: l)
    | _, _ => none

/-- Whether pages that the outside gives to a buffer may be its own: they lie in the fold's window, outside every BPOOL of the fold, and
in no other buffer (R315, R381, R398). -/
def State.pagesFree (s : State) (d f page n : Nat) : Bool :=
  s.inWindow (Config.drvSite d) f page && s.inWindow (Config.drvSite d) f (page + n - 1) &&
  ((List.range 2).all fun e => (List.range n).all fun k => !inPool (s.drv e) f (page + k)) &&
  s.drovers.all fun e => e.2.bufs.all fun b => !b.2.live || !overlaps page n (b.2.pa / 65536) (pagesOf b.2.len)

/-- What keeps an upload from being made: what it has to wait for, or the answer of a refused one. -/
inductive UpStop
  | wait (h : Hold)
  | answer (r : Reply)
deriving DecidableEq, Repr

/-- The answer of an upload that finds a fold's share, a table or a pool exhausted (R371, R377, R419). -/
def tableFull : UpStop := .answer (.failed 0x86)

/-- The initial data of a buffer written (R62): an upload whose data cannot be written yet waits, and one whose data meet a fault is refused
(log 52). -/
def State.putData (s : State) (d page : Nat) (data : List Byte) : Except UpStop State :=
  if data.isEmpty then .ok s
  else match s.doStore (drvWho d) (.mem (page * 65536) .home) data 0 with
    | .ok u => .ok u
    | .error (.stall h) => .error (.wait h)
    | .error (.fault _) => .error (.answer .refused)

/-- A graph's buffers made (R62, R66, R381), each in the record that stands for it, at the pages that the outside names or else at pages of
the fold's BPOOL. The record holds the size as the image states it (log 52). -/
def State.makeBufs (s : State) (d gid : Nat) (b : List Byte) (h : Header) (pages : List Nat) : List Nat → Nat → Except UpStop State
  | [], _ => .ok s
  | r :: t, i =>
    let o := h.buf + 32 * i
    let len := imgNat b o 8
    let f := imgNat b (o + 8) 8
    let got : Option (Nat × State) := match pages[i]? with
      | some p => if s.pagesFree d f p (pagesOf len) then some (p, s) else none
      | none => ((s.drv d).takePages f (pagesOf len)).map fun q => (q.1, s.setDrv d q.2)
    match got with
    | none => .error tableFull
    | some (p, u) => do
      let gen := match tget? (s.drv d).bufs r with | some x => x.gen | none => 1
      let v := u.setBuf d r { pa := p * 65536, len := len, count := 0, gen := gen, fold := f, rights := 0x1F, graphOwned := true,
                              gid := some gid, live := true, freeing := false }
      let x ← v.putData d p ((b.drop (h.data + imgNat b (o + 16) 8)).take (imgNat b (o + 24) 8))
      x.makeBufs d gid b h pages t (i + 1)

/-- A format table of 16 entries. -/
def fmtTable (b : List Byte) (o : Nat) : Tab W32 := (List.range 16).map fun k => (k, BitVec.ofNat 32 (imgNat b (o + 4 * k) 4))

/-- A node slot filled from its record, its offsets rebased into graph memory (R370). The format tables of its texts (R63, R84) stand behind
the image, 128 bytes a node, for which R369 has no area (log 55, DESIGN CHOICE). -/
def nodeFrom (b : List Byte) (h : Header) (gi base i : Nat) (bufs : List Nat) : Node :=
  let w0 := recWord b h i 0
  let rebase := fun (w : W64) => w + BitVec.ofNat 64 base
  { Node.reset with
    used := true, gid := gi, fold := fieldW w0 14 12, cls := fieldW w0 7 4, vclass := fieldW w0 11 8, flkreq := bit w0.toNat 16,
    pbase := fieldW w0 19 17, pcur := fieldW w0 22 20, count := fieldW (recWord b h i 1) 31 0,
    text := rebase (recWord b h i 3), vtext := if fieldW w0 11 8 == 0 then 0 else rebase (recWord b h i 4),
    param := rebase (recWord b h i 5), brands := rebase (recWord b h i 6), nsucc := fieldW (recWord b h i 7) 63 48,
    succ := fieldW (recWord b h i 7) 47 0 + base,
    preds := ((List.range h.nodes).filter fun j => (imgSuccs b h j).contains i).length,
    bound := (List.range 16).filterMap fun j => (imgBind b h i j).map fun k => (j, bufs.getD k 0),
    fmt := fmtTable b (h.size + 128 * i), vfmt := fmtTable b (h.size + 128 * i + 64) }

/-- The folds of an image, in ascending number. -/
def Header.folds (h : Header) : List Nat := (List.range 8).filter fun f => bit h.mask f

/-- The nodes of an image in a fold. -/
def nodesIn (b : List Byte) (h : Header) (f : Nat) : Nat := ((List.range h.nodes).filter fun i => fieldW (recWord b h i 0) 14 12 == f).length

/-- A graph whole on a drover die (R371): index, slots, records, ASIDs, graph memory. The state is as it was where it is refused or waits. -/
def State.upload (s : State) (d : Nat) (b : List Byte) (pages : List Nat) : Except UpStop State :=
  let h := headerOf b
  let v := s.drv d
  let slots := freeSlots v h.nodes
  let bufs := freeBufs v h.bufs
  if !imageOk b h then .error (.answer .refused)
  else if !(h.folds.all fun f => s.shareOk d f (nodesIn b h f)) || slots.length != h.nodes || bufs.length != h.bufs then .error tableFull
  else match gmemPlace v h.size, s.takeAsids d h.folds, tfree v.graphs 65536 with
    | none, _, _ => .error (.answer .refused)
    | some base, some asids, some gi => do
      let u ← s.makeBufs d (d * 2 ^ 31 + gi) b h pages bufs 0
      let u1 := (List.zip slots (List.range h.nodes)).foldl (fun (x : State) e => x.setNode d e.1 (nodeFrom b h gi base e.2 bufs)) u
      let w := u1.drv d
      let u2 := (u1.setDrv d { w with gmem := cwrite w.gmem base (b.take h.size) }).setGraph d gi
        { nodes := slots, bufs := bufs, mask := h.mask, asids := asids, launches := [], base := base, size := h.size }
      .ok { u2 with reply := .graph (d * 2 ^ 31 + gi) }
    | _, _, _ => .error tableFull

/-- A request that a step of the drover serves put off until it can be served. -/
def State.askAgain (s : State) (i : Instr) : State := s.putOff (.step i s.ev)

/-- `GRAPH_UPLOAD` (R369 to R371): an upload is whole, or refused and nothing of it stays; it is answered with the graph's id or, where the
rule names one, with a code. -/
def execGraphUpload (s : State) : Host.Outcome State Fault Refusal :=
  .next (match s.upload s.ev.site s.ev.bytes s.ev.list with
    | .ok u => u
    | .error (.answer r) => { s with reply := r }
    | .error (.wait h) => (s.waited h).askAgain .graphUpload)

/-! ### Unload (R371, R377) -/

/-- A buffer of an unloaded graph freed with its record, and its pages back in BPOOL where they came from it. -/
def State.unloadBuf (s : State) (d r : Nat) : State :=
  let b := s.buf d r
  (s.setBuf d r { b with graphOwned := false, gid := none, freeing := true }).finishFree d r

/-- The mappings of a graph's buffers ended, and their references with them (R385). -/
def State.endGraphBufs (s : State) (d : Nat) (g : Graph) : State :=
  g.bufs.foldl (fun (u : State) r => if 0 < (u.buf d r).count then u.freeBuf d r else u.endWindows (d * 65536 + r)) s

/-- Whether no mapping of a graph's ASIDs or of its buffers stands any more. -/
def State.graphUnmapped (s : State) (d : Nat) (g : Graph) : Bool :=
  s.drovers.all fun e => e.2.wins.all fun x =>
    !((e.1 == d && g.asids.contains (x.fold, x.asid)) || g.bufs.any fun r => x.buf == d * 65536 + r) || (x.ended && !x.busy)

/-- The tables of a graph's open windows: their entries made invalid, and their pages back in BPOOL (R377); or what
a write has to wait for. -/
def State.returnTables (s : State) (d : Nat) (g : Graph) : Except Hold State :=
  let mine := (s.drv d).tables.filter fun t => g.asids.contains (t.fold, t.asid)
  let s1 := mine.foldl (fun (u : Except Hold State) t => u.bind fun v =>
    match v.cohWrite (winWho d t.fold t.asid).walker .home t.at_ (leBytes 8 0) 0 with
    | .ok w => .ok w
    | .error (.stall h) => .error h
    | .error (.fault _) => .ok v) (.ok s)
  s1.map fun v => v.setDrv d (mine.foldl (fun (x : Drover) t => x.givePages t.fold t.page 1)
    { v.drv d with tables := (v.drv d).tables.filter fun t => !g.asids.contains (t.fold, t.asid),
                   wins := (v.drv d).wins.filter fun x => !g.asids.contains (x.fold, x.asid) })

/-- A graph that nothing uses any more taken off its drover (R371): slots, records, tables, ASIDs and graph memory. -/
def State.unloadGraph (s : State) (d gi : Nat) (g : Graph) : State :=
  let s1 := g.bufs.foldl (fun (u : State) r => u.unloadBuf d r) (g.nodes.foldl (fun (u : State) k => u.dropSlots d k) s)
  let v := s1.drv d
  s1.setDrv d { v with nodes := tfilter (fun k _ => !g.nodes.contains k) v.nodes, graphs := tdel v.graphs gi,
                       gmem := cclear v.gmem g.base g.size }

/-- A graph's index in a graph id (R371): none where bits [30:16] are not zero. -/
def graphOf (gid : Nat) : Option (Nat × Nat) :=
  if gid < 2 ^ 32 && bits gid 30 16 == 0 then some (gid / 2 ^ 31, gid % 65536) else none

/-- `GRAPH_UNLOAD` (R371, R377): a graph without a running or queued launch is unloaded, once its mappings are gone; else the unload waits. -/
def execGraphUnload (s : State) : Host.Outcome State Fault Refusal :=
  let d := s.ev.site
  let gi := s.ev.n
  .next (match s.graphAt d gi with
    | none => s
    | some g =>
      if !g.launches.isEmpty then s.askAgain .graphUnload
      else
        let s1 := s.endGraphBufs d g
        if !s1.graphUnmapped d g then s1.askAgain .graphUnload
        else match s1.returnTables d g with
          | .error h => (s1.waited h).askAgain .graphUnload
          | .ok u => u.unloadGraph d gi g)

/-! ### Triggers (R388 to R390, R395) -/

/-- Entries of a patch list read and validated (R389): node index, parameter index and value. -/
def State.readEntries (s : State) (w : Who) (nodes : Nat) (p : W64) : Nat → Iss (List (Nat × Nat × W64) × State)
  | 0 => .ok ([], s)
  | n + 1 => do
    let a ← s.askWord w p
    let b ← a.2.askWord w (p + 8)
    need (a.1.toNat < 2 ^ 20 && decide (fieldW a.1 15 0 < nodes)) .RING_MALFORMED p 0
    let r ← b.2.readEntries w nodes (p + 16) n
    .ok ((fieldW a.1 15 0, fieldW a.1 19 16, b.1) :: r.1, r.2)

/-- A patch list read and validated (R389). -/
def State.readPatch (s : State) (w : Who) (nodes : Nat) (p : W64) : Iss (List (Nat × Nat × W64) × State) := do
  let h ← s.askWord w p
  need (h.1.toNat ≤ 4096) .RING_MALFORMED p 0
  h.2.readEntries w nodes (p + 8) h.1.toNat

/-- A launch accepted (R388): it gets its id and its place behind the graph's other launches, and is patched if it is the next. -/
def State.accept (s : State) (d gi : Nat) (g : Graph) (req : LaunchReq) (patches : List (Nat × Nat × W64)) : Nat × State :=
  let v := s.drv d
  let l : Launch := { req := req, patches := patches, lid := v.nextLid, started := false, startAt := 0, arrived := s.runNs,
                      patched := false, reserved := [], commit := none }
  (v.nextLid, ((s.setDrv d { v with nextLid := v.nextLid + 1 }).setGraph d gi { g with launches := g.launches ++ [l] }).patchNext d gi)

/-- A trigger validated (R390, R395): the launch id of an accepted launch, or the status of a rejected one; or what reading the
patch list has to wait for. The list is read from the drover die `at_`, and before the fold mask is compared (log 72, DESIGN CHOICE). -/
def State.triggerNow (s : State) (at_ : Nat) (req : LaunchReq) : Except Hold (Except Nat Nat × State) :=
  match graphOf req.gid with
  | none => .ok (.error 2, s)
  | some (d, gi) =>
    match s.graphAt d gi with
    | none => .ok (.error 2, s)
    | some g =>
      let w := askWho at_ req.asid req.fold
      match (if req.patch == 0 then .ok ([], s) else s.readPatch w g.nodes.length req.patch) with
      | .error (.stall h) => .error h
      | .error (.fault f) => .ok (.error 3, s.markBad f.bad)
      | .ok (l, u) =>
        if (match req.mask with | some m => m != g.mask | none => false) then .ok (.error 6, u)
        else
          let r := u.accept d gi g req l
          .ok (.ok r.1, r.2)

/-- The drover die that a graph id names. -/
def gidDrv (gid : Nat) : Nat := bits gid 31 31

/-- Whether an earlier trigger of a graph has arrived and waits (R388). -/
def State.asked (s : State) (gid : Nat) : Bool := (s.drv (gidDrv gid)).asks.any fun a => a.2.gid == gid

/-- A trigger that has arrived: it is validated unless an earlier one of its graph waits (R388). -/
def State.trigger (s : State) (at_ : Nat) (req : LaunchReq) : Except Hold (Except Nat Nat × State) :=
  if s.asked req.gid then .error .stall else s.triggerNow at_ req

/-- What a trigger gives, with the signal of a rejected launch, which is written at once (R408); or what something of it has to wait for. -/
def signalled (at_ : Nat) (req : LaunchReq) : Except Hold (Except Nat Nat × State) → Except Hold (Except Nat Nat × State)
  | .error h => .error h
  | .ok (.ok n, u) => .ok (.ok n, u)
  | .ok (.error st, u) => (u.signal at_ req st).map fun v => (.error st, v)

/-- A trigger with its signal. -/
def State.triggerSignal (s : State) (at_ : Nat) (req : LaunchReq) : Except Hold (Except Nat Nat × State) := signalled at_ req (s.trigger at_ req)

/-- A trigger of the host that has to wait, in its place behind the earlier ones of its graph (R388). -/
def State.keepAsk (s : State) (at_ : Nat) (req : LaunchReq) : State :=
  let d := gidDrv req.gid
  let u := s.setDrv d { s.drv d with asks := (s.drv d).asks ++ [(at_, req)] }
  if s.asked req.gid then u else u.putOff (.trigger d req.gid)

/-- The earliest waiting trigger of a graph tried again (R388). -/
def State.triggerAgain (s : State) (d gid : Nat) : State :=
  match (s.drv d).asks.find? fun a => a.2.gid == gid with
  | none => s
  | some a =>
    match signalled a.1 a.2 (s.triggerNow a.1 a.2) with
    | .error h => (s.waited h).putOff (.trigger d gid)
    | .ok r =>
      let u := r.2.setDrv d { r.2.drv d with asks := (r.2.drv d).asks.eraseP fun x => x.2.gid == gid }
      if u.asked gid then u.putOff (.trigger d gid) else u

/-- `LAUNCH_TRIGGER` (R388): a trigger write of the host, which waits where the reading of its patch list or its signal has to, and where an
earlier one of its graph waits. -/
def execLaunchTrigger (s : State) : Host.Outcome State Fault Refusal :=
  .next (match s.triggerSignal s.ev.site s.ev.launch with
    | .ok r => r.2
    | .error h => (s.waited h).keepAsk s.ev.site s.ev.launch)

end Sys2Proof.Machine
end

