-- ==== Sys2Proof/Machine/Queues.lean ====
section
/-! DEFINITION. User queues, packets and hardware queue slots, the packet processor, and fault records (R400 to R416, R490). -/

namespace Sys2Proof.Machine

/-! ### QCBs and slots (R409, R410) -/

/-- A QCB of a drover as its table holds it. -/
def State.qcb (s : State) (d q : Nat) : Qcb := tget Qcb.reset (s.drv d).qcbs q

/-- The state with a QCB changed. -/
def State.setQcb (s : State) (d q : Nat) (b : Qcb) : State := s.setDrv d { s.drv d with qcbs := tset (s.drv d).qcbs q b }

/-- A hardware queue slot. -/
def State.slot (s : State) (d k : Nat) : HwSlot := tget HwSlot.reset (s.drv d).slots k

/-- The state with a hardware queue slot changed. -/
def State.setSlot (s : State) (d k : Nat) (v : HwSlot) : State := s.setDrv d { s.drv d with slots := tset (s.drv d).slots k v }

/-- A QCB as it stands, live in its slot while it is MAPPED (R409). -/
def State.liveQ (s : State) (d q : Nat) : Qcb := liveQcb (s.drv d) q

/-- A QCB changed where it stands: in its slot while it is MAPPED, else in the table (R409, R423). -/
def State.setLive (s : State) (d q : Nat) (b : Qcb) : State :=
  let t := s.qcb d q
  if t.st == 2 then s.setSlot d t.slot.toNat { s.slot d t.slot.toNat with copy := b } else s.setQcb d q b

/-- Whether a QCB is corrupt (R409). -/
def State.qcbCorrupt (s : State) (d : Nat) (b : Qcb) : Bool :=
  decide (b.log2.toNat < 4) || decide (16 < b.log2.toNat) || b.base.toNat % 4096 != 0 || b.hdr.toNat % 16 != 0 ||
  !(tagNum b.base == 0 || tagNum b.base == 4) || !(tagNum b.hdr == 0 || tagNum b.hdr == 4) || !s.foldOn d b.fold.toNat

/-- The requester for a queue: in ASID ABASE of its fold (R490). -/
def State.queueWho (s : State) (d : Nat) (b : Qcb) : Who := askWho d (s.fold d b.fold.toNat).abase.toNat (some b.fold.toNat)

/-- The address of the packet at the read index (R400). -/
def packetAddr (b : Qcb) : W64 := b.base + BitVec.ofNat 64 (64 * (b.rdidx.toNat % 2 ^ b.log2.toNat))

/-! ### Packets (R404 to R407) -/

/-- A word of a packet. -/
def pw (l : List W32) (k : Nat) : W32 := l.getD k 0

/-- Two words of a packet as one. -/
def pw64 (l : List W32) (k : Nat) : W64 := pw l (k + 1) ++ pw l k

/-- The type of a packet. -/
def pktType (w0 : W32) : Nat := bits w0.toNat 31 24

/-- The words that R405 marks 0 for a type. -/
def zeroWords : Nat → List Nat
  | 1 => [4, 5]
  | 2 => [1, 4, 5]
  | 3 => [1, 2, 3, 4, 5]
  | 4 => [1, 4, 5, 8, 9, 10, 11, 12, 13, 14, 15]
  | 5 => [1, 2, 3, 4, 5, 8, 9, 10, 11, 12, 13, 14, 15]
  | _ => []

/-- Whether a type is that of a launch. -/
def isLaunch (t : Nat) : Bool := t == 1 || t == 2 || t == 6

/-- Whether a packet of a queue is malformed (R407). -/
def malformed (b : Qcb) (l : List W32) : Bool :=
  let w0 := (pw l 0).toNat
  let t := bits w0 31 24
  let n := bits w0 23 16
  let folds := bits w0 15 8
  decide (7 ≤ t) ||
  (isLaunch t && (decide (8 < n) || (List.range 8).any fun k => decide (n ≤ k) && pw l (8 + k) != 0)) ||
  (isLaunch t && (List.range 8).any fun k => decide (k < n) && bits (pw l (8 + k)).toNat 28 16 != 0) ||
  ((t == 3 || t == 4 || t == 5) && n != 0) ||
  decide (7 < bits w0 7 0) ||
  ((zeroWords t).any fun k => pw l k != 0) ||
  (folds != 0 && !bit folds b.fold.toNat) ||
  (t == 2 && !b.lgv)

/-- The launch that a packet asks for (R405, R406). -/
def State.pktReq (s : State) (d q : Nat) (b : Qcb) (l : List W32) : LaunchReq :=
  let w0 := (pw l 0).toNat
  let t := bits w0 31 24
  let folds := bits w0 15 8
  { gid := if t == 2 then b.lgraph.toNat else (pw l 1).toNat, patch := pw64 l 2, asid := (s.fold d b.fold.toNat).abase.toNat,
    fold := some b.fold.toNat, mask := some (if folds == 0 then 2 ^ b.fold.toNat else folds),
    time := if t == 6 then some (pw64 l 4).toNat else none, signal := pw64 l 6,
    buffers := (List.range (bits w0 23 16)).map fun k => pw l (8 + k), queue := some (d, q) }

/-- A QCB after a launch or timed-launch packet (R409). -/
def noteGraph (b : Qcb) (l : List W32) : Qcb :=
  let t := pktType (pw l 0)
  if t == 1 || t == 6 then { b with lgv := true, lgraph := pw l 1 } else b

/-- The four signal addresses of a barrier-and (R405). -/
def barrierAddrs (l : List W32) : List W64 := (List.range 4).map fun k => pw64 l (8 + 2 * k)

/-- The signal of a packet that is not a launch, as a request (R408). -/
def State.pktSignal (s : State) (d q : Nat) (b : Qcb) (l : List W32) : LaunchReq :=
  { LaunchReq.zero with asid := (s.fold d b.fold.toNat).abase.toNat, fold := some b.fold.toNat, signal := pw64 l 6, queue := some (d, q) }

/-- The value of a signal packet stored (R405): a failure is reported as that of a completion signal is. Else what it waits for. -/
def State.pktStore (s : State) (d q : Nat) (b : Qcb) (l : List W32) : Except Hold State :=
  let w := s.queueWho d b
  match s.askWrite w (pw64 l 6) (leBytes 8 (pw64 l 2).toNat) with
  | .ok u => .ok u
  | .error (.fault f) => .ok ((s.markBad f.bad).raiseRecord d (s.ringRecord d q f))
  | .error (.stall h) => .error h

/-- What a well-formed packet other than a barrier-and does (R405), with the outcome of a launch. Else what it waits for. -/
def State.runPacket (s : State) (d q : Nat) (b : Qcb) (l : List W32) : Except Hold (Option (Except Nat Nat) × State) :=
  let t := pktType (pw l 0)
  if isLaunch t then (s.triggerSignal d (s.pktReq d q b l)).map fun r => (some r.1, r.2)
  else if t == 4 then (s.pktStore d q b l).map fun u => (none, u)
  else if t == 5 then (s.signal d (s.pktSignal d q b l) 0).map fun u => (none, u)
  else .ok (none, s)

/-- Steps 3 and 4 of R402: w0 cleared, the read index raised and published. A fault leaves what the steps before it did. Else what a
write has to wait for. -/
def State.consumeAs (s : State) (w : Who) (b : Qcb) : Except Hold (Qcb × State × Option Flt) :=
  match s.askWrite w (packetAddr b) (leBytes 4 0) with
  | .error (.stall h) => .error h
  | .error (.fault f) => .ok (b, s.markBad f.bad, some f)
  | .ok u =>
    let b' : Qcb := { b with rdidx := b.rdidx + 1 }
    match u.askWrite w (b.hdr + 8) (leBytes 8 b'.rdidx.toNat) with
    | .error (.stall h) => .error h
    | .error (.fault f) => .ok (b', u.markBad f.bad, some f)
    | .ok v => .ok (b', v, none)

/-- A packet of a queue consumed. -/
def State.consume (s : State) (d : Nat) (b : Qcb) : Except Hold (Qcb × State × Option Flt) := s.consumeAs (s.queueWho d b) b

/-! ### The packet processor (R402, R413) -/

/-- A slot's serving stopped by a fault, until its next kick (R402). -/
def State.ringFault (s : State) (d k : Nat) (f : Flt) : State :=
  let v := s.slot d k
  (s.raiseRecord d (s.ringRecord d v.qcb f)).setSlot d k { v with look := false }

/-- A packet of a slot consumed: the slot's copy, and the fault that a step met. -/
def State.consumeSlot (s : State) (d k : Nat) (b : Qcb) : Except Hold State :=
  (s.consume d b).map fun r =>
    let v := r.2.1.slot d k
    let u := r.2.1.setSlot d k { v with copy := { r.1 with part := 0 }, barrier := none }
    match r.2.2 with
    | none => u
    | some f => u.ringFault d k f

/-- The w0 of the packet that a slot would serve next: none where it serves none now. -/
def State.nextW0 (s : State) (d k : Nat) : Option W32 :=
  let v := s.slot d k
  if v.st != .serving || !v.look || v.barrier.isSome then none
  else match s.askRead (s.queueWho d v.copy) (packetAddr v.copy) 4 4 with
    | .ok r => if leNat r.1 / 2 ^ 24 == 0 then none else some (BitVec.ofNat 32 (leNat r.1))
    | .error _ => none

/-- Whether one slot is chosen before another (R413): queue priority, packet priority, and then the oldest kick. -/
def State.slotFirst (s : State) (d : Nat) (k : Nat) (a : W32) (j : Nat) (b : W32) : Bool :=
  let x := s.slot d k
  let y := s.slot d j
  let px := x.copy.prio.toNat * 256 + bits a.toNat 7 0
  let py := y.copy.prio.toNat * 256 + bits b.toNat 7 0
  decide (py < px) || (px == py && decide (x.kicked ≤ y.kicked))

/-- Whether a slot is the choice of R413. -/
def State.isChoice (s : State) (d k : Nat) (a : W32) : Bool :=
  (List.range 64).all fun j => j == k || (match s.nextW0 d j with | some b => s.slotFirst d k a j b | none => true)

/-- The record of a malformed packet (R407). -/
def State.badPacket (s : State) (d q : Nat) (addr : W64) : Record := s.ringRecord d q ⟨.RING_MALFORMED, addr, 0, [], false, none⟩

/-- A packet that has been read served: malformed, a barrier-and that begins to hold the queue, or executed and consumed. -/
def State.servePacket (s : State) (d k : Nat) (l : List W32) : Except Hold State :=
  let v := s.slot d k
  let b := v.copy
  if malformed b l then (s.raiseRecord d (s.badPacket d v.qcb (packetAddr b))).consumeSlot d k b
  else if pktType (pw l 0) == 3 then
    .ok (s.setSlot d k { v with barrier := some (barrierAddrs l, pw64 l 6), copy := { b with part := if b.part.getLsbD 0 then b.part else 1 } })
  else (s.runPacket d v.qcb b l).bind fun r => r.2.consumeSlot d k (noteGraph b l)

/-- The examination of a slot's ring by the packet processor (R402, R413): an empty packet makes the queue idle, a fault stops it, and the
packet of the chosen slot, where it is of a type that the step names, is served. -/
def State.examine (s : State) (d k : Nat) (kinds : Nat → Bool) : State :=
  let v := s.slot d k
  if v.st != .serving || !v.look || v.barrier.isSome then s
  else
    let w := s.queueWho d v.copy
    match s.askRead w (packetAddr v.copy) 4 4 with
    | .error (.stall h) => s.waited h
    | .error (.fault f) => (s.markBad f.bad).ringFault d k f
    | .ok (bs, u) =>
      let w0 : W32 := BitVec.ofNat 32 (leNat bs)
      if pktType w0 == 0 then u.setSlot d k { v with look := false }
      else if !kinds (pktType w0) || !s.isChoice d k w0 then s
      else match u.askRead w (packetAddr v.copy + 4) 60 4 with
        | .error (.stall h) => s.waited h
        | .error (.fault f) => (u.markBad f.bad).ringFault d k f
        | .ok (rest, x) => s.orWaited (x.servePacket d k (w0 :: bytesLanes 15 rest))

/-- `PACKET_LAUNCH` (R402, R405, R407): a launch packet, or one of no type. -/
def execPacketLaunch (s : State) : Host.Outcome State Fault Refusal :=
  .next (s.examine s.ev.site s.ev.n fun t => t == 1 || decide (7 ≤ t))

/-- `PACKET_RELAUNCH` (R405). -/
def execPacketRelaunch (s : State) : Host.Outcome State Fault Refusal := .next (s.examine s.ev.site s.ev.n fun t => t == 2)

/-- `PACKET_TIMED_LAUNCH` (R391, R405). -/
def execPacketTimedLaunch (s : State) : Host.Outcome State Fault Refusal := .next (s.examine s.ev.site s.ev.n fun t => t == 6)

/-- `PACKET_BARRIER_AND` (R405): the barrier-and begins to hold its queue. -/
def execPacketBarrierAnd (s : State) : Host.Outcome State Fault Refusal := .next (s.examine s.ev.site s.ev.n fun t => t == 3)

/-- `PACKET_SIGNAL` (R405). -/
def execPacketSignal (s : State) : Host.Outcome State Fault Refusal := .next (s.examine s.ev.site s.ev.n fun t => t == 4)

/-- `PACKET_NOP` (R405). -/
def execPacketNop (s : State) : Host.Outcome State Fault Refusal := .next (s.examine s.ev.site s.ev.n fun t => t == 5)

/-- The conditions of a barrier-and read: those met before or now, as a mask (R405, R409). -/
def State.barrierMet (s : State) (w : Who) : List W64 → Nat → Nat → Iss (Nat × State)
  | [], _, m => .ok (m, s)
  | a :: t, j, m =>
    if a == 0 || bit m j then s.barrierMet w t (j + 1) (if bit m j then m else m + 2 ^ j)
    else do
      let r ← s.askWord w a
      r.2.barrierMet w t (j + 1) (if r.1.getLsbD 63 then m + 2 ^ j else m)

/-- The completion signal of a barrier-and, from the words that were read with it (R402, R403, R408). -/
def State.barrierSignal (s : State) (d k : Nat) (p : W64) : Except Hold State :=
  let v := s.slot d k
  s.signal d { LaunchReq.zero with asid := (s.fold d v.copy.fold.toNat).abase.toNat, fold := some v.copy.fold.toNat,
                                   signal := p, queue := some (d, v.qcb) } 0

/-- `BARRIER_AND_RELEASE` (R405, R408): the conditions of the barrier-and that holds a queue are looked at; when all are met, it is handed
on. -/
def execBarrierAndRelease (s : State) : Host.Outcome State Fault Refusal :=
  let d := s.ev.site
  let k := s.ev.n
  let v := s.slot d k
  .next (match v.barrier with
    | none => s
    | some (l, p) =>
      if v.st != .serving then s
      else
        let w := s.queueWho d v.copy
        match s.barrierMet w l 0 (fieldW v.copy.part 4 1) with
        | .error (.stall h) => s.waited h
        | .error (.fault f) => ((s.markBad f.bad).setSlot d k { v with barrier := none }).ringFault d k f
        | .ok (m, u) =>
          let b : Qcb := { v.copy with part := BitVec.ofNat 64 (1 + 2 * m) }
          if m == 15 then s.orWaited ((u.barrierSignal d k p).bind fun x => x.consumeSlot d k v.copy)
          else u.setSlot d k { v with copy := b })

/-- `KICK` (R411, R412): a write to a kick word of the host, which carries no fold, or of a team. -/
def execKick (s : State) : Host.Outcome State Fault Refusal := .next (s.kickQueue s.ev.site s.ev.n s.ev.fold)

/-! ### Fault records and SWAIT (R414, R416, R424) -/

/-- `FAULT_RECORD_ENQUEUE` (R416): the oldest record that waits enters its drover's fault queue where that has room; the queue no longer
empty raises FAULT. -/
def execFaultRecordEnqueue (s : State) : Host.Outcome State Fault Refusal :=
  let d := s.ev.site
  let v := s.drv d
  .next (match v.waitRec with
    | [] => s
    | r :: rest =>
      if 1024 ≤ v.faultQ.length then s
      else
        let s1 := s.setDrv d { v with waitRec := rest, faultQ := v.faultQ ++ [r] }
        if v.faultQ.isEmpty then s1.wake d fun _ w => bit w.mask 1 else s1)

end Sys2Proof.Machine
end

