-- ==== Sys2Proof/Machine/Turns.lean ====
section
/-! DEFINITION. The steps of a strand that have no word of their own: the end of a loop body, the release of a span boundary, and the
waits that end by themselves (R19, R122, R131, R278); and which steps move while the package is held in reset or in safe mode (R436, R452). -/

namespace Sys2Proof.Machine

/-- Whether a step moves while the input is too low and the package is held in reset (R452): the power and the ports themselves, and a request
for a retirement, which waits (R449). -/
def powerStep : Instr → Bool
  | .powerRecover | .powerBrownout | .packageReset | .hostPortLinkDown | .hostPortLinkUp | .dieRetirement => true
  | _ => false

/-- Whether a step is one of the management function, which alone is live in safe mode (R436): resets, the management window and its
telemetry, attestation, and the monitors. -/
def mgmtStep (i : Instr) (x : EvArg) : Bool :=
  match i with
  | .rstreqCluster | .rstreqFold | .rstreqPackage | .rstreqRelease | .attestationRequest | .powerCapping | .thermalThrottle | .thermalRetire => true
  | .registerWrite => x.fold == some 2
  | .hostApertureAccess => x.fold.isSome && x.fold != some 1
  | _ => powerStep i

/-- Whether a step does not move now: in brownout the package, and in safe mode everything but the management function, is held in reset. -/
def State.heldBack (s : State) (i : Instr) (x : EvArg) : Bool :=
  if s.mgmt.brownout then !powerStep i else s.mgmt.phase == 5 && !mgmtStep i x

/-- The state in which a strand of a core has its turn. -/
def State.turnOf (s : State) (c : CoreId) (σ : Strand) : State := { s with cur := c, strand := σ }

/-- The strand that a step's operand names. -/
def State.evStrand (s : State) : Strand := s.ev.strand.getD .C

/-- The word that a strand of a core meets, and the state with the strand standing at it. -/
def State.wordOf (s : State) (c : CoreId) (σ : Strand) : Option (Instr × State) :=
  if s.canIssue c σ then
    match s.fetch c σ with
    | .word n w => (decode (coreCls c) w).map fun i => (i, (s.turnOf c σ).atWord n)
    | _ => none
  else none

/-- `LOOP_END` (R122): a strand that has reached the end of an open loop body takes the back edge or closes the loop. -/
def execLoopEnd (s : State) : Host.Outcome State Fault Refusal :=
  let c := s.ev.core
  let σ := s.evStrand
  .next (if s.canIssue c σ then
      match endedLoop (s.text c) σ ((s.team c).str σ) with
      | some l => (s.turnOf c σ).passLoopEnd l
      | none => s
    else s)

/-- `SLIP_RELEASE` (R19): a strand held at a span boundary that the slip bounds now allow passes it: at a loop's end at once, at a
W-tagged word by issuing it in the next step. -/
def execSlipRelease (s : State) : Host.Outcome State Fault Refusal :=
  let c := s.ev.core
  let σ := s.evStrand
  let t := s.team c
  .next (if s.canIssue c σ && (t.str σ).hold == .stall && slipFree t σ then
      match endedLoop (s.text c) σ (t.str σ) with
      | some l => (s.turnOf c σ).passLoopEnd l
      | none =>
        match s.fetch c σ with
        | .word _ w => if wordTag w == .W then { s with agenda := .issue c σ :: s.agenda } else s
        | _ => s
    else s)

/-- `WAITT_EXPIRE` (R131): a strand whose target device time has come retires its `WAITT`. -/
def execWaittExpire (s : State) : Host.Outcome State Fault Refusal :=
  match s.wordOf s.ev.core s.evStrand with
  | some (.waitt t a n, u) => if u.st.waitV && !(u.nsAt u.cur.site).ult u.st.waitT then Sys2Proof.Machine.execWaitt t a n u else .next s
  | _ => .next s

/-- `POLLED_WAIT_RETRY` (R278): a strand with a polled wait repeats its operation. -/
def execPolledWaitRetry (s : State) : Host.Outcome State Fault Refusal :=
  match s.wordOf s.ev.core s.evStrand with
  | some (.ldf t d r a p o, u) =>
    if u.myCluster.waiters.any fun x => u.mine x && x.polled then Sys2Proof.Machine.execLdf t d r a p o u else .next s
  | some (.stf t d v a p o, u) =>
    if u.myCluster.waiters.any fun x => u.mine x && x.polled then Sys2Proof.Machine.execStf t d v a p o u else .next s
  | _ => .next s

end Sys2Proof.Machine
end

