-- ==== Sys2Proof/Machine/Firmware.lean ====
section
/-! DEFINITION. The DROVER class instructions: OP 0x80 to 0x8F (R418 to R432). Each completes with a value whose top byte is zero, or
with a failure code there and no effect. -/

namespace Sys2Proof.Machine

/-! ### The frame of R418 -/

/-- The value of a failure (R418). -/
def failW (code : Nat) : W64 := packW [(code, 56)]

/-- The failure codes of R419. -/
def failMalformed : Nat := 0x80
/-- QCB_CORRUPT (R419). -/
def failCorrupt : Nat := 0x82
/-- SLOT_BUSY (R419). -/
def failBusy : Nat := 0x83
/-- GRAPH_MISSING (R419). -/
def failMissing : Nat := 0x84
/-- NO_CLASS (R419). -/
def failClass : Nat := 0x85
/-- TABLE_FULL (R419). -/
def failFull : Nat := 0x86
/-- RESUME_STALE (R419). -/
def failStale : Nat := 0x87

/-- The head of a word with a result and two sources. -/
def State.fwHead (s : State) (r a b : BitVec 6) (extra : Bool) : Head := headOf .X (s.destOk r && s.srcOk a && s.srcOk b && extra)

/-- A word of one source that completes at once: the value and the state with its effect, or a failure that changes nothing. -/
def State.fw1 (s : State) (d : Bool) (r a : BitVec 6) (f : State → W64 → Except Nat (W64 × State)) : Iss Done := do
  s.popsOk [a]
  s.room d r
  let x ← s.src a
  match f x.2 x.1 with
  | .ok q => .ok (q.2.put d r q.1).goOn
  | .error c => .ok (x.2.put d r (failW c)).goOn

/-- Such a word of two sources. -/
def State.fw2 (s : State) (d : Bool) (r a b : BitVec 6) (f : State → W64 → W64 → Except Nat (W64 × State)) : Iss Done := do
  s.popsOk [a, b]
  s.room d r
  let x ← s.src a
  let y ← x.2.src b
  match f y.2 x.1 y.1 with
  | .ok q => .ok (q.2.put d r q.1).goOn
  | .error c => .ok (y.2.put d r (failW c)).goOn

/-- The drover of the running firmware core. -/
def State.myDrv (s : State) : Nat := coreDrv s.cur

/-- The memory operand of a DROVER word (R418): an aligned DEV address, reached as `.l1` accesses are. -/
def State.fwPlace (s : State) (p : W64) (n : Nat) (nd : Need) : Iss (Place × State) := do
  need (tagNum p == 0) .SPACE p 0
  let sp ← s.checkEa s.me p p n n 0
  boardFree s.tm p n
  let q ← s.placeOf s.me sp n 0 nd p
  s.atomFree
  .ok q

/-! ### Queues in software (R420, R421) -/

/-- A free value of the frame of R418: a success, with bits [63:56] zero, or the code of a failure alone (log 13). -/
def State.freeFrame (s : State) : W64 × State :=
  let r := s.freshWord
  (if fieldW r.1 63 56 == 0 then r.1 else r.1 &&& 0xFF00000000000000, r.2)

/-- `RFETCH`'s service of a queue whose packet has been read (R420): copied to SB, consumed, and its index returned. A fault of the ring is
recorded as R402 states, and the value is then left open. Of an index the 56 bits are given that a success has (R418, log 73, DEDUCED). -/
def State.fetchPacket (s : State) (q : Nat) (b : Qcb) (pl : Place) (tgt : W64) : Iss (W64 × State) := do
  let d := s.myDrv
  let w := s.queueWho d b
  let u ← s.acquired s.me
  match u.askRead w (packetAddr b) 64 64 with
  | .error (.stall h) => .error (.stall h)
  | .error (.fault f) => .ok (((u.markBad f.bad).raiseRecord d (u.ringRecord d q f)).freeFrame)
  | .ok (bytes, v) => do
    let x ← v.doStore v.me pl bytes tgt
    match x.consume d b with
    | .error h => .error (.stall h)
    | .ok (b', y, some f) => .ok (((y.setQcb d q b').raiseRecord d (y.ringRecord d q f)).freeFrame)
    | .ok (b', y, none) => .ok (if malformed b (bytesLanes 16 bytes) then failW failMalformed else b.rdidx &&& 0x00FFFFFFFFFFFFFF, y.setQcb d q b')

/-- `RFETCH` (R420). -/
def execRfetch (d : Bool) (r a b : BitVec 6) (s : State) : Host.Outcome State Fault Refusal :=
  s.run (s.fwHead r a b true) fun s => do
    s.popsOk [a, b]
    s.room d r
    let x ← s.src a
    let y ← x.2.src b
    let p ← y.2.fwPlace y.1 64 .write
    let q := x.1.toNat
    let c := y.2.liveQ s.myDrv q
    if decide (4095 < q) || s.qcbCorrupt s.myDrv c then .ok (y.2.put d r (failW failCorrupt)).goOn
    else if c.st != 1 then .ok (y.2.put d r (failW failBusy)).goOn
    else
      let w := s.queueWho s.myDrv c
      match p.2.askRead w (packetAddr c) 4 4 with
      | .error (.stall h) => .error (.stall h)
      | .error (.fault f) =>
        let u := ((p.2.markBad f.bad).raiseRecord s.myDrv (s.ringRecord s.myDrv q f)).freeFrame
        .ok (u.2.put d r u.1).goOn
      | .ok (w0, u) =>
        if leNat w0 / 2 ^ 24 == 0 then .ok (y.2.put d r 0x00FFFFFFFFFFFFFF).goOn
        else do
          let v ← u.fetchPacket q c p.1 y.1
          .ok (v.2.put d r v.1).goOn

/-- The value of `DISP` for a launch (R421), and whether the word takes effect. -/
def dispValue : Option (Except Nat Nat) → Except Nat W64
  | none => .ok 0
  | some (.ok lid) => .ok (BitVec.ofNat 64 (lid % 2 ^ 55))
  | some (.error 6) => .ok (packW [(6, 0), (1, 55)])
  | some (.error 2) => .error failMissing
  | some (.error _) => .error failMalformed

/-- A packet image executed by `DISP` (R421): the value, or a failure that changes nothing. -/
def State.dispatchImage (s : State) (q : Nat) (b : Qcb) (l : List W32) : Iss (Except Nat (W64 × State)) :=
  let d := s.myDrv
  if pktType (pw l 0) == 3 then
    let w := s.queueWho d b
    match s.barrierMet w (barrierAddrs l) 0 0 with
    | .error (.stall h) => .error (.stall h)
    | .error (.fault f) => .ok (.ok (((s.markBad f.bad).raiseRecord d (s.ringRecord d q f)).freeFrame))
    | .ok (m, u) =>
      if m != 15 then hold
      else match u.signal d (s.pktSignal d q b l) 0 with
        | .ok v => .ok (.ok (0, v))
        | .error h => .error (.stall h)
  else if isLaunch (pktType (pw l 0)) then
    match s.trigger d (s.pktReq d q b l) with
    | .error h => .error (.stall h)
    | .ok (o, u) =>
      match dispValue (some o) with
      | .error c => .ok (.error c)
      | .ok v =>
        match o with
        | .ok _ => .ok (.ok (v, u.setLive d q (noteGraph b l)))
        | .error st => match u.signal d (s.pktReq d q b l) st with
          | .ok x => .ok (.ok (v, x.setLive d q (noteGraph b l)))
          | .error h => .error (.stall h)
  else match s.runPacket d q b l with
    | .ok r => .ok (.ok (0, r.2))
    | .error h => .error (.stall h)

/-- `DISP` (R421): the packet image is read from SA and executed as the packet processor would execute it for the queue. -/
def execDisp (d : Bool) (r a b : BitVec 6) (s : State) : Host.Outcome State Fault Refusal :=
  s.run (s.fwHead r a b true) fun s => do
    s.popsOk [a, b]
    s.room d r
    let x ← s.src a
    let y ← x.2.src b
    let p ← y.2.fwPlace x.1 64 .read
    let v ← p.2.doLoad s.me p.1 64 x.1
    let q := y.1.toNat
    let c := s.liveQ s.myDrv q
    let l := bytesLanes 16 v.1
    if malformed (if q ≤ 4095 then c else { c with lgv := true, fold := 0 }) (if q ≤ 4095 then l else (pw l 0 &&& 0xFFFF00FF) :: l.drop 1) then
      .ok (y.2.put d r (failW failMalformed)).goOn
    else if decide (4095 < q) || s.qcbCorrupt s.myDrv c then .ok (y.2.put d r (failW failCorrupt)).goOn
    else do
      let v1 ← v.2.released s.me
      let e ← v1.dispatchImage q c l
      match e with
      | .ok g => .ok (g.2.put d r g.1).goOn
      | .error c => .ok (y.2.put d r (failW c)).goOn

/-! ### Slots (R410, R422, R423) -/

/-- The hardware queue slots of a fold on a drover die (R392). -/
def FoldDesc.hqShare (f : FoldDesc) (d : Nat) : Nat := (if d == 0 then f.hq0 else f.hq1).toNat

/-- The slots that a fold holds. -/
def State.foldSlots (s : State) (d f : Nat) : Nat :=
  (((s.drv d).slots).filter fun e => e.2.st != .free && e.2.copy.fold.toNat == f).length

/-- Whether a QCB is loaded in some slot (R410). -/
def State.loaded (s : State) (d q : Nat) : Bool := (s.drv d).slots.any fun e => e.2.st != .free && e.2.qcb == q

/-- `QLOAD` (R410, R422); of a queue that is loaded in another slot, mapped there or not, it gives `SLOT_BUSY` (log 86, DEDUCED). -/
def execQload (d : Bool) (r a b : BitVec 6) (s : State) : Host.Outcome State Fault Refusal :=
  s.run (s.fwHead r a b true) fun s => s.fw2 d r a b fun s q k =>
    let v := s.myDrv
    let c := s.qcb v q.toNat
    if decide (4095 < q.toNat) || s.qcbCorrupt v c || c.st == 0 then .error failCorrupt
    else if decide (63 < k.toNat) || (s.slot v k.toNat).st != .free || c.st == 2 || s.loaded v q.toNat then .error failBusy
    else if (s.fold v c.fold.toNat).hqShare v ≤ s.foldSlots v c.fold.toNat then .error failFull
    else .ok (0, s.setSlot v k.toNat { HwSlot.reset with st := .loaded, qcb := q.toNat, copy := c })

/-- A loaded slot mapped (R410): its QCB is MAPPED, the pending bit cleared, and the ring is to be examined. -/
def State.mapSlot (s : State) (d k : Nat) : State :=
  let v := s.slot d k
  let x := s.drv d
  let n : BitVec 6 := BitVec.ofNat 6 k
  let q := s.qcb d v.qcb
  ((s.setDrv d { x with pend := tdel x.pend v.qcb, kickSeq := x.kickSeq + 1 }).setQcb d v.qcb { q with st := 2, slot := n }).setSlot d k
    { v with st := .serving, look := true, kicked := x.kickSeq, copy := { v.copy with st := 2, slot := n } }

/-- A serving slot stopped at a packet boundary (R410): a barrier-and in progress stays in PART. -/
def State.unmapSlot (s : State) (d k : Nat) : State :=
  let v := s.slot d k
  s.setSlot d k { v with st := .stopped, look := false, barrier := none }

/-- `QMAP` (R410, R422). -/
def execQmap (d : Bool) (r a : BitVec 6) (f : BitVec 3) (s : State) : Host.Outcome State Fault Refusal :=
  s.run (s.fwHead r a 62 (f < 2)) fun s => s.fw1 d r a fun s k =>
    let v := s.myDrv
    let x := s.slot v k.toNat
    if decide (63 < k.toNat) || x.st != (if f == 0 then .loaded else .serving) then .error failBusy
    else .ok (BitVec.ofNat 64 x.qcb, if f == 0 then s.mapSlot v k.toNat else s.unmapSlot v k.toNat)

/-- Whether a queue has packets that its read index has not reached, or its header cannot be read (R410). -/
def State.behind (s : State) (d : Nat) (b : Qcb) : Iss (Bool × State) :=
  let w := s.queueWho d b
  match s.askWord w b.hdr with
  | .ok r => .ok (b.rdidx.ult r.1, r.2)
  | .error (.fault f) => .ok (true, s.markBad f.bad)
  | .error (.stall h) => .error (.stall h)

/-- A slot's state written back to its QCB, which is UNMAPPED then, and the slot free (R410). -/
def State.saveSlot (s : State) (d k : Nat) (part : W64) : State :=
  let v := s.slot d k
  (s.setQcb d v.qcb { v.copy with st := 1, slot := 0, part := part }).setSlot d k HwSlot.reset

/-- `QSAVE` (R410, R422). -/
def execQsave (d : Bool) (r a : BitVec 6) (s : State) : Host.Outcome State Fault Refusal :=
  s.run (s.fwHead r a 62 true) fun s => do
    s.popsOk [a]
    s.room d r
    let x ← s.src a
    let v := s.myDrv
    let k := x.1.toNat
    let h := s.slot v k
    if decide (63 < k) || !(h.st == .loaded || h.st == .stopped) then .ok (x.2.put d r (failW failBusy)).goOn
    else do
      let q ← x.2.behind v h.copy
      let u := q.2.saveSlot v k h.copy.part
      let t := if q.1 then u.raisePend v h.qcb else u
      .ok (t.put d r (BitVec.ofNat 64 h.qcb)).goOn

/-- `PRIO` (R423). -/
def execPrio (d : Bool) (r a b : BitVec 6) (f : BitVec 3) (s : State) : Host.Outcome State Fault Refusal :=
  s.run (s.fwHead r a (if f == 0 then b else 62) (f < 2 && (f == 0 || b == 0))) fun s =>
    s.fw2 d r a (if f == 0 then b else 62) fun s q n =>
      let v := s.myDrv
      let c := s.liveQ v q.toNat
      if decide (4095 < q.toNat) || s.qcbCorrupt v c then .error failCorrupt
      else if f == 0 && decide (7 < n.toNat) then .error failBusy
      else
        let p : BitVec 3 := if f == 0 then n.setWidth 3 else if c.prio == 7 then 7 else c.prio + 1
        let t := s.qcb v q.toNat
        let u := if t.st == 2 then s.setQcb v q.toNat { t with age := 0 } else s
        .ok (c.prio.setWidth 64, u.setLive v q.toNat { c with prio := p, age := 0 })

/-! ### SWAIT (R424, R425) -/

/-- The causes that hold for a core, those of a mask: PEND 0, FAULT 1, MBOX 3. -/
def State.causes (s : State) (mask : Nat) : Nat :=
  let v := s.drv s.myDrv
  let k := s.core s.cur
  b2n (bit mask 0 && (lowPend v k.pendsel).isSome) + 2 * b2n (bit mask 1 && !v.faultQ.isEmpty) + 8 * b2n (bit mask 3 && !v.mbox.isEmpty)

/-- The cause word of `SWAIT`. -/
def State.causeWord (s : State) (mask : Nat) (late : Bool) : W64 :=
  let c := s.causes mask
  packW [(if bit c 0 then (lowPend (s.drv s.myDrv) (s.core s.cur).pendsel).getD 0 else 0, 0), (c, 32), (b2n late, 34)]

/-- Whether an `SWAIT` has waited its limit out. -/
def swaitLate (w : Swait) (ns : Nat) : Bool := w.limit != 0 && decide (w.start + w.limit ≤ ns)

/-- The state with the running core's `SWAIT` changed. -/
def State.setSwait (s : State) (w : Option Swait) : State := s.setCore s.cur { s.core s.cur with swait := w }

/-- `SWAIT` (R424). -/
def execSwait (d : Bool) (r a b : BitVec 6) (s : State) : Host.Outcome State Fault Refusal :=
  s.run (s.fwHead r a b true) fun s => do
    s.popsOk [a, b]
    s.room d r
    let x ← s.src a
    let y ← x.2.src b
    match (s.core s.cur).swait with
    | some w =>
      if w.woken || swaitLate w s.runNs then .ok ((y.2.setSwait none).put d r (s.causeWord w.mask (swaitLate w s.runNs))).goOn
      else hold
    | none =>
      let mask := x.1.toNat % 16 &&& 11
      if s.causes mask != 0 || (mask == 0 && y.1 == 0) then .ok (y.2.put d r (s.causeWord mask false)).goOn
      else .ok { (s.setSwait (some { start := s.runNs, mask := mask, limit := y.1.toNat, woken := false })).goOn with held := some .stall }

/-- `SWAIT_TIMEOUT` (R424): the limit of an `SWAIT` has passed, and it returns. -/
def execSwaitTimeout (s : State) : Host.Outcome State Fault Refusal :=
  match s.wordOf s.ev.core .X, (s.core s.ev.core).swait with
  | some (.swait d r a b, u), some w => if swaitLate w s.runNs then Sys2Proof.Machine.execSwait d r a b u else .next s
  | _, _ => .next s

/-! ### Graphs (R426) -/

/-- The drover and slot of a node id (R419): none where it names no loaded node. -/
def State.nodeOf (s : State) (id : W64) : Option (Nat × Nat) :=
  match graphOf id.toNat with
  | some (d, k) => if (s.node d k).used then some (d, k) else none
  | none => none

/-- `GDEC` (R426). -/
def execGdec (d : Bool) (r a : BitVec 6) (s : State) : Host.Outcome State Fault Refusal :=
  s.run (s.fwHead r a 62 true) fun s => s.fw1 d r a fun s id =>
    match s.nodeOf id with
    | none => .error failMissing
    | some (v, k) =>
      if (s.node v k).st != .waiting then .error failBusy
      else .ok (BitVec.ofNat 64 ((s.node v k).pending - 1), s.gdecNode v k)

/-- `GLNCH` (R426): the patch list is read in the firmware ASID. -/
def execGlnch (d : Bool) (r a b : BitVec 6) (s : State) : Host.Outcome State Fault Refusal :=
  s.run (s.fwHead r a b true) fun s => do
    s.popsOk [a, b]
    s.room d r
    let x ← s.src a
    let y ← x.2.src b
    s.atomFree
    let req : LaunchReq := { LaunchReq.zero with gid := x.1.toNat, patch := y.1, asid := s.mgmt.fwasid }
    let v ← y.2.released s.me
    match v.trigger s.myDrv req with
    | .error h => .error (.stall h)
    | .ok (.ok lid, u) => .ok (u.put d r (BitVec.ofNat 64 (lid % 2 ^ 55))).goOn
    | .ok (.error st, _) => .ok (y.2.put d r (failW (if st == 2 then failMissing else failMalformed))).goOn

/-! ### Buffers (R427 to R429) -/

/-- The drover and record of a buffer id (R381): none where it names no live record. -/
def State.bufOf (s : State) (id : W64) : Option (Nat × Nat) :=
  match graphOf id.toNat with
  | some (d, k) => if (s.buf d k).live && !(s.buf d k).freeing then some (d, k) else none
  | none => none

/-- `BFXM` (R406, R427). -/
def execBfxm (d : Bool) (r a : BitVec 6) (f : BitVec 3) (s : State) : Host.Outcome State Fault Refusal :=
  s.run (s.fwHead r a 62 (f == 1 || f == 2 || f == 3)) fun s => s.fw1 d r a fun s id =>
    match s.bufOf id with
    | none => .error failBusy
    | some (v, k) => .ok (0, if f == 2 then s.flushBuf v k else s.invBuf v k)

/-- A buffer of `BRNEW` made, with its reference in a node's brand slot (R428). None where pages or records lack. -/
def State.newBuf (s : State) (d k j len fold : Nat) (rights : BitVec 6) : Option (W64 × State) :=
  match freeBufs (s.drv d) 1, (s.drv d).takePages fold (pagesOf len) with
  | [i], some (page, v) =>
    let gen := match tget? (s.drv d).bufs i with | some x => x.gen | none => 1
    let u := (s.setDrv d v).setBuf d i { pa := page * 65536, len := len, count := 1, gen := gen, fold := fold, rights := rights,
                                         graphOwned := false, gid := none, live := true, freeing := false }
    let n := u.node d k
    some ((bufId d i).setWidth 64, u.setNode d k { n with slots := tset n.slots j (u.makeBrand d i rights) })
  | _, _ => none

/-- The code of a failure that the table of R419 does not assign to an operand outside its range: a free one of the table. -/
def State.freeFail (s : State) : Nat × State :=
  let u := s.freshWord
  ([failMalformed, failCorrupt, failBusy, failMissing, failClass, failFull, failStale].getD (u.1.toNat % 7) failMalformed, u.2)

/-- What `BRNEW` gives for a length and a specification in their ranges (R428). -/
def State.brnew (s : State) (len : Nat) (spec : W64) : Except Nat (W64 × State) :=
  let v := fieldW spec 16 16
  let k := fieldW spec 15 0
  let j := fieldW spec 20 17
  let n := s.node v k
  if n.used && (!(n.st == .idle || n.st == .waiting) || tget 0 n.slots j != 0) then .error failBusy
  else if !n.used then .error failMissing
  else match s.newBuf v k j len (fieldW spec 29 27) ((spec >>> 21).setWidth 6) with
    | some q => .ok q
    | none => .error failFull

/-- `BRNEW` (R428). The code of a failure for a length or a specification outside its range is left open; with another failure the code that
comes first in R419's rows is returned. -/
def execBrnew (d : Bool) (r a b : BitVec 6) (s : State) : Host.Outcome State Fault Refusal :=
  s.run (s.fwHead r a b true) fun s => do
    s.popsOk [a, b]
    s.room d r
    let x ← s.src a
    let y ← x.2.src b
    let len := x.1.toNat
    if len == 0 || decide (2 ^ 40 < len) || fieldW y.1 63 30 != 0 then
      let u := y.2.freeFail
      let other := match y.2.brnew len y.1 with | .error c => c | .ok _ => failStale
      .ok (u.2.put d r (failW (min u.1 other))).goOn
    else match y.2.brnew len y.1 with
      | .ok q => .ok (q.2.put d r q.1).goOn
      | .error c => .ok (y.2.put d r (failW c)).goOn

/-- Whether a buffer's graph has a launch running (R429). -/
def State.bufRunning (s : State) (b : Buf) : Bool :=
  b.graphOwned && (match b.gid.bind graphOf with
    | some (d, gi) => (match s.graphAt d gi with | some g => g.launches.any (·.started) | none => false)
    | none => false)

/-- `BRFREE` (R429). -/
def execBrfree (d : Bool) (r a : BitVec 6) (s : State) : Host.Outcome State Fault Refusal :=
  s.run (s.fwHead r a 62 true) fun s => s.fw1 d r a fun s id =>
    match s.bufOf id with
    | none => .error failBusy
    | some (v, k) => if s.bufRunning (s.buf v k) then .error failBusy else .ok (0, s.freeBuf v k)

/-! ### Flocks (R430) -/

/-- `FLKNEW.new` (R430). -/
def State.flockNew (s : State) (site : W64) (f : Nat) : Except Nat (W64 × State) :=
  let k := site.toNat
  if decide (59 < k) || !hasFlocks k || !(s.fold s.myDrv f).sites.getLsbD k then .error failClass
  else match tfree (s.die k).flocks 256 with
    | some e => .ok (BitVec.ofNat 64 (k * 1024 + e), s.setFlock k e (FlockEnt.fresh f none none))
    | none => .error failFull

/-- `FLKNEW.free` (R430). -/
def State.flockFree (s : State) (id : W64) : Except Nat (W64 × State) :=
  let n := id.toNat
  if decide (65535 < n) || !flockForm n then .error failStale
  else match s.flockAt (flockSite n) (flockEntry n) with
    | none => .error failStale
    | some e =>
      if !e.members.isEmpty then .error failBusy
      else .ok (0, s.freeFlock (flockSite n) (flockEntry n))

/-- `FLKNEW` (R430). -/
def execFlknew (d : Bool) (r a b : BitVec 6) (f : BitVec 3) (s : State) : Host.Outcome State Fault Refusal :=
  s.run (s.fwHead r a (if f == 0 then b else 62) (f < 2 && (f == 0 || b == 0))) fun s =>
    s.fw2 d r a (if f == 0 then b else 62) fun s x y => if f == 0 then s.flockNew x (fieldW y 2 0) else s.flockFree x

/-! ### Faults (R417, R431, R432) -/

/-- The four words of a fault record (R414). -/
def recordWords (r : Record) : List W64 :=
  [r.addr, packW [(r.node.toNat, 0), (r.inst.toNat, 32)],
   packW [(r.time % 2 ^ 48, 0), (r.code.num, 48), (r.strand, 56), (r.site, 58)],
   packW [(r.core, 0), (r.pc, 8), (b2n r.held, 22), (b2n r.susp, 23), (r.aux, 24)]]

/-- The handle that `FLTPOP` returns for a record (R417, R431): for one without a suspension a stale one, whose reserved bits are not zero. -/
def handleOf (r : Record) : W64 :=
  match r.handle with
  | some h => BitVec.ofNat 64 h
  | none => 0xFFFFFFFF

/-- `FLTPOP` (R431). -/
def execFltpop (d : Bool) (r a : BitVec 6) (s : State) : Host.Outcome State Fault Refusal :=
  s.run (s.fwHead r a 62 true) fun s => do
    s.popsOk [a]
    s.room d r
    let x ← s.src a
    let p ← x.2.fwPlace x.1 32 .write
    let v := s.drv s.myDrv
    match v.faultQ with
    | [] => .ok (x.2.put d r 0).goOn
    | f :: rest => do
      let u ← p.2.doStore s.me p.1 ((recordWords f).flatMap fun w => leBytes 8 w.toNat) x.1
      let t := u.setDrv s.myDrv { u.drv s.myDrv with faultQ := rest }
      .ok (t.put d r (handleOf f)).goOn

/-- The entry of a live handle (R417). -/
def Drover.liveHandle (v : Drover) (h : W64) : Option Nat :=
  let e := fieldW h 11 0
  let x := tget Susp.none v.susps e
  if fieldW h 63 48 == 0 && fieldW h 31 12 == 0 && x.live && x.gen == fieldW h 47 32 then some e else none

/-- A suspension over (R417). -/
def State.endSusp (s : State) (d e : Nat) : State :=
  let v := s.drv d
  s.setDrv d { v with susps := tset v.susps e { tget Susp.none v.susps e with live := false } }

/-- The copy that holds a suspension, in a team's scoreboard. -/
def heldCopy (h : Nat) (t : TeamSt) : Option (Nat × CopyEnt) := t.board.find? fun e => e.2.handle == some h

/-- A held copy resumed (R150). -/
def resumeCopy (h : Nat) (t : TeamSt) : TeamSt :=
  match heldCopy h t with
  | some (e, x) => { t with board := tset t.board e { x with st := .running, handle := none } }
  | none => t

/-- The status of a copy declared failed (R154). -/
def failedStatus (x : CopyEnt) : W64 :=
  match x.st with
  | .held c _ => packW [(x.done, 0), (c.num, 56)]
  | .running => packW [(x.done, 0)]

/-- A held copy declared failed (R150): its entry is freed, and of its completion actions only the ticket push happens, as soon as its team is
on a core and `xc` has room (R151). -/
def failCopy (h : Nat) (t : TeamSt) : TeamSt :=
  match heldCopy h t with
  | some (e, x) => t.endCopy e x (failedStatus x)
  | none => t

/-- A team of a drover changed, on its core or in a shadow plane. -/
def coreCopy (d h : Nat) (f : TeamSt → TeamSt) (key : Nat) (k : CoreSt) : CoreSt :=
  let on := fun (t : TeamSt) => if droverOf ⟨key / 128, key % 128⟩ t == d && (heldCopy h t).isSome then f t else t
  { k with team := on k.team, shadow := { k.shadow with team := k.shadow.team.map on } }

/-- An away team changed where it holds the copy: a wait for that copy is over (R187). -/
def awayCopy (h : Nat) (f : TeamSt → TeamSt) (a : Away) : Away :=
  match heldCopy h a.team with
  | none => a
  | some (e, x) =>
    ({ a with team := f a.team } : Away).met fun w => match w with
      | .ticket t => t == ticketOf x.seq e
      | .anyCopy => true
      | .range ea n src => boardBusy [(e, x)] ea n src
      | .board => true
      | _ => false

/-- The copy of a suspension changed, wherever its team is. -/
def State.onCopy (s : State) (d h : Nat) (f : TeamSt → TeamSt) : State :=
  let s1 : State := { s with cores := tmap (coreCopy d h f) s.cores }
  s1.setDrv d { s1.drv d with away := (s1.drv d).away.map (awayCopy h f) }

/-- The away team of a suspension, with its place. -/
def State.suspAway (s : State) (d h : Nat) : Option (Nat × Away) :=
  match (s.drv d).away.findIdx? fun a => a.handle == some h with
  | some n => (s.awayAt d n).map fun a => (n, a)
  | none => none

/-- Whether a suspended team has its die in its fold: without it the team cannot resume (R392). -/
def State.dieStays (s : State) (w : Away) : Bool :=
  match w.team.id with
  | some i => (s.fold i.drv i.fold).sites.getLsbD w.from_.site
  | none => true

/-- `RESUME` (R432): a suspended team is requeued, a held copy goes on; a team that was suspended at its drain point completes at once
(R145). Any other team whose die is out of its fold is in no state to resume, and stays suspended (R392, R419). -/
def execResume (d : Bool) (r a : BitVec 6) (s : State) : Host.Outcome State Fault Refusal :=
  s.run (s.fwHead r a 62 true) fun s => s.fw1 d r a fun s h =>
    let v := s.myDrv
    match (s.drv v).liveHandle h with
    | none => .error failStale
    | some e =>
      let x := tget Susp.none (s.drv v).susps e
      if !x.mayResume then .error failStale
      else if x.copy then .ok (0, (s.endSusp v e).onCopy v e (resumeCopy e))
      else match s.suspAway v e with
        | some (n, w) =>
          if drained w.team && !w.team.serr.getLsbD 31 then .ok (0, (s.endSusp v e).endAway v n w false)
          else if !s.dieStays w then .error failBusy
          else .ok (0, (s.endSusp v e).requeue v n w)
        | none => .ok (0, s.endSusp v e)

/-- `KILL` (R373, R432): a suspended instance is killed, a held copy declared failed. -/
def execKill (d : Bool) (r a : BitVec 6) (s : State) : Host.Outcome State Fault Refusal :=
  s.run (s.fwHead r a 62 true) fun s => s.fw1 d r a fun s h =>
    let v := s.myDrv
    match (s.drv v).liveHandle h with
    | none => .error failStale
    | some e =>
      if (tget Susp.none (s.drv v).susps e).copy then .ok (0, (s.endSusp v e).onCopy v e (failCopy e))
      else match s.suspAway v e with
        | some (n, w) => .ok (0, (s.endSusp v e).killAway v n w)
        | none => .ok (0, s.endSusp v e)

end Sys2Proof.Machine
end

