-- ==== Sys2Proof/Machine/Homes.lean ====
section
/-! DEFINITION. Steps of the memory system that no word makes by itself: walks, slices and the directory, lines at home, page expansion,
evictions, soft errors, CXL extents, and accesses that do not complete (R273, R293 to R303, R321 to R328, R345 to R349, R351, R455,
R461). -/

namespace Sys2Proof.Machine

/-- The requester that a step names by its site, fold and ASID. -/
def State.evWho (s : State) : Who :=
  { c := ⟨s.ev.site, 0⟩, fold := s.ev.fold, asid := s.ev.n % 2048, loc := 0, drv := Config.siteDrv s.ev.site, size := 0 }

/-- The state after part of an access: what it found bad is marked, and one that has to wait changes nothing but what its wait tells
others (R328). -/
def State.settled? (s : State) (r : Iss State) : State :=
  match r with
  | .ok u => u
  | .error (.fault f) => s.markBad f.bad
  | .error (.stall h) => s.waited h

/-- `PAGE_WALK` (R299 to R303): the walker of a die installs the leaf of an address, where no entry of its TLB has it. -/
def execPageWalk (s : State) : Host.Outcome State Fault Refusal :=
  let w := s.evWho
  .next (if (s.die w.c.site).tlb.any fun e => tlbHit e w.asid s.ev.m then s
    else s.settled? ((s.walk w (s.ev.m % 2 ^ 52) (if s.ev.flag then .write else .read) 0).map (·.2)))

/-! ### L2 slices and homes (R293 to R297, R319 to R324) -/

/-- `L2_FILL` (R293, R295): pieces of a granule that a bitmap names are fetched into a die's slice under one tag. -/
def execL2Fill (s : State) : Host.Outcome State Fault Refusal :=
  let w := s.evWho
  .next (if !hasL2 w.c.site then s
    else (List.range 32).foldl (fun (u : State) k =>
      if s.ev.word.getLsbD k then u.settled? ((u.l2Read w w.c.site (s.ev.n * 32 + k) 0).map (·.2)) else u) s)

/-- `DIRECTORY_REQUEST` (R295, R319): a die asks for a piece, clean or owned; on behalf of an access at home every copy is recalled and
invalidated. -/
def execDirectoryRequest (s : State) : Host.Outcome State Fault Refusal :=
  let w := s.evWho
  .next (s.settled? (if !hasL2 w.c.site then (s.reachHome w (s.ev.n * 64) 0).bind fun u => (u.reachCopies w s.ev.n (u.holders s.ev.n) 0).map fun _ => u.recallInv s.ev.n
    else if s.ev.flag then s.l2Own w w.c.site s.ev.n false 0
    else (s.l2Read w w.c.site s.ev.n 0).map (·.2)))

/-- `SLICE_ATOMIC` (R155, R297): a slice owns the piece, reads, computes and writes in one step, and answers with the old value. -/
def execSliceAtomic (s : State) : Host.Outcome State Fault Refusal :=
  let w := s.evWho
  .next (s.settled? (if s.ev.n % atomSize s.ev.op != 0 then .ok s
    else (s.doAtomic w (.mem s.ev.n .l2) s.ev.op s.ev.word s.ev.word2 0).map fun r =>
      { r.2 with reply := .data (leBytes (atomSize s.ev.op) r.1) }))

/-- `HOME_LINE_WRITE` (R321 to R323): bytes of one line written at its home. -/
def execHomeLineWrite (s : State) : Host.Outcome State Fault Refusal :=
  let w := s.evWho
  .next (s.settled? (if s.ev.bytes.isEmpty || decide (64 < s.ev.m + s.ev.bytes.length) then .ok s
    else s.cohWrite w .home (s.ev.n * 64 + s.ev.m) s.ev.bytes 0))

/-- `HOME_LINE_READ` (R323, R324): the 64 bytes of a line read at its home. -/
def execHomeLineRead (s : State) : Host.Outcome State Fault Refusal :=
  let w := s.evWho
  .next (s.settled? ((s.cohRead w .home (s.ev.n * 64) 64 0).map fun r => { r.2 with reply := .data r.1 }))

/-- `PAGE_EXPANSION` (R325, R328): a base die expands a page that is not RESIDENT into a free frame of its pool. Where the pool has none, the
die signals firmware and the accesses go on waiting. -/
def execPageExpansion (s : State) : Host.Outcome State Fault Refusal :=
  let w := s.evWho
  .next (match s.atStack w (s.ev.n * 65536) 0 with
    | .ok h => if (expandFrame (s.die h.1) h.2).isNone then s.poolDry h.1 else s.settled? (s.makeResident w h.1 h.2 (s.ev.n * 65536) 0)
    | .error _ => s)

/-- `L1_EVICTION` (R351): the unlocked copies of a line leave a core's L1, dirty bytes written back; they stay while that has to wait. -/
def execL1Eviction (s : State) : Host.Outcome State Fault Refusal :=
  let c := s.ev.core
  let ids := (((s.core c).l1).filter fun e => e.2.line == s.ev.n && e.2.locks == 0).map (·.1)
  .next (ids.foldl (fun (u : State) id => u.l1Leave (u.who c) id) s)

/-- `SOFT_ERROR` (R273, R296): a correctable error of a word or piece is corrected when it is read; an uncorrectable one poisons a scratchpad
word or a dirty piece, drops a clean piece, and is found in a line of memory, or by the integrity tree in a counter block (R323), when that is
read. A line and a block are named by their numbers at home (log 43). -/
def execSoftError (s : State) : Host.Outcome State Fault Refusal :=
  .next (match s.ev.target with
    | .cspWord site cl word =>
      if s.ev.flag || decide (Config.cspSize (Config.kindAt site) ≤ 4 * word) then s
      else s.setCluster site cl { s.cluster site cl with bad := tset (s.cluster site cl).bad word true }
    | .dspWord site word =>
      if s.ev.flag || Config.kindAt site == .cub || decide (Config.dspSize (Config.kindAt site) ≤ 4 * word) then s
      else s.setDie site { s.die site with dspBad := tset (s.die site).dspBad word true }
    | .l2Piece site p =>
      if s.ev.flag then s
      else match s.piece site p with
        | some v => if v.dirty then s.setPiece site p { v with poison := true } else s.dropPiece site p
        | none => s
    | .line l =>
      if tget 0 s.latent l == 2 then s else { s with latent := tset s.latent l (if s.ev.flag then 1 else 2) }
    | .counter b => if s.ev.flag then s else { s with treeBad := tset s.treeBad b true })

/-! ### CXL extents (R345, R348, R349) -/

/-- The unit of an extent's base and length (R345). -/
def extentUnit : Nat := 32 * 2 ^ 20

/-- Whether an extent may be entered in the table of a FAR die (R345). -/
def State.extentFits (s : State) (site : Nat) (e : Extent) : Bool :=
  Config.kindAt site == .far && decide (e.port < 4) && e.base % extentUnit == 0 && e.len % extentUnit == 0 && decide (0 < e.len) &&
  decide (farBase ≤ e.base) && decide (e.base + e.len ≤ farTop) &&
  ((s.die 21).extents ++ (s.die 38).extents).all fun x => x.2.gone || !overlaps e.base e.len x.2.base x.2.len

/-- The entries of a table that an extent added over them replaces: those that went by force (R349). -/
def goneUnder (e : Extent) (t : Tab Extent) : Tab Extent := tfilter (fun _ x => !(x.gone && overlaps e.base e.len x.base x.len)) t

/-- An extent entered in the table of a FAR die. -/
def State.enterExtent (s : State) (site : Nat) (e : Extent) : State :=
  let s1 := ([21, 38] : List Nat).foldl (fun (u : State) x => u.setDie x { u.die x with extents := goneUnder e (u.die x).extents }) s
  match tfree (s1.die site).extents 256 with
  | some k => s1.setDie site { s1.die site with extents := tset (s1.die site).extents k e }
  | none => s

/-- `EXTENT_ADD` (R345): an extent that a fabric manager adds is entered where firmware places it. -/
def execExtentAdd (s : State) : Host.Outcome State Fault Refusal :=
  let site := s.ev.site
  let e : Extent := { port := s.ev.n, dpa := s.ev.m, base := s.ev.k, len := s.ev.list.getD 0 0, fold := (s.ev.fold.getD 0) % 8,
                      releasing := false, sweep := false, asked := 0, gone := false }
  .next (if s.extentFits site e then s.enterExtent site e else s)

/-- A live extent of a FAR die. -/
def State.extentAt (s : State) (site k : Nat) : Option Extent := (tget? (s.die site).extents k).filter fun e => !e.gone

/-- The state with an extent changed. -/
def State.setExtent (s : State) (site k : Nat) (e : Extent) : State :=
  s.setDie site { s.die site with extents := tset (s.die site).extents k e }

/-- `EXTENT_RELEASE_REQUEST` (R348): the extent is RELEASING, and firmware is signalled. -/
def execExtentReleaseRequest (s : State) : Host.Outcome State Fault Refusal :=
  .next (match s.extentAt s.ev.site s.ev.n with
    | some e => if e.releasing then s else (s.setExtent s.ev.site s.ev.n { e with releasing := true, asked := s.runNs }).tellFirmware
    | none => s)

/-- The L2 pieces of a physical range, each with its die. -/
def State.rangePieces (s : State) (base len : Nat) : List (Nat × Nat) :=
  s.dies.flatMap fun d => (d.2.l2.filter fun p => decide (base ≤ p.1 * 64) && decide (p.1 * 64 < base + len)).map fun p => (d.1, p.1)

/-- The lines of an extent hold nothing any more. -/
def State.clearExtent (s : State) (e : Extent) : State :=
  let out := fun (l : Nat) => !(decide (e.base ≤ l * 64) && decide (l * 64 < e.base + e.len))
  { s with mem := cclear s.mem e.base e.len, lineBad := tfilter (fun l _ => out l) s.lineBad,
           lineKey := tfilter (fun l _ => out l) s.lineKey, latent := tfilter (fun l _ => out l) s.latent }

/-- An extent removed after a sweep (R348). -/
def State.removeExtent (s : State) (site k : Nat) (e : Extent) : State :=
  let s1 := s.clearExtent e
  s1.setDie site { s1.die site with extents := tdel (s1.die site).extents k }

/-- `RELEASE_SWEEP` (R348): firmware starts the sweep of a RELEASING extent; once accesses stall, dirty pieces are recalled, copies
invalidated, and the extent removed. -/
def execReleaseSweep (s : State) : Host.Outcome State Fault Refusal :=
  let site := s.ev.site
  .next (match s.extentAt site s.ev.n with
    | none => s
    | some e =>
      if !e.releasing then s
      else if !e.sweep then s.setExtent site s.ev.n { e with sweep := true }
      else
        let l := s.rangePieces e.base e.len
        (l.foldl (fun (u : State) x => (u.pieceHome x.1 x.2).dropPiece x.1 x.2) s).removeExtent site s.ev.n e)

/-- `RELEASE_SWEEP_TIMEOUT` (R348): 10 ms after the release request the sweep starts without firmware. -/
def execReleaseSweepTimeout (s : State) : Host.Outcome State Fault Refusal :=
  .next (match s.extentAt s.ev.site s.ev.n with
    | some e => if e.releasing && !e.sweep && decide (e.asked + 10000000 ≤ s.runNs) then
        s.setExtent s.ev.site s.ev.n { e with sweep := true } else s
    | none => s)

/-- `EXTENT_FORCED_REMOVAL` (R349): the extent goes at once, its dirty pieces discarded; its entry stays in the table with every page poisoned,
so that an access raises `EXTENT_GONE`, until an extent is added over it. -/
def execExtentForcedRemoval (s : State) : Host.Outcome State Fault Refusal :=
  .next (match s.extentAt s.ev.site s.ev.n with
    | some e =>
      (((s.rangePieces e.base e.len).foldl (fun (u : State) x => u.dropPiece x.1 x.2) s).clearExtent e).setExtent s.ev.site s.ev.n
        { e with gone := true, releasing := false, sweep := false }
    | none => s)

/-! ### Accesses that do not complete (R346, R455, R461) -/

/-- The part of a core whose access does not complete: a strand's word, the load or store queue, a `VSCAT` lane, a copy, a port or a tile
transfer. -/
def State.lateMove (s : State) : Sched :=
  let c := s.ev.core
  match s.ev.strand with
  | some σ => .issue c σ
  | none =>
    let x : EvArg := { EvArg.zero with core := c, n := s.ev.m }
    match s.ev.n with
    | 0 => .step .loadPerform x
    | 1 => .step .storePerform { x with n := 0 }
    | 2 => .step .storePerform { x with n := 1 }
    | 3 => .copyWord c s.ev.m
    | 4 => .step .portOperandFetch x
    | 5 => .step .writePortWrite x
    | _ => .step .tileTransferEffect x

/-- That part moves next, its accesses of a kind failing with an auxiliary word. -/
def State.fail (s : State) (kind aux : Nat) : State := { s with agenda := .late kind aux s.lateMove :: s.agenda }

/-- `CXL_TIMEOUT` (R346): a CXL request has not completed 2 ms after its issue. -/
def execCxlTimeout (s : State) : Host.Outcome State Fault Refusal := .next (s.fail 0 0)

/-- `HOST_ACCESS_TIMEOUT` (R455): a HOST access has not completed in 4 ms, or was completed with Unsupported Request or Completer Abort. -/
def execHostAccessTimeout (s : State) : Host.Outcome State Fault Refusal := .next (s.fail 1 (if s.ev.flag then 1 else 2))

/-- `REMOTE_TIMEOUT` (R461): a REMOTE access has not completed in 4 ms, was refused by the receiver, or met bad data there. -/
def execRemoteTimeout (s : State) : Host.Outcome State Fault Refusal :=
  .next (s.fail 2 (if s.ev.k == 2 then 0 else if s.ev.flag then 1 else 2))

end Sys2Proof.Machine
end

