-- ==== Sys2Proof/Machine/Links.lean ====
section
/-! DEFINITION. The link layer of one direction of a port (R306 to R312, R394): the choice of each flit slot, groups, replay, and the
failure of retry. What a packet carries is performed elsewhere (log 25). -/

namespace Sys2Proof.Machine

/-- One direction of a port of a die: ports 0 to 11 are UCIe ports, 16 to 23 the scale-out ports of a FAB die outward and 24 to 31 the same
ports inward, where the sender is the peer package. -/
def State.link (s : State) (site p : Nat) : Link := tget Link.reset (s.die site).links p

/-- The state with it changed. -/
def State.setLink (s : State) (site p : Nat) (l : Link) : State := s.setDie site { s.die site with links := tset (s.die site).links p l }

/-- The direction that comes back on a port (log 44, log 49): of a UCIe port its sender's die and port, of a scale-out port its other
direction. None where the die has no such port. -/
def otherEnd (site p : Nat) : Option (Nat × Nat) :=
  if p < 12 then (portSite site p).map fun r => (r, 3 * ((p / 3 + 2) % 4) + p % 3)
  else if Config.kindAt site == .fab && decide (16 ≤ p) && decide (p < 32) then some (site, if p < 24 then p + 8 else p - 8)
  else none

/-- Whether a direction leads out of the package. -/
def outward (p : Nat) : Bool := decide (16 ≤ p) && decide (p < 24)

/-- The flits that the receiving buffer of a class holds (R308). -/
def bufFlits : Nat → Nat
  | 0 => 128
  | 1 => 32
  | _ => 8

/-- The most flits of a packet of a class (R306). -/
def mostFlits : Nat → Nat
  | 0 => 70
  | 1 => 18
  | _ => 2

/-- Whether the sender holds an allowance of a class (R308). -/
def Link.allowed (l : Link) (c : Nat) : Bool := decide (tget 0 l.used c < bufFlits c)

/-- Whether a class has a flit ready (R307). -/
def Link.ready (l : Link) (c : Nat) : Bool := (tget? l.opened c).isSome || l.waiting.any fun p => p.cls == c

/-- Whether a class may send a flit now. -/
def Link.can (l : Link) (c : Nat) : Bool := l.ready c && l.allowed c

/-- BMIN of a port (R309). -/
def Link.bmin (l : Link) : Nat := 2 ^ (bits l.lkcfg.toNat 1 0 + 3)

/-- Whether urgent packets held for resending are not sent yet: they go whole, before normal choice resumes (R311). -/
def Link.resending (l : Link) : Bool :=
  !l.held.isEmpty || (match tget? l.opened 2 with | some p => p.again | none => false)

/-- The class of the next flit (R307, R309): of a packet sent again (R311) where its class has an allowance, else a forced slot, else the
highest class that can send. A class without an allowance holds back no other (R308). -/
def Link.choose (l : Link) : Option Nat :=
  if l.resending && l.allowed 2 then some 2
  else if l.can 0 && decide (l.bmin ≤ l.sinceB + 1) then some 0
  else if l.can 1 && decide (4 ≤ l.sinceE + 1) then some 1
  else if l.can 2 then some 2
  else if l.can 1 then some 1
  else if l.can 0 then some 0
  else none

/-- The oldest waiting packet of a class and fold. -/
def Link.oldest (l : Link) (c f : Nat) : Option Packet := l.waiting.find? fun p => p.cls == c && p.fold == f

/-- The packet of a weighted class that starts next (R307, R394): folds take turns with quanta proportional to WT. -/
def Link.weighted (l : Link) (wt : Nat → Nat) (c : Nat) : Option (Packet × Link) :=
  let cur := tget 0 l.turn c
  let more := match l.oldest c cur with
    | some p => if p.flits ≤ tget 0 l.deficit (8 * c + cur) then some p else none
    | none => none
  match more with
  | some p => some (p, { l with deficit := tset l.deficit (8 * c + cur) (tget 0 l.deficit (8 * c + cur) - p.flits) })
  | none =>
    ((List.range 8).map fun k => (cur + 1 + k) % 8).findSome? fun f => (l.oldest c f).map fun p =>
      let had := if f == cur || (l.oldest c cur).isSome then l.deficit else tset l.deficit (8 * c + cur) 0
      (p, { l with turn := tset l.turn c f, deficit := tset had (8 * c + f) (tget 0 had (8 * c + f) + 70 * wt f - p.flits) })

/-- The packet of a class that the next flit is of (R307). -/
def Link.packetFor (l : Link) (wt : Nat → Nat) (c : Nat) : Option (Packet × Link) :=
  match tget? l.opened c with
  | some p => some (p, l)
  | none =>
    if c == 2 then
      match l.held with
      | p :: t => some (p, { l with held := t })
      | [] => (l.waiting.find? fun p => p.cls == 2).map fun p => (p, { l with waiting := l.waiting.filter fun q => q.num != p.num })
    else (l.weighted wt c).map fun r => (r.1, { r.2 with waiting := r.2.waiting.filter fun q => q.num != r.1.num })

/-- POS of the next flit of a packet (R306). -/
def posOf (p : Packet) : Nat := if p.flits == 1 then 3 else if p.sent == 0 then 1 else if p.sent + 1 == p.flits then 2 else 0

/-- LEN of the next flit of a packet (R306): every flit but the last is full. -/
def lenOf (p : Packet) : Nat := if p.sent + 1 == p.flits then p.bytes - 1 else 59

/-- A flit of link control (R306). -/
def Flit.control : Flit := { cls := 3, pos := 0, len := 0, abort := 0, fold := 0, pkt := none }

/-- A group kept for replay, the last 64 of them (R310). -/
def keepGroup (l : List Group) (g : Group) : List Group := (l ++ [g]).drop (l.length + 1 - 64)

/-- A flit put into the group; the fourth sends the group, with a trailer of what the receiver of the direction that comes back
acknowledges and returns (R306, R308, R310). -/
def Link.putFlit (l : Link) (ack : Nat) (back : Tab Nat) (f : Flit) : Link :=
  if l.group.length < 3 then { l with group := l.group ++ [f] }
  else
    let g : Group := { seq := l.seq, flits := l.group ++ [f], ack := ack, back := back }
    { l with group := [], seq := (l.seq + 1) % 65536, wire := l.wire ++ [g], sentGrp := keepGroup l.sentGrp g }

/-- The slots since a class's last flit, after a slot (R309): they count only while it could send. -/
def sinceNext (could sent : Bool) (n : Nat) : Nat := if sent || !could then 0 else n + 1

/-- The flit of a slot (R307 to R309): the next one of the chosen packet, or link control where no class can send. -/
def Link.nextFlit (l : Link) (wt : Nat → Nat) : Flit × Link :=
  let c := l.choose
  let l1 : Link := { l with sinceB := sinceNext (l.can 0) (c == some 0) l.sinceB, sinceE := sinceNext (l.can 1) (c == some 1) l.sinceE }
  match c.bind fun k => l1.packetFor wt k with
  | none => (Flit.control, l1)
  | some (p, l2) =>
    let q : Packet := { p with sent := p.sent + 1 }
    let fin := decide (q.flits ≤ q.sent)
    ({ cls := p.cls, pos := posOf p, len := lenOf p, abort := if fin then p.abort else 0, fold := p.fold, pkt := some q },
     { l2 with opened := if fin then tdel l2.opened p.cls else tset l2.opened p.cls q,
               flown := if fin && q.abort == 0 then l2.flown ++ [q] else l2.flown,
               used := tset l2.used p.cls (tget 0 l2.used p.cls + 1) })

/-- The link weight of a fold; 0 reads as 1 (R392). -/
def State.weight (s : State) (f : Nat) : Nat :=
  let w := (s.fold s.timeDrv f).wt
  if w == 0 then 1 else w.toNat

/-- A packet that joins those that wait at a link, with a number of that link. -/
def Link.giveLast (l : Link) (p : Packet) : Link :=
  { l with waiting := l.waiting ++ [{ p with num := l.next }], next := l.next + 1 }

/-- A packet as its source injects it: of a class, fold and length, from one site for another. -/
def newPacket (c f n bytes from_ to_ : Nat) (src dst peer : Option Nat) : Packet :=
  { cls := c, fold := f, flits := n, bytes := bytes, from_ := from_, to_ := to_, id := 0, sent := 0, num := 0, src := src, abort := 0, again := false,
    dst := dst, peer := peer }

/-- Whether a packet has a class, a fold and a length that packets have (R306). -/
def Packet.wf (p : Packet) : Bool :=
  decide (p.cls < 3) && decide (p.fold < 8) && decide (1 ≤ p.flits) && decide (p.flits ≤ mostFlits p.cls) && decide (1 ≤ p.bytes) && decide (p.bytes ≤ 60)

/-- A packet that a die injects into a link, numbered by the die's transport: those for a peer package by package and class (R460). -/
def State.inject (s : State) (site p : Nat) (q : Packet) : State :=
  if !q.wf then s
  else
    let d := s.die site
    match q.peer with
    | some n =>
      let k := tget 0 d.peerSent (3 * n + q.cls)
      s.setDie site { d with links := tset d.links p ((s.link site p).giveLast { q with id := k }), peerSent := tset d.peerSent (3 * n + q.cls) (k + 1) }
    | none => s.setDie site { d with links := tset d.links p ((s.link site p).giveLast { q with id := d.pktSent }), pktSent := d.pktSent + 1 }

/-- A number of a step's operand below a bound, else none. -/
def below (n k : Nat) : Option Nat := if k < n then some k else none

/-- A packet that the transport hands to a link: class, fold and flits; then the cluster of the die that injects it, if one does; then the
destination and the payload bytes of the last flit, else the die at the other end and 60; then the cluster that it is for, if it is for one,
and the peer package. What comes in on a scale-out port has its source outside (site 64). -/
def State.give (s : State) (site p : Nat) (x : List Nat) : State :=
  let near := ((otherEnd site p).map (·.1)).getD site
  let from_ := if 24 ≤ p then 64 else site
  match x with
  | [c, f, n] => s.inject site p (newPacket c f n 60 from_ near none none none)
  | [c, f, n, k] => s.inject site p (newPacket c f n 60 from_ near (some k) none none)
  | [c, f, n, to_, bytes] => s.inject site p (newPacket c f n bytes from_ to_ none none none)
  | [c, f, n, k, to_, bytes] => s.inject site p (newPacket c f n bytes from_ to_ (below 16 k) none none)
  | [c, f, n, k, to_, bytes, cl] => s.inject site p (newPacket c f n bytes from_ to_ (below 16 k) (below 16 cl) none)
  | [c, f, n, k, to_, bytes, cl, n'] => s.inject site p (newPacket c f n bytes from_ to_ (below 16 k) (below 16 cl) (below 4096 n'))
  | _ => s

/-- Whether a slot may pass: the link is up, and one more group pushes none that was not delivered out of those kept for replay (R310). -/
def Link.maySend (l : Link) : Bool := l.down.isNone && decide ((l.seq + 65536 - l.rxSeq) % 65536 < 64)

/-- One flit slot of a link (R307 to R309): the group that it fills takes the acknowledgement and the allowances of the other direction. -/
def State.flitSlot (s : State) (site p : Nat) : State :=
  let r := (s.link site p).nextFlit s.weight
  match otherEnd site p with
  | none => s.setLink site p (r.2.putFlit 0 [] r.1)
  | some e =>
    let b := s.link e.1 e.2
    let s1 := s.setLink site p (r.2.putFlit b.rxSeq b.drained r.1)
    if r.2.group.length < 3 then s1 else s1.setLink e.1 e.2 { b with drained := [] }

/-- `FLIT_SLOT` (R306 to R309, R394): a packet that arrives at the port joins those that wait, and one flit slot passes. -/
def execFlitSlot (s : State) : Host.Outcome State Fault Refusal :=
  let s1 := s.give s.ev.site s.ev.n s.ev.list
  .next (if (s1.link s.ev.site s.ev.n).maySend then s1.flitSlot s.ev.site s.ev.n else s1)

/-! ### Receiving (R307, R308, R310) -/

/-- The buffer of a class emptied (R308). -/
def Link.drain (l : Link) (c : Nat) : Link :=
  { l with rxOpen := tdel l.rxOpen c, drained := tset l.drained c (tget 0 l.drained c + (tget [] l.rxOpen c).length) }

/-- A flit appended to the buffer of its class (R307). A tail completes its packet, which leaves the buffer; an abort tail discards it with
a NAK for its class, and the transport does not send it again (R290). -/
def Link.take (l : Link) (f : Flit) : Link × Option Packet :=
  if f.cls == 3 then (l, none)
  else
    let l1 : Link := { l with rxOpen := tset l.rxOpen f.cls (tget [] l.rxOpen f.cls ++ [f]) }
    if f.abort != 0 then ({ l1.drain f.cls with naks := tset l.naks f.cls (tget 0 l.naks f.cls + 1) }, none)
    else if f.pos == 2 || f.pos == 3 then
      ({ l1.drain f.cls with flown := l.flown.filter fun p => some p.num != f.pkt.map (·.num) }, f.pkt)
    else (l1, none)

/-- The port on which a die sends packets for a site, where its entry is valid and names a port that the die has (R305). -/
def State.portTo (s : State) (site to_ : Nat) : Option Nat :=
  let r := tget 0 (s.die site).routes to_
  if r.getLsbD 7 && (portSite site (r.toNat % 16)).isSome then some (r.toNat % 16) else none

/-- The lowest port of a set. -/
def lowPort (ports : Nat) : Option Nat := (List.range 16).find? fun k => bit ports k

/-- Whether a packet is for another package than this one. -/
def State.foreign (s : State) (site : Nat) (p : Packet) : Bool :=
  match p.peer with
  | some n => n != (s.die site).pkgid.toNat
  | none => false

/-- Where a packet goes from a die, and the packet with the die that it goes to (R305, R458): by the die's route table; at the fabric die
that it has been sent to, one for another package goes to the lowest port of PORTS of the die's own entry, which may be the other fabric
die's (log 23). None where it is discarded. -/
def State.nextHop (s : State) (site : Nat) (p : Packet) : Option (Nat × Packet) :=
  if p.to_ == site && s.foreign site p then
    (lowPort (fieldW (tget 0 (s.die site).peers (p.peer.getD 0)) 47 32)).bind fun k =>
      let x := Config.fabSite (k / 8)
      if x == site then some (16 + k % 8, p) else (s.portTo site x).map fun m => (m, { p with to_ := x })
  else (s.portTo site p.to_).map fun m => (m, p)

/-- A packet sent on from a die; without a port it is discarded there (R305, R458). -/
def State.sendOn (s : State) (site : Nat) (p : Packet) : State :=
  match s.nextHop site p with
  | none => s
  | some (k, q) => s.setLink site k ((s.link site k).giveLast { q with sent := 0, src := none, again := false })

/-- A packet that reaches its destination die, given to the cluster that it is for: one whose network interface does not answer, as the
operand of the step says, leaves it standing there (R447, log 9). -/
def State.toCluster (s : State) (site : Nat) (p : Packet) : State :=
  match p.dst with
  | some k =>
    let c := s.cluster site k
    if s.ev.list.contains k then s.setCluster site k { c with inbox := c.inbox ++ [(p, s.runNs)] } else s
  | none => s

/-- The clusters of a die whose network interface answers again, as the operand of the step says, have taken what was delivered to them
(log 9). -/
def State.interfacesAnswer (s : State) (site : Nat) : State := (List.range (clustersOf site)).foldl (fun (u : State) k =>
  if s.ev.list.contains k || (u.cluster site k).inbox.isEmpty then u else u.setCluster site k { u.cluster site k with inbox := [] }) s

/-- A whole packet at a die (R290, R305, R311): its destination takes it once, but one for a cluster whose interface is being reset is
discarded; any other die sends it on, and a fabric die what is for another package. -/
def State.arrive (s : State) (site : Nat) (p : Packet) : State :=
  if p.to_ != site || s.foreign site p then s.sendOn site p
  else if (match p.dst with | some k => (s.cluster site k).clearing | none => false) then s
  else
    let d := s.die site
    if p.peer.isSome || d.pktDone.contains (p.from_, p.id) then s
    else (s.setDie site { d with pktDone := d.pktDone ++ [(p.from_, p.id)] }).toCluster site p

/-- A flit of a group delivered: a packet whole on a direction that leads outward has left the package. -/
def State.deliver (s : State) (site p : Nat) (f : Flit) : State :=
  let r := (s.link site p).take f
  let s1 := s.setLink site p r.1
  match otherEnd site p, r.2 with
  | some e, some q => if outward p then s1 else s1.arrive e.1 q
  | _, _ => s1

/-- Allowances that have come back to a sender (R308). -/
def Link.returned (l : Link) (back : Tab Nat) : Link :=
  { l with used := back.foldl (fun t e => tset t e.1 (tget 0 t e.1 - e.2)) l.used }

/-- The trailer of a group taken by the sender of the direction that comes back (R306, R308). -/
def State.trailer (s : State) (site p : Nat) (g : Group) : State :=
  match otherEnd site p with
  | some e => s.setLink e.1 e.2 { (s.link e.1 e.2).returned g.back with acked := g.ack }
  | none => s

/-- A group that is not delivered (R310): a copy of one that was delivered is only dropped; else a replay of the expected group is asked
for, once, and again each time that the expected group fails. -/
def Link.dropGroup (l : Link) (crcOk : Bool) (n : Nat) : Link :=
  if crcOk && decide ((l.rxSeq + 65536 - n) % 65536 ≤ 64) then l
  else if !l.asked then { l with replayRq := some l.rxSeq, asked := true }
  else if n == l.rxSeq then { l with replayRq := some l.rxSeq, replays := l.replays + 1 }
  else l

/-- The next group on the wire received (R310): whole and in sequence it is delivered, else it is dropped. -/
def State.receive (s : State) (site p : Nat) (crcOk : Bool) : State :=
  let l := s.link site p
  match l.wire with
  | [] => s
  | g :: rest =>
    let l1 : Link := { l with wire := rest }
    if crcOk && g.seq == l.rxSeq then
      let s1 := s.setLink site p { l1 with rxSeq := (l.rxSeq + 1) % 65536, replays := 0, replayRq := none, asked := false }
      (g.flits.foldl (fun (u : State) f => u.deliver site p f) s1).trailer site p g
    else s.setLink site p (l1.dropGroup crcOk g.seq)

/-- `FLIT_GROUP_RECEIVE` (R308, R310): the operand names the clusters of the receiving die whose network interface does not answer (log 9). -/
def execFlitGroupReceive (s : State) : Host.Outcome State Fault Refusal :=
  .next ((match otherEnd s.ev.site s.ev.n with
    | some e => s.interfacesAnswer e.1
    | none => s).receive s.ev.site s.ev.n s.ev.flag)

/-- `LINK_REPLAY` (R310): the sender resends its groups from the one asked for on, in order. -/
def execLinkReplay (s : State) : Host.Outcome State Fault Refusal :=
  let l := s.link s.ev.site s.ev.n
  .next (match l.replayRq with
    | none => s
    | some n =>
      if l.down.isSome || decide (8 ≤ l.replays) then s
      else s.setLink s.ev.site s.ev.n { l with wire := l.wire ++ l.sentGrp.dropWhile (fun g => g.seq != n), replayRq := none })

/-! ### Failure of retry (R311) -/

/-- A packet that has to be sent whole again. -/
def Packet.restart (p : Packet) : Packet := { p with sent := 0, again := p.cls == 2 }

/-- An open packet that a cluster has injected in part, which ends with an abort tail of code 2 as its next flit (R290). -/
def Packet.cut (k : Nat) (p : Packet) : Packet := if p.src == some k then { p with flits := p.sent + 1, abort := 2 } else p

/-- A link after the network interface of a cluster of its die has been cleared (R290). -/
def Link.cutFrom (l : Link) (k : Nat) : Link := { l with opened := l.opened.map fun e => (e.1, e.2.cut k) }

/-- A link whose retry has failed: open packets end at both ends with a NAK for their class, urgent ones are held for resending, and every
bulk and express packet that was not delivered is to be sent again, those that had been sent before those held still, so that each class
keeps its order; one that R290 has ended is not. -/
def Link.fail (l : Link) (ns : Nat) : Link :=
  let lost := l.flown ++ (l.opened.map (·.2)).filter fun p => p.abort == 0
  { l with opened := [], flown := [], held := (lost.filter fun p => p.cls == 2).map Packet.restart ++ l.held,
           nak := l.nak ++ (lost.filter fun p => p.cls != 2).map Packet.restart,
           naks := l.rxOpen.foldl (fun t e => tset t e.1 (tget 0 t e.1 + 1)) l.naks,
           used := [], drained := [], group := [], sentGrp := [], wire := [], rxOpen := [], rxSeq := l.seq, acked := l.seq,
           replayRq := none, asked := false, replays := 0, sinceB := 0, sinceE := 0, down := some ns, told := false }

/-- A function applied to both directions of a port: the link that fails, retrains and returns is one (log 49). -/
def State.bothWays (s : State) (site p : Nat) (f : Link → Link) : State :=
  let s1 := s.setLink site p (f (s.link site p))
  match otherEnd site p with
  | none => s1
  | some e => s1.setLink e.1 e.2 (f (s1.link e.1 e.2))

/-- `LINK_RETRY_FAIL` (R310, R311): one group has failed 8 replays in a row, or the UCIe layer reports that the link must be retrained. -/
def execLinkRetryFail (s : State) : Host.Outcome State Fault Refusal :=
  let l := s.link s.ev.site s.ev.n
  .next (if l.down.isNone && (s.ev.flag || decide (8 ≤ l.replays)) then
      s.bothWays s.ev.site s.ev.n fun l => l.fail s.runNs else s)

/-- A packet that joins those that wait at a link before them. -/
def Link.giveFirst (l : Link) (p : Packet) : Link := { l with waiting := { p with num := l.next } :: l.waiting, next := l.next + 1 }

/-- A packet sent again whole from a die, before those that wait for its port there; without a route it is discarded (R305, R311). -/
def State.sendAgain (s : State) (site : Nat) (p : Packet) : State :=
  match s.nextHop site p with
  | none => s
  | some (k, q) => s.setLink site k ((s.link site k).giveFirst { q with again := false })

/-- A packet that received a NAK on a direction sent again from its source, end to end (R311): one whose source is another package comes
again on the scale-out port that it came in by, if it was lost there, else by no means of this package. -/
def State.resendFrom (s : State) (site p : Nat) (q : Packet) : State :=
  if q.from_ < 60 then s.sendAgain q.from_ q
  else if 24 ≤ p then s.setLink site p ((s.link site p).giveFirst { q with again := false })
  else s

/-- The packets of a direction that received a NAK sent again from their sources, end to end, in their order (R311). -/
def State.resendNaked (s : State) (site p : Nat) : State :=
  let l := s.link site p
  l.nak.foldr (fun q (u : State) => u.resendFrom site p q) (s.setLink site p { l with nak := [] })

/-- The packets with a NAK of both directions of a port sent again. -/
def State.resendBoth (s : State) (site p : Nat) : State :=
  match otherEnd site p with
  | none => s.resendNaked site p
  | some e => (s.resendNaked site p).resendNaked e.1 e.2

/-- Whether the retirement record names a site (R434). -/
def Mgmt.retired (m : Mgmt) (site : Nat) : Bool := m.record.any fun e => e.1 == site

/-- Whether a port is one of a retired die, or leads to one, so that its link stays down (R435). -/
def State.heldDown (s : State) (site p : Nat) : Bool :=
  s.mgmt.retired site || (match otherEnd site p with | some e => s.mgmt.retired e.1 | none => true)

/-- `LINK_RETRAIN_COMPLETE` (R311): the link returns; its held urgent packets go first, and the transport sends the packets again that
received a NAK. -/
def execLinkRetrainComplete (s : State) : Host.Outcome State Fault Refusal :=
  .next (if (s.link s.ev.site s.ev.n).down.isSome && !s.heldDown s.ev.site s.ev.n then
      (s.bothWays s.ev.site s.ev.n fun l => { l with down := none, told := false }).resendBoth s.ev.site s.ev.n
    else s)

/-! ### Links that do not return (R311, R312) -/

/-- Whether a live die sends to a neighbour over a link that has not been given up. -/
def State.linked (s : State) (y x : Nat) : Bool :=
  s.siteThere s.timeDrv y && (List.range 12).any fun p => portSite y p == some x && !(s.link y p).told

/-- The sites from which those of a list are reached over links that have not been given up. The bound is the number of sites. -/
def State.linkedTo (s : State) : Nat → List Nat → List Nat
  | 0, l => l
  | n + 1, l =>
    let more := (List.range 60).filter fun y => !l.contains y && l.any fun x => s.linked y x
    if more.isEmpty then l else s.linkedTo n (more ++ l)

/-- The entry of every die for a site to which it has lost every route marked invalid (R312). -/
def State.pruneRoutes (s : State) : State :=
  let ok := (List.range 60).map fun y => s.linkedTo 60 [y]
  { s with dies := tmap (fun x (d : Die) =>
      { d with routes := tmap (fun y (r : Byte) => if (ok.getD y []).contains x then r else r &&& 0x7F) d.routes }) s.dies }

/-- The live dies to which every route is lost (R448): no live die sends to them any more. -/
def State.isolated (s : State) : List Nat :=
  (List.range 60).filter fun x => s.siteThere s.timeDrv x && !((List.range 60).any fun y => s.linked y x)

/-- A retirement asked for and not yet made (R449). -/
def Mgmt.askRetire (m : Mgmt) (site reason : Nat) : Mgmt :=
  if m.toRetire.any fun e => e.1 == site then m else { m with toRetire := m.toRetire ++ [(site, reason)] }

/-- The retirements that have been asked for put on the agenda. -/
def State.retireAsked (s : State) : State :=
  { s with agenda := s.agenda ++ s.mgmt.toRetire.map fun e => .step .dieRetirement { EvArg.zero with site := e.1, n := e.2 } }

/-- Every die to which every route is lost is to be retired, for link loss (R448, reason 2 of R434). -/
def State.retireIsolated (s : State) : State :=
  { s with mgmt := s.isolated.foldl (fun (m : Mgmt) x => m.askRetire x 2) s.mgmt }.retireAsked

/-- What is held at a direction of a port sent on by the routes of now, where they name another port (R311). What a peer package holds at the
direction that leads inward is its own to route, and stays (log 49). -/
def State.reroute (s : State) (site p : Nat) : State :=
  if 24 ≤ p then s else
  let l := s.link site p
  let stay := fun (q : Packet) => (s.nextHop site q).map (·.1) == some p
  let s1 := s.setLink site p { l with held := l.held.filter stay, waiting := l.waiting.filter stay }
  (l.held.filter (fun q => !stay q) ++ l.waiting.filter fun q => !stay q).foldr (fun q (u : State) => u.sendAgain site q) s1

/-- What is held at both directions of a port sent on. -/
def State.rerouteBoth (s : State) (site p : Nat) : State :=
  match otherEnd site p with
  | none => s.reroute site p
  | some e => (s.reroute site p).reroute e.1 e.2

/-- `LINK_DOWN_TIMEOUT` (R311, R312, R448): the link has not returned within 1 ms. Firmware is told, entries for sites without a route become
invalid, and a die to which every route is lost is retired; once firmware has rewritten the routes, what the port holds goes by the new
ones. -/
def execLinkDownTimeout (s : State) : Host.Outcome State Fault Refusal :=
  let l := s.link s.ev.site s.ev.n
  .next (match l.down with
    | none => s
    | some t =>
      if s.runNs < t + 1000000 then s
      else if !l.told then ((s.bothWays s.ev.site s.ev.n fun l => { l with told := true }).pruneRoutes).tellFirmware.retireIsolated
      else (s.rerouteBoth s.ev.site s.ev.n).resendBoth s.ev.site s.ev.n)

end Sys2Proof.Machine
end

