-- ==== Sys2Proof/Machine/Resets.lean ====
section
/-! DEFINITION. Resets of a cluster, a fold and the package, and the watchdogs (R288 to R291, R443 to R447, R491). -/

namespace Sys2Proof.Machine

/-! ### Teams that a reset meets (R40, R168, R289) -/

/-- The cores of a cluster. -/
def clusterIds (site cl : Nat) : List CoreId :=
  let n := Config.clusterCores (Config.kindAt site)
  (List.range n).map fun k => ⟨site, cl * n + k⟩

/-- An asynchronous fault of a core's team (R40, R168, R184): its phase ends, and it is to leave its core; a synchronous fault that is
being saved stays the one recorded. -/
def State.asyncFault (s : State) (c : CoreId) (l : Leave) : State :=
  let k := s.core c
  if !k.run then s
  else
    s.setCore c (({ k with team := endPhase k.team } : CoreSt).askLeave (match k.leave with | some (.fault r) => .fault r | _ => l) s.runNs)

/-- The record of a team that a reset ends without its save (R289): `RESET` with auxiliary word 0. -/
def State.lostRecord (s : State) (c : CoreId) (t : TeamSt) : Record := s.recordOf c t 3 t.c.pc ⟨.RESET, 0, 0, [], false, none⟩

/-- A migration that an ending team asked for concludes (R341 step 7): the old frame enters its pool. -/
def State.endMig (s : State) (c : CoreId) : State :=
  match s.migrate.find? fun m => m.core == c with
  | none => s
  | some m =>
    let w := s.who c
    match s.migEnd w (poolKey (w.fold.getD 0) (decide (farBase ≤ m.old * 65536))) 0 m with
    | .ok u => u
    | .error _ => { s with migrate := s.migrate.filter (· != m) }

/-- A team taken from its core without a save (R289, R499): its waiter records go, its L1 contents and unperformed stores are lost, and what
it holds is given back. -/
def State.endOnCore (s : State) (c : CoreId) : State :=
  let s1 := s.endMig c
  (s1.leaveWait c false).giveBack c.site (s1.team c)

/-- A resident team ended at step 3 of a cluster reset (R289, R291): it may only be killed, and its copies run on. -/
def State.endUnsaved (s : State) (c : CoreId) : State :=
  let t := s.team c
  let q := s.raiseSusp (droverOf c t) (s.lostRecord c t) false
  ((q.2.endOnCore c).putAway c { team := deadTeam t, from_ := c, conds := [], ready := false, handle := some q.1, dead := true, fresh := false }).vacate c

/-! ### Cluster reset (R288 to R291) -/

/-- Whether a cluster's reset is running. -/
def State.inReset (s : State) (site cl : Nat) : Bool := (s.cluster site cl).reset.isSome

/-- A cluster reset requested (R288, R289 step 1): its teams receive `RESET`, its assignments are withdrawn; a request during a reset joins
that reset. -/
def State.clusterReset (s : State) (site cl : Nat) : State :=
  if clustersOf site ≤ cl || s.inReset site cl then s
  else
    let s1 := s.setCluster site cl { s.cluster site cl with reset := some s.runNs }
    (clusterIds site cl).foldl (fun (u : State) c => (if (u.core c).shadow.st == .empty then u else u.cancelPlane c).asyncFault c .reset) s1

/-- `CLUSTER_RESET` (R288, R289). -/
def execClusterReset (s : State) : Host.Outcome State Fault Refusal := .next (s.clusterReset s.ev.site s.ev.n)

/-- The teams that wait swapped out for words of a cluster requeued, their records having been discarded (R277, R291). -/
def State.requeueSwapped (s : State) (site cl : Nat) : State :=
  let hit := fun (a : Away) => a.conds.any fun w => match w with | .fe x k _ _ => x == site && k == cl | _ => false
  ([0, 1] : List Nat).foldl (fun (u : State) d =>
    (List.range (u.drv d).away.length).foldl (fun (v : State) n => match v.awayAt d n with
      | some a => if hit a then v.requeue d n a else v
      | none => v) u) s

/-- The network interface of a cluster cleared (R290): what it has injected in part into the links of its die ends there. -/
def State.cutInterface (s : State) (site cl : Nat) : State :=
  s.setDie site { s.die site with links := (s.die site).links.map fun e => (e.1, e.2.cutFrom cl) }

/-- What a die keeps of the cube lease back at its reset state (R235, R289): a CUB die has one cluster, and its cores' own parts return with
them. -/
def State.leaseReset (s : State) (site : Nat) : State := s.setDie site { s.die site with lastHold := Die.reset.lastHold }

/-- Steps 3 to 5 of a cluster reset (R289 to R291): unsaved teams end, the network interface is cleared, the cluster's cores return to their
reset state, and its waiter records are discarded. Its scratchpad stays. Until it is live again what arrives for it is discarded (R290). -/
def State.clusterClear (s : State) (site cl : Nat) : State :=
  let s1 := (clusterIds site cl).foldl (fun (u : State) c => if (u.core c).run then u.endUnsaved c else u) s
  let s2 := (clusterIds site cl).foldl (fun (u : State) c => u.setCore c { CoreSt.reset with service := (u.core c).service, l1Next := (u.core c).l1Next }) (s1.cutInterface site cl)
  let s3 := (s2.requeueSwapped site cl).leaseReset site
  s3.setCluster site cl { s3.cluster site cl with waiters := [], clearing := true, inbox := [] }

/-- Step 6 of a cluster reset (R289): the cluster is live again. -/
def State.clusterLive (s : State) (site cl : Nat) : State := s.setCluster site cl { s.cluster site cl with reset := none, clearing := false }

/-- `CLUSTER_RESET_SAVE_DEADLINE` (R289 to R291): steps 3 to 5, 40 µs after the request of a cluster reset; taken again, it ends the reset
(log 25). -/
def execClusterResetSaveDeadline (s : State) : Host.Outcome State Fault Refusal :=
  let c := s.cluster s.ev.site s.ev.n
  .next (match c.reset with
    | some t =>
      if c.clearing then s.clusterLive s.ev.site s.ev.n
      else if t + 40000 ≤ s.runNs then s.clusterClear s.ev.site s.ev.n
      else s
    | none => s)

/-! ### Fold reset (R445) -/

/-- The launches that a fold reset ends (R395, R445): (drover, graph index, launch id) with their status. -/
def State.foldLaunches (s : State) (f : Nat) : List (Nat × Nat × Launch × Nat) :=
  ([0, 1] : List Nat).flatMap fun d => (s.drv d).graphs.flatMap fun e =>
    if bit e.2.mask f then e.2.launches.map fun l => (d, e.1, l, if isGang e.2 && l.commit.isNone then 4 else 5) else []

/-- The completion signal of a launch that has ended, written, or put off where it has to wait (R390, R408). -/
def State.signalAgain (s : State) (d : Nat) (req : LaunchReq) (st : Nat) : State :=
  match s.signal d req st with
  | .ok u => u
  | .error h => (s.waited h).putOff (.signal d req st)

/-- The launches' completion signals written (R390, R408), flushes before them (R406). -/
def State.signalAll (s : State) : List (Nat × Nat × Launch × Nat) → State
  | [] => s
  | (d, _, l, st) :: t =>
    (((modeBufs l.req.buffers 1).foldl (fun (u : State) e => u.flushBuf e.1 e.2) s).signalAgain d l.req st).signalAll t

/-- Whether a team ends with a fold reset: it is of the fold, or of a launch that the reset ends (R372, R445). -/
def endsWith (f : Nat) (l : List (Nat × Nat × Launch × Nat)) (t : TeamSt) : Bool :=
  match t.id with
  | some i => !i.fw && (i.fold == f || l.any fun e => e.1 == i.drv && i.lid == BitVec.ofNat 64 e.2.2.1.lid)
  | none => false

/-- A running copy carried on to a 64-byte boundary of its destination (R445 step 2): entry `n % 8` of team number `n / 8` of a core. -/
def State.toBoundary (s : State) (c : CoreId) (n : Nat) : Nat → State
  | 0 => s
  | k + 1 =>
    match (s.teamN c (n / 8)).bind fun t => tget? t.board (n % 8) with
    | some e =>
      if e.st == .running && e.done != 0 && decide (e.done < e.len) && (e.dst.toNat + e.done) % 64 != 0 then
        (s.copyWord c n).toBoundary c n k
      else s
    | none => s

/-- The copies of a core's ending teams stopped, or declared failed, with their suspensions over (R417, R445 step 2). -/
def State.stopCopies (s : State) (p : TeamSt → Bool) (c : CoreId) : State :=
  (List.range (1 + (s.awaysOf c).length)).foldl (fun (u : State) k => match u.teamN c k with
    | none => u
    | some t =>
      if !p t then u
      else
        let v := (List.range 8).foldl (fun (x : State) e => x.toBoundary c (8 * k + e) 9) u
        match v.teamN c k with
        | none => v
        | some t1 => t1.board.foldl (fun (x : State) e => match e.2.handle with
            | some h => x.endSusp (droverOf c t1) h
            | none => x) (v.setTeamN c k { t1 with board := [], tickets := [] })) s

/-- The cores that hold a state, or that a team away has left. -/
def State.knownCores (s : State) : List CoreId :=
  ((s.cores.map fun e => (⟨e.1 / 128, e.1 % 128⟩ : CoreId)) ++ s.drovers.flatMap fun d => d.2.away.map (·.from_)).eraseDups

/-- A record of a suspension that is over as soon as it is made, so that its handle is stale (R417, R445). -/
def State.raiseStale (s : State) (d : Nat) (r : Record) : State :=
  let q := s.raiseSusp d r false
  q.2.endSusp d q.1

/-- A resident team ended by a fold reset, with a record whose handle is stale (R417, R445). -/
def State.endStale (s : State) (c : CoreId) : State :=
  let t := s.team c
  ((s.raiseStale (droverOf c t) (s.lostRecord c t)).endOnCore c).vacate c

/-- A team away from its core ended by a fold reset: one that has ended already leaves nothing. -/
def State.endAwayStale (s : State) (d : Nat) (a : Away) : State :=
  let s1 := match a.handle with | some h => s.endSusp d h | none => s
  if a.dead then s1
  else ((s1.freeSwapped a).giveBack a.from_.site a.team).raiseStale d (s1.lostRecord a.from_ a.team)

/-- Every team that a test names ended (R445 step 2): resident, in a shadow plane, or away. -/
def State.endTeams (s : State) (p : TeamSt → Bool) : State :=
  let s1 := s.knownCores.foldl (fun (u : State) c => u.stopCopies p c) s
  let s2 := s1.knownCores.foldl (fun (u : State) c =>
    let k := u.core c
    let v := if (match k.shadow.team with | some t => p t | none => false) then u.cancelPlane c else u
    if k.run && p k.team then v.endStale c else v) s1
  ([0, 1] : List Nat).foldl (fun (u : State) d =>
    let l := (u.drv d).away
    let v := u.setDrv d { u.drv d with away := l.filter fun a => !p a.team }
    (l.filter fun a => p a.team).foldl (fun (x : State) a => x.endAwayStale d a) v) s2

/-- The hardware queue slots of a fold freed: written back as by `QSAVE`, with PART cleared (R410, R445). -/
def State.freeSlots (s : State) (d f : Nat) : State :=
  ((s.drv d).slots.filter fun e => e.2.st != .free && e.2.copy.fold.toNat == f).foldl (fun (u : State) e =>
    let r := match u.behind d e.2.copy with | .ok x => x | .error _ => (true, u)
    let v := r.2.saveSlot d e.1 0
    if r.1 then v.raisePend d e.2.qcb else v) s

/-- The nodes of a list back in IDLE, their references dropped and their flocks freed, that of a preplaced node too (R395); counts of
instances still to come are void (R372, R445). -/
def State.idleNodes (s : State) (d : Nat) (l : List Nat) : State :=
  let s1 := l.foldl (fun (u : State) k => if (u.node d k).st == .idle then u.freeNodeFlock d k else u.endNode d k .idle) s
  s1.setDrv d { s1.drv d with doneQ := (s1.drv d).doneQ.filter fun e => !l.contains e.1 }

/-- The nodes of a fold, and those of the graphs whose launches end. -/
def State.nodesOf (s : State) (d f : Nat) : List Nat :=
  ((s.drv d).nodes.filter fun e => e.2.used && e.2.fold == f).map (·.1) ++
    (s.drv d).graphs.flatMap fun e => if bit e.2.mask f && !e.2.launches.isEmpty then e.2.nodes else []

/-- The buffers that `BRNEW` made in a fold freed (R445). -/
def State.freeMade (s : State) (d f : Nat) : State :=
  ((s.drv d).bufs.filter fun e => e.2.live && !e.2.freeing && !e.2.graphOwned && e.2.fold == f).foldl (fun (u : State) e => u.freeBuf d e.1) s

/-- Step 3 of a fold reset on one drover. -/
def State.foldTables (s : State) (f d : Nat) : State :=
  let l := s.nodesOf d f
  let s1 := ((s.freeSlots d f).idleNodes d l).freeMade d f
  s1.setDrv d { s1.drv d with graphs := tmap (fun _ g => if bit g.mask f then { g with launches := [] } else g) (s1.drv d).graphs }

/-- Whether a physical page is of a fold: in its window, or in one of its extents. -/
def State.foldPage (s : State) (f page : Nat) : Bool :=
  s.inWindow (Config.drvSite s.timeDrv) f page ||
    (match s.extentOf (page * 65536) with | some e => e.fold == f | none => false)

/-- Step 4 of a fold reset: the fold's dirty L2 pieces written back, and its translations dropped (R176, R445). -/
def State.foldMemory (s : State) (f : Nat) : State :=
  let l := s.dies.flatMap fun e => (e.2.l2.filter fun p => s.foldPage f (p.1 / 1024)).map fun p => (e.1, p.1)
  let s1 := l.foldl (fun (u : State) p => u.pieceHome p.1 p.2) s
  let a := (s.fold s.timeDrv f).abase.toNat
  let n := (s.fold s.timeDrv f).acnt.toNat
  { s1 with dies := tmap (fun _ (x : Die) => { x with tlb := x.tlb.filter fun e => e.glob || !(decide (a ≤ e.asid) && decide (e.asid < a + n)) }) s1.dies }

/-- A cluster after a fold reset that covers it (R288 to R290, R444): it is reset with the fold. A reset of its own is joined and stops; its
network interface is cleared, and its free cores, lease and waiter records are as a cluster reset leaves them. -/
def State.coverCluster (s : State) (site cl : Nat) : State :=
  let s1 := (clusterIds site cl).foldl (fun (u : State) c =>
    if (u.core c).run then u else u.setCore c { CoreSt.reset with service := (u.core c).service, l1Next := (u.core c).l1Next })
    ((s.cutInterface site cl).leaseReset site)
  let c := s1.cluster site cl
  s1.setCluster site cl { c with waiters := c.waiters.filter fun x => (s1.core ⟨site, x.core⟩).run, reset := none, clearing := false, inbox := [] }

/-- The clusters of a fold's dies after its reset. -/
def State.foldClusters (s : State) (f : Nat) : State :=
  ((List.range 60).filter fun x => (s.fold s.timeDrv f).sites.getLsbD x).foldl (fun (u : State) x =>
    (List.range (clustersOf x)).foldl (fun (v : State) cl => v.coverCluster x cl) u) s

/-- Step 6 of a fold reset: LOCK cleared (R392, R445). -/
def State.unlockFold (s : State) (f d : Nat) : State :=
  s.setDrv d { s.drv d with folds := tset (s.drv d).folds f { s.fold d f with lock := false } }

/-- The flocks of a fold freed (R280, R387, R445). -/
def State.freeFlocks (s : State) (f : Nat) : State :=
  s.dies.foldl (fun (u : State) d => (d.2.flocks.filter fun e => e.2.fold == f).foldl (fun (v : State) e => v.freeFlock d.1 e.1) u) s

/-- A fold reset (R445), in the order of its steps, whole in one step of the model (log 11): a completion signal that has to wait is written
later, and holds nothing else up. -/
def State.foldReset (s : State) (f : Nat) : State :=
  let l := s.foldLaunches f
  let s1 := s.signalAll l
  let s2 := l.foldl (fun (u : State) e => u.unplace e.1 e.2.2.1.lid) s1
  let s3 := s2.endTeams (endsWith f l)
  let s4 := (s3.foldTables f 0).foldTables f 1
  ((((s4.freeFlocks f).foldClusters f).foldMemory f).unlockFold f 0).unlockFold f 1

/-- `FOLD_RESET` (R445). -/
def execFoldReset (s : State) : Host.Outcome State Fault Refusal := .next (s.foldReset s.evFold)

/-! ### Package reset and the first step of boot (R433 to R436, R446) -/

/-- Step 1 of the boot ROM (R435, R436, R450): an invalid record, or a retired drover die 0, leads to safe mode. -/
def Mgmt.romStart (m : Mgmt) : Mgmt :=
  if m.phase != 0 || m.brownout then m
  else if !m.recValid || decide (60 < m.record.length) then { m with phase := 5, bootstat := 7 }
  else if m.retired (Config.drvSite 0) then { m with phase := 5 }
  else { m with phase := 1 }

/-- The links of sites held down, both directions of each (R435 step 1). -/
def State.holdDown (s : State) (l : List Nat) : State :=
  l.foldl (fun (u : State) x => (List.range 24).foldl (fun (v : State) p =>
    if (otherEnd x p).isSome then v.bothWays x p fun k => { k with down := some s.runNs, told := true } else v) u) s

/-- Step 1 of the boot ROM (R435): from a valid record it holds the links of retired sites down. -/
def State.rom (s : State) : State :=
  let m := s.mgmt
  let u : State := { s with mgmt := m.romStart }
  if m.phase != 0 || m.brownout || u.mgmt.bootstat == 7 then u else u.holdDown ((List.range 60).filter m.retired)

/-- The state of the package after it is reset (R434, R446, R449, R469): the links of the host ports, the retirement record, retirements
that wait, the memory outside the package and the model's own schedule and counters go on. Step 1 of the boot ROM follows. -/
def State.restarted (s : State) (held : Bool) : State :=
  ({ State.reset with
    mgmt := { Mgmt.reset with record := s.mgmt.record, recSeq := s.mgmt.recSeq, recValid := s.mgmt.recValid, toRetire := s.mgmt.toRetire,
                              hostUp := s.mgmt.hostUp, brownout := held },
    hostMem := s.hostMem, peerMem := s.peerMem, cyc := s.cyc, up := s.up, ticks := s.ticks, freeCtr := s.freeCtr, agenda := s.agenda,
    turn := s.turn } : State).rom

/-- `PACKAGE_RESET` (R446): while the input is too low the package stays in reset (R452). -/
def execPackageReset (s : State) : Host.Outcome State Fault Refusal := .next (s.restarted s.mgmt.brownout)

/-! ### RSTREQ (R443, R444) -/

/-- RSTSTAT after a request: its scope and result. -/
def State.rstResult (s : State) (scope result : Nat) : State :=
  { s with mgmt := { s.mgmt with rststat := BitVec.ofNat 32 (scope + 256 * result) } }

/-- Whether a write of RSTREQ acts: its key and scope are right, the package is not held in reset, and in safe mode only a package reset acts. -/
def State.rstActs (s : State) (scope : Nat) : Bool :=
  let w := s.ev.word.toNat
  bits w 31 24 == 0x5A && bits w 2 0 == scope && !s.mgmt.brownout && (s.mgmt.phase != 5 || scope == 3)

/-- Whether a site is there and not retired. -/
def State.siteLive (s : State) (site : Nat) : Bool := s.siteThere s.timeDrv site

/-- `RSTREQ_CLUSTER` (R443, R444). -/
def execRstreqCluster (s : State) : Host.Outcome State Fault Refusal :=
  let site := bits s.ev.word.toNat 15 10
  let cl := bits s.ev.word.toNat 9 6
  .next (if !s.rstActs 1 then s
    else if !s.siteLive site || decide (clustersOf site ≤ cl) then s.rstResult 1 1
    else if s.inReset site cl then s.rstResult 1 2
    else (s.clusterReset site cl).rstResult 1 0)

/-- `RSTREQ_FOLD` (R443 to R445). -/
def execRstreqFold (s : State) : Host.Outcome State Fault Refusal :=
  .next (if s.rstActs 2 then (s.foldReset (bits s.ev.word.toNat 5 3)).rstResult 2 0 else s)

/-- `RSTREQ_PACKAGE` (R443, R446). -/
def execRstreqPackage (s : State) : Host.Outcome State Fault Refusal := .next (if s.rstActs 3 then s.restarted false else s)

/-- `RSTREQ_RELEASE` (R175, R443): a halted firmware core goes on, and its watchdog starts anew. -/
def execRstreqRelease (s : State) : Host.Outcome State Fault Refusal :=
  let site := bits s.ev.word.toNat 15 10
  let k := bits s.ev.word.toNat 9 6
  let c : CoreId := ⟨site, k⟩
  .next (if !s.rstActs 4 then s
    else if Config.kindAt site != .drv || !s.siteLive site then s.rstResult 4 1
    else
      let d := Config.siteDrv site
      let s1 := if (s.core c).halted then s.setCore c { s.core c with halted := false } else s
      (s1.setDrv d { s1.drv d with fwkick := tset (s1.drv d).fwkick k s.runNs }).rstResult 4 0)

/-! ### Watchdogs (R447, R491) -/

/-- `CORE_WATCHDOG` (R447): a team that has issued nothing for 2^26 cycles is to be suspended. -/
def execCoreWatchdog (s : State) : Host.Outcome State Fault Refusal :=
  let c := s.ev.core
  let k := s.core c
  .next (if k.run && coreCls c != .drover && k.leave.isNone && decide (k.lastIss + 2 ^ 26 ≤ s.cyc) then
      s.asyncFault c (.fault (s.record c 3 k.team.c.pc ⟨.WATCHDOG, 0, 1, [], false, none⟩))
    else s)

/-- `FIRMWARE_WATCHDOG` (R447, R491): a firmware core whose kick register has gone unwritten for 100 ms stops as `HALT` stops it. -/
def execFirmwareWatchdog (s : State) : Host.Outcome State Fault Refusal :=
  let d := s.ev.site % 2
  let c : CoreId := ⟨Config.drvSite d, s.ev.n % 16⟩
  .next (if (s.core c).run && !(s.core c).halted && decide (tget 0 (s.drv d).fwkick (s.ev.n % 16) + 100000000 ≤ s.runNs) then
      (s.haltCore c).tellHost d
    else s)

/-- `FWKICK` (R491): any store to the kick register restarts the core's watchdog. -/
def execFwkick (s : State) : Host.Outcome State Fault Refusal :=
  let d := s.ev.site % 2
  .next (s.setDrv d { s.drv d with fwkick := tset (s.drv d).fwkick (s.ev.n % 16) s.runNs })

/-- Whether a team is an instance of a node. -/
def ofNode (d k : Nat) (t : TeamSt) : Bool :=
  match t.id with
  | some i => i.drv == d && i.slot == k && !i.fw
  | none => false

/-- The record of an instance that the node deadline kills (R447). -/
def State.lateRecord (s : State) (c : CoreId) (t : TeamSt) : Record :=
  { s.recordOf c t 3 t.c.pc ⟨.WATCHDOG, 0, 2, [], false, none⟩ with susp := false }

/-- Every instance of a node killed, each with its record (R373, R447). -/
def State.killNode (s : State) (d k : Nat) : State :=
  let s1 := s.knownCores.foldl (fun (u : State) c =>
    let x := u.core c
    let v := if (match x.shadow.team with | some t => ofNode d k t | none => false) then u.cancelPlane c else u
    if x.run && ofNode d k x.team then ((v.raiseRecord d (v.lateRecord c x.team)).endMig c).endResident c true else v) s
  ((s1.drv d).away.filter fun a => ofNode d k a.team && (!a.dead || a.handle.isSome)).foldl (fun (u : State) a =>
    match (u.drv d).away.findIdx? fun b => b == a with
    | none => u
    | some n =>
      let v := match a.handle with | some h => u.endSusp d h | none => u
      (v.raiseRecord d (v.lateRecord a.from_ a.team)).killAway d n a) s1

/-- `NODE_DEADLINE` (R447): a node still READY or RUNNING after NDEAD ends FAILED, its instances killed. -/
def execNodeDeadline (s : State) : Host.Outcome State Fault Refusal :=
  let d := s.ev.site % 2
  let k := s.ev.n
  let n := s.node d k
  let lim := fieldW (tget 0 (s.drv d).wdcfg n.fold) 31 0
  .next (if n.used && (n.st == .ready || n.st == .running) && lim != 0 && decide (n.readyNs + 1000 * lim ≤ s.runNs) then
      let s1 := (s.killNode d k).finishNode d k .failed
      s1.setDrv d { s1.drv d with doneQ := (s1.drv d).doneQ.filter fun e => e.1 != k }
    else s)

/-- Whether a request to a cluster has gone unanswered for 1 ms (R447): the save of a team, the loading of a plane, or a packet delivered to
its network interface. -/
def State.clusterLate (s : State) (site cl : Nat) : Bool := ((s.cluster site cl).inbox.any fun e => decide (e.2 + 1000000 ≤ s.runNs)) ||
  (clusterIds site cl).any fun c =>
  let k := s.core c
  (k.leave.isSome && decide (k.leaveAt + 1000000 ≤ s.runNs)) || (k.shadow.st == .loading && decide (k.loadAt + 1000000 ≤ s.runNs))

/-- `CLUSTER_WATCHDOG` (R447): a cluster that leaves a request unanswered is reset, with a record. -/
def execClusterWatchdog (s : State) : Host.Outcome State Fault Refusal :=
  let site := s.ev.site
  let r : Record := { addr := 0, node := 0xFFFFFFFF, inst := 0xFFFFFFFF, time := (s.nsAt site).toNat % 2 ^ 48, code := .WATCHDOG, strand := 3,
                      site := site, core := 0, pc := 0, held := false, susp := false, aux := 3, handle := none }
  .next (if clustersOf site ≤ s.ev.n || s.inReset site s.ev.n || !s.clusterLate site s.ev.n then s else (s.clusterReset site s.ev.n).raiseRecord s.timeDrv r)

/-- `FOLD_WATCHDOG` (R447): a launch that has not ended FWDT after it started makes its fold be reset. -/
def execFoldWatchdog (s : State) : Host.Outcome State Fault Refusal :=
  .next (match graphOf s.ev.n with
    | none => s
    | some (d, gi) =>
      match s.graphAt d gi with
      | none => s
      | some g =>
        match g.launches with
        | [] => s
        | l :: _ =>
          let due := fun (f : Nat) =>
            let lim := fieldW (tget 0 (s.drv d).wdcfg f) 63 32
            lim != 0 && decide (l.startAt + 1000000 * lim ≤ s.runNs)
          if !l.started then s else ((foldsOf g).filter due).foldl (fun (u : State) f => u.foldReset f) s)

end Sys2Proof.Machine
end

