-- ==== Sys2Proof/Machine/Life.lean ====
section
/-! DEFINITION. The life of the package: boot, firmware cores, attestation, the mailbox, degradation and retirement, heat and power, the
management window, and device time (R318, R433 to R452, R469 to R473, R488, R489). -/

namespace Sys2Proof.Machine

/-! ### The discovery table and MGSTAT (R379, R442) -/

/-- A discovery entry with a byte field of it changed (R379): bits from `lo`, `n` of them. -/
def setField (e : W128) (lo n v : Nat) : W128 :=
  let m : W128 := BitVec.ofNat 128 ((2 ^ n - 1) * 2 ^ lo)
  (e &&& ~~~m) ||| (BitVec.ofNat 128 (v % 2 ^ n * 2 ^ lo))

/-- A site's entry changed in the discovery tables of both drovers. -/
def State.setDisc (s : State) (site : Nat) (f : W128 → W128) : State :=
  ([0, 1] : List Nat).foldl (fun (u : State) d => u.setDrv d { u.drv d with disc := tset (u.drv d).disc site (f (tget 0 (u.drv d).disc site)) }) s

/-- The sites with a status. -/
def State.sitesWith (s : State) (st : Nat) : List Nat := (List.range 60).filter fun x => s.siteStatus s.timeDrv x == st

/-- MGSTAT (R442). -/
def State.mgstat (s : State) : W64 :=
  let r := (s.sitesWith 3).length
  let g := (s.sitesWith 2).length
  packW [(r, 16), (g, 8), (b2n s.mgmt.cap, 6), (b2n s.mgmt.therm, 5), (b2n (r != 0 || g != 0), 4), (s.mgmt.phase, 0)]

/-- RSTSTAT (R443): BUSY while a cluster reset runs. -/
def State.rststatWord (s : State) : W64 :=
  let busy := s.dies.any fun e => e.2.clusters.any fun c => c.2.reset.isSome
  s.mgmt.rststat.setWidth 64 ||| packW [(b2n busy, 31)]

/-! ### The retirement record (R434) -/

/-- The bytes of an entry of the record. -/
def recordEntry (e : Nat × Nat × Nat) : List Byte :=
  [BitVec.ofNat 8 e.1, BitVec.ofNat 8 e.2.1] ++ List.replicate 6 0 ++ leBytes 8 e.2.2

/-- The retirement record with its signature by the device identity key. -/
def Mgmt.recordBytes (m : Mgmt) : List Byte :=
  let body := leBytes 4 1 ++ leBytes 4 m.recSeq ++ [BitVec.ofNat 8 m.record.length] ++ List.replicate 7 0 ++ m.record.flatMap recordEntry
  body ++ leBytes 64 (deviceSign (sha512 body)).toNat

/-! ### The management window (R441, R451) -/

/-- A word of a site's monitor record (R451). -/
def State.monitorWord (s : State) (site k : Nat) : W64 :=
  let d := s.die site
  if k == 0 then packW [((BitVec.ofInt 16 d.temp).toNat, 0), (d.volt.toNat, 16), ((Config.processCode site).toNat, 32)] else 0

/-- A word of the management window: status, reset and power registers, the mailbox with its oldest message to the host, monitors, the copy
of the retirement record and the firmware log ring (log 65). -/
def State.mgmtWord (s : State) (o : Nat) : W64 :=
  if o == 0 then s.mgstat
  else if o == 8 then s.mgmt.bootstat.setWidth 64
  else if o == 0x18 then s.rststatWord
  else if o == 0x20 then s.mgmt.pcap.setWidth 64
  else if o == 0x100 then ((s.mgmt.mboxHost.head?).map (·.2)).getD 0
  else if inBlk o 0x1000 960 then s.monitorWord ((o - 0x1000) / 16) ((o - 0x1000) % 16 / 8)
  else if inBlk o 0x2000 0x1000 then BitVec.ofNat 64 (leNat ((s.mgmt.recordBytes.drop (o - 0x2000)).take 8))
  else if inBlk o 0x4000 0xC000 then BitVec.ofNat 64 (leNat (cread s.mgmt.fwlog (o - 0x4000) 8))
  else 0

/-! ### Firmware cores (R435, R438, R488, R489) -/

/-- The words of a text window of firmware memory (R489); words not listed are 0. -/
def fwText (mem : List (Nat × Byte)) (win : Nat) : Tab W32 :=
  (List.range 16384).filterMap fun k =>
    let v := leNat (cread mem (65536 * win + 4 * k) 4)
    if v == 0 then none else some (k, BitVec.ofNat 32 v)

/-- The team of a firmware text (R397, R488): no instance of any node. -/
def fwTeam (d asid pc : Nat) : TeamSt :=
  let st : StrandSt := { StrandSt.reset with pc := pc }
  { TeamSt.reset with
    id := some { cls := .drover, drv := d, slot := 0, inst := 0, cnt := 0, fold := 0, asid := asid, lid := 0, ctx := 0, loc := 0, fw := true },
    c := st, a := st, x := st }

/-- A firmware core started at an entry of the body (R489): a core that runs is not started. -/
def State.startFw (s : State) (d k entry : Nat) : State :=
  let c : CoreId := ⟨Config.drvSite d, k⟩
  if decide (15 < k) || (s.core c).run then s
  else
    let plane : Plane := { Plane.reset with st := .active, text := fwText s.mgmt.fwmem (entry / 16384) }
    let s1 := s.setCore c { CoreSt.reset with run := true, team := fwTeam d s.mgmt.fwasid (entry % 16384), active := plane, lastIss := s.cyc, since := s.cyc }
    s1.setDrv d { s1.drv d with fwkick := tset (s1.drv d).fwkick k s.runNs }

/-- Whether firmware core 0 of drover die 0 runs, which sends the start messages (R438). -/
def State.starterRuns (s : State) : Bool :=
  let k := s.core ⟨Config.drvSite 0, 0⟩
  s.mgmt.phase == 4 && s.siteLive (Config.drvSite 0) && k.run && !k.halted

/-- `FIRMWARE_CORE_START` (R438, R489): a start message of firmware core 0 of drover die 0; the mailbox answers an entry beyond the body with
an error. -/
def execFirmwareCoreStart (s : State) : Host.Outcome State Fault Refusal :=
  let d := s.ev.site % 2
  .next (if !s.starterRuns || !s.siteLive (Config.drvSite d) then s
    else if s.mgmt.fwwords ≤ s.ev.m then s.tellFirmware
    else s.startFw d s.ev.n s.ev.m)

/-! ### Boot (R435 to R437) -/

/-- The number of bytes of the staging window (R454). -/
def stagingSize : Nat := 64 * 2 ^ 20

/-- `BOOT_STAGING_WRITE` (R435, R454): image bytes written by the host; in safe mode and while the package is held in reset function 0 does
not answer. -/
def execBootStagingWrite (s : State) : Host.Outcome State Fault Refusal :=
  let u := s.rom
  .next (if u.mgmt.phase == 5 || u.mgmt.brownout || decide (stagingSize < s.ev.n + s.ev.bytes.length) then u
    else { u with mgmt := { u.mgmt with staging := cwrite u.mgmt.staging s.ev.n s.ev.bytes } })

/-- A little-endian number of an image. -/
def bootNat (m : List (Nat × Byte)) (o n : Nat) : Nat := leNat (cread m o n)

/-- The first check of R437 that an image fails, by its BOOTSTAT code; 0 for none. -/
def imageFault (m : List (Nat × Byte)) : Nat :=
  let len := bootNat m 8 8
  let dig : BitVec 512 := BitVec.ofNat 512 (bootNat m 0x20 64)
  if bootNat m 0 4 != 0x4D483234 then 1
  else if len == 0 || decide (stagingSize < len) || bootNat m 0x18 8 != 0 then 2
  else if sha512 (cread m 0xA0 len) != dig then 3
  else if !rootVerify dig (BitVec.ofNat 512 (bootNat m 0x60 64)) then 4
  else if bootNat m 0x10 4 < Config.rollback.toNat then 5
  else 0

/-- The strapped sites that are not retired (R433 to R435). -/
def Mgmt.expected (m : Mgmt) : List Nat := (List.range 60).filter fun x => Config.kindAt x != .none && !m.retired x

/-- The discovery entry that the ROM writes for a site (R379, R435); the revision is what the die says of itself. -/
def romEntry (m : Mgmt) (rev : W64) (site : Nat) : W128 :=
  let k := Config.kindAt site
  let st := if k == .none then 0 else if m.retired site || m.toRetire.any (fun e => e.1 == site) then 3 else 1
  let cores := if st == 1 then Config.kindCores k else 0
  let stack := match Config.siteStack site with | some n => 2 ^ n | none => 0
  let holds := b2n (st == 1 && decide (0 < Config.kindCores k))
  BitVec.ofNat 128 (site / 10 + site % 10 * 2 ^ 8 + Config.kindCode k * 2 ^ 16 +
    (match Config.kindClass k with | some c => Config.clsNum c | none => 0) * 2 ^ 24 + cores * 2 ^ 32 + st * 2 ^ 48 +
    rev.toNat % 256 * 2 ^ 56 + stack * 2 ^ 64 + holds * 2 ^ 104)

/-- The sites from which a site is reached over live dies, each with the side of its die that leads there (0 north, 1 east, 2 south, 3
west), from those found so far outward; `ok` says whether a die has a link on a side. The bound is the number of sites. -/
def spread (ok : Nat → Nat → Bool) (live : List Nat) : Nat → List Nat → List (Nat × Nat) → List (Nat × Nat)
  | 0, _, found => found
  | n + 1, edge, found =>
    let next := live.filterMap fun y =>
      if found.any fun e => e.1 == y then none
      else (([0, 1, 2, 3] : List Nat).find? fun d => match portSite y (3 * d) with | some x => edge.contains x && ok y d | none => false).map fun d => (y, d)
    if next.isEmpty then found else spread ok live n (next.map (·.1)) (found ++ next)

/-- The side of a die that leads to a site. -/
def sideTo (ok : Nat → Nat → Bool) (live : List Nat) (site tgt : Nat) : Option Nat :=
  ((spread ok live 60 [tgt] [(tgt, 4)]).find? fun e => e.1 == site).map (·.2)

/-- The ports of a side of a die whose links have not been given up. -/
def State.sidePorts (s : State) (site d : Nat) : List Nat := [3 * d, 3 * d + 1, 3 * d + 2].filter fun p => !(s.link site p).told

/-- A die's route table over the live dies (R305): every live site that live dies lead to is reachable. The side is one on a shortest way,
and which of its ports is a free value (log 44). -/
def State.routesOf (s : State) (live : List Nat) (site : Nat) : Tab Byte :=
  (List.range 60).filterMap fun x =>
    if x == site then some (x, 0x8F)
    else if !live.contains x then none
    else (sideTo (fun y d => !(s.sidePorts y d).isEmpty) live site x).map fun d =>
      let l := s.sidePorts site d
      (x, BitVec.ofNat 8 (0x80 + l.getD ((Config.freeWord (s.freeCtr + 60 * site + x)).toNat % l.length) 15))

/-- Every live die's route table written (R435, R449). -/
def State.writeRoutes (s : State) (live : List Nat) : State :=
  live.foldl (fun (u : State) x => u.setDie x { u.die x with routes := s.routesOf live x }) { s with freeCtr := s.freeCtr + 3600 }

/-- Step 6 of boot: the route tables and the discovery tables written (R435). -/
def State.romTables (s : State) : State :=
  let s1 := s.writeRoutes s.mgmt.expected
  let disc : Tab W128 := (List.range 60).map fun x => (x, romEntry s.mgmt (Config.freeWord (s1.freeCtr + x)) x)
  let s2 : State := { s1 with freeCtr := s1.freeCtr + 60 }
  let s3 := s2.setDrv 0 { s2.drv 0 with disc := disc }
  s3.setDrv 1 { s3.drv 1 with disc := disc }

/-- The image's body in firmware memory, and what the management function keeps of the image (R437, R440). -/
def Mgmt.takeImage (m : Mgmt) : Mgmt :=
  let len := bootNat m.staging 8 8
  { m with fwmem := cwrite [] 0 (cread m.staging 0xA0 len), fwwords := (len + 3) / 4, digest := BitVec.ofNat 512 (bootNat m.staging 0x20 64),
           secver := BitVec.ofNat 32 (bootNat m.staging 0x10 4) }

/-- `BOOTGO` (R435 to R437): the image is verified; then the links are trained, the trained set of dies is compared with the expected one,
the tables are written, the retirements that waited are due (R449), and firmware core 0 starts; an entry beyond the body starts nothing, and the mailbox answers the host with an error
(R489). The step's operands are the dies that trained and the firmware ASID. -/
def execBootgo (s : State) : Host.Outcome State Fault Refusal :=
  let u := s.rom
  let m := u.mgmt
  .next (if m.phase != 1 then u
    else
      let f := imageFault m.staging
      if f != 0 then { u with mgmt := { m with bootstat := BitVec.ofNat 8 f, staging := [] } }
      else if !((List.range 60).all fun x => s.ev.list.contains x == m.expected.contains x) || s.ev.list.any fun x => decide (59 < x) then
        { u with mgmt := { m with phase := 5, bootstat := 6 } }
      else
        let entry := bootNat m.staging 0x14 4
        let v := ({ u with mgmt := { m.takeImage with phase := 4, fwasid := s.ev.n % 2048 } } : State).romTables.retireAsked
        if v.mgmt.fwwords ≤ entry then v.tellHost 0 else v.startFw 0 0 entry)

/-! ### Attestation and the mailbox (R440, R441, R453) -/

/-- The bytes of the discovery table. -/
def State.discBytes (s : State) : List Byte := (List.range 64).flatMap fun k => leBytes 16 (tget 0 (s.drv s.timeDrv).disc k).toNat

/-- `ATTESTATION_REQUEST` (R440): the signed report for a nonce. -/
def execAttestationRequest (s : State) : Host.Outcome State Fault Refusal :=
  let m := s.mgmt
  let body := leBytes 32 s.ev.nonce.toNat ++ leBytes 64 m.digest.toNat ++ leBytes 4 m.secver.toNat ++ leBytes 4 0 ++
    leBytes 64 (sha512 s.discBytes).toNat ++ leBytes 64 (sha512 m.recordBytes).toNat ++ leBytes 8 (s.nsAt (Config.drvSite 0)).toNat
  .next (if m.brownout then s
    else { s with mgmt := { m with report := some (body ++ leBytes 64 (deviceSign (sha512 body)).toNat) } })

/-- `MAILBOX_MESSAGE` (R424, R441): a message of the management function for the firmware of a drover, which is the cause MBOX. -/
def execMailboxMessage (s : State) : Host.Outcome State Fault Refusal :=
  let d := s.ev.site % 2
  let v := s.drv d
  .next ((s.setDrv d { v with mbox := v.mbox ++ [s.ev.word] }).wake d fun _ w => v.mbox.isEmpty && bit w.mask 3)

/-! ### Degradation and retirement (R318, R448 to R450) -/

/-- `DIE_DEGRADE` (R448): firmware removes clusters of a live die from service, and its live core count falls. -/
def execDieDegrade (s : State) : Host.Outcome State Fault Refusal :=
  let site := s.ev.site
  let st := s.siteStatus s.timeDrv site
  .next (if !(st == 1 || st == 2) || decide (bits (tget 0 (s.drv s.timeDrv).disc site).toNat 47 32 ≤ s.ev.n) then s
    else
      let s1 := (s.ev.list.flatMap fun cl => clusterIds site cl).foldl (fun (u : State) c => u.setCore c { u.core c with service := false }) s
      s1.setDisc site fun e => setField (setField e 48 8 2) 32 16 s.ev.n)

/-- The teams of a die saved where that is possible, else ended (R449 step 2). -/
def State.clearDie (s : State) (site : Nat) : State :=
  (s.coresAt site).foldl (fun (u : State) c =>
    let v := if (u.core c).shadow.st == .empty then u else u.cancelPlane c
    if !(v.core c).run then v
    else if coreCls c == .drover then v.setCore c CoreSt.reset
    else
      let x := (v.asyncFault c .reset).drainTeam c
      if saveReady (x.core c) then (match x.leaveCore c (((x.core c).leave).getD .reset) with | .ok y => y | .error _ => x.endUnsaved c)
      else x.endUnsaved c) s

/-- The physical page whose home a logical frame of a stack is (R316), as a fold's window entry has it: none for a frame that no page of the
window is mapped to. -/
def pageAt (e : W64 × BitVec 24) (fmin stack lf : Nat) : Option Nat :=
  let live := liveList e.2
  let n := live.length
  if fmin ≤ lf then none
  else (live.findIdx? fun k => k == stack).map fun i => e.1.toNat + lf * n + (i + 7 * n * lf - 7 * lf) % n

/-- The number that a line has at home after a rebuild that takes a fold's window from one entry to another (R318): its page's new place;
none for a page that is discarded. Lines of other windows keep their numbers. -/
def lineMoved (e e' : W64 × BitVec 24) (fmin fmin' h : Nat) : Option Nat :=
  let pn := h / 1024
  match pageAt e fmin (pn / 1048576) (pn % 1048576) with
  | none => some h
  | some page =>
    let live := liveList e'.2
    let n := live.length
    let p := page - e.1.toNat
    if n * fmin' ≤ p then none
    else some (frameLine (live.getD ((p % n + 7 * (p / n)) % n) 0) (p / n) + h % 1024)

/-- A table kept by numbers that move. -/
def rekey {α : Type} (f : Nat → Option Nat) (t : Tab α) : Tab α :=
  t.foldl (fun u e => match f e.1 with | some k => tset u k e.2 | none => u) []

/-- Memory at home once its lines have moved. -/
def moveCells (f : Nat → Option Nat) (m : List Host.Cell) : List Host.Cell :=
  m.foldl (fun u e => match f (e.1 / 64) with | some h => cwrite u (h * 64 + e.1 % 64) [e.2] | none => u) []

/-- The new places of the lines that stood on a stack, each to be poisoned (R318). -/
def lostLines (e : W64 × BitVec 24) (fmin stack : Nat) (f : Nat → Option Nat) : List Nat :=
  (List.range fmin).flatMap fun lf => match pageAt e fmin stack lf with
    | some _ => (List.range 1024).filterMap fun k => f (frameLine stack lf + k)
    | none => []

/-- The logical frames of a stack that hold bytes, or lines that are poisoned or stored under a key, beyond those that its pool has frames
for. -/
def State.framesOver (s : State) (stack : Nat) (d : Die) : List Nat :=
  ((s.mem.map (fun (e : Host.Cell) => e.1 / 65536) ++ s.lineBad.map (fun (e : Nat × Bool) => e.1 / 1024) ++
      s.lineKey.map (fun (e : Nat × BitVec 256 × Nat) => e.1 / 1024)).filterMap fun p =>
    if p / 1048576 == stack && decide (poolSize d ≤ p % 1048576) then some (p % 1048576) else none).eraseDups

/-- A stack's die after a rebuild: a page with contents that the pool has no frame for is in the cave, in as many chunks as its compression
gives, at most 12 (log 12). -/
def State.rebuiltDie (s : State) (stack : Nat) (d : Die) : Die :=
  (s.framesOver stack d).foldl (fun (x : Die) lf =>
    let n := min 12 (max 1 (Config.compressChunks (cread s.mem (frameLine stack lf * 64) 65536)))
    { x with frames := tset x.frames lf (.cave n (foldKey x)), caveUsed := x.caveUsed + n }) d

/-- A fold's mapping rebuilt over the stacks that are left (R318): cached pieces of the fold go home first, every page moves to its new place,
pages of the lost stack are poisoned, and pages at or above the new top are discarded. Every page that stays is RESIDENT, or where the pool
has no frame for it in the cave (log 12). -/
def State.mapRebuild (s : State) (f stack : Nat) : State :=
  let at_ := Config.drvSite s.timeDrv
  let e := s.winEnt at_ f
  let e' : W64 × BitVec 24 := (e.1, setBit e.2 stack false)
  let fmin := s.fmin (liveList e.2)
  let fmin' := s.fmin (liveList e'.2)
  let mv := lineMoved e e' fmin fmin'
  let blk := fun (b : Nat) => (mv (b * 64)).map (· / 64)
  let s1 := (s.rangePieces (e.1.toNat * 65536) ((liveList e.2).length * fmin * 65536)).foldl
    (fun (u : State) p => u.pieceLeave p.1 p.2) s
  let s2 : State := { s1 with
    lineBad := (lostLines e fmin stack mv).foldl (fun t h => tset t h true) (rekey mv s1.lineBad),
    lineKey := rekey mv s1.lineKey, treeBad := rekey blk s1.treeBad, minor := rekey mv s1.minor, major := rekey blk s1.major,
    latent := rekey mv s1.latent, mem := moveCells mv s1.mem,
    dies := tmap (fun _ (x : Die) => { x with window := tmap (fun k (y : W64 × BitVec 24) => if k == f then (y.1, setBit y.2 stack false) else y) x.window }) s1.dies }
  (liveList e.2).foldl (fun (u : State) k =>
    let x := Config.stackSite k
    u.setDie x (u.rebuiltDie k { u.die x with frames := [], freeFr := [], frTaken := 0, caveUsed := 0, short := false })) s2

/-- What a retired drover die takes with it (R449): its graphs, queues and fault queue; its launches end without a signal, and the teams of
its graphs with them. Its discovery table and fold descriptors stand. The time base of die 0 moves to the follower counter of die 1 (R450). -/
def State.loseDrover (s : State) (d : Nat) : State :=
  let s1 := s.endTeams fun t => match t.id with | some i => i.drv == d && !i.fw | none => false
  let v := s1.drv d
  let s2 := s1.setDrv d { Drover.reset with disc := v.disc, folds := v.folds, wdcfg := v.wdcfg, bpool := v.bpool }
  let n := s.ns.toNat * 65536 + s.frac.toNat + (if d == 0 then Config.followSkew (Config.drvSite 1) % 524289 else 0)
  { s2 with ns := BitVec.ofNat 64 (n / 65536), frac := BitVec.ofNat 16 n, mgmt := { s2.mgmt with hostUp := tset s2.mgmt.hostUp d false } }

/-- The sites that are there and not retired. -/
def State.liveSites (s : State) : List Nat := (List.range 60).filter fun x => s.siteThere s.timeDrv x

/-- A die retired (R449): the discovery status, its teams, every route table, the fold of a MEM die, the record, and a message to the host; a
`TLBI` in flight counts the die as having acknowledged (R304). A die that loses every route by it is retired next (R448). -/
def State.retireDie (s : State) (site reason : Nat) : State :=
  let s1 := (s.setDisc site fun e => setField e 48 8 3).clearDie site
  let s2 : State := { s1 with
    dies := tset s1.dies site { s1.die site with routes := [], tlbiIn := [] },
    cores := tmap (fun _ (k : CoreSt) => { k with tlbi := k.tlbi.map fun l => l.filter (· != site) }) s1.cores }
  let s2' := s2.writeRoutes s2.liveSites
  let s3 := match Config.kindAt site, Config.siteStack site with
    | .mem, some n => s2'.mapRebuild (sfoldOf (s2'.die site)) n
    | .drv, _ => s2'.loseDrover (Config.siteDrv site)
    | _, _ => s2'
  ({ s3 with mgmt := { s3.mgmt with record := s3.mgmt.record ++ [(site, reason, (s.nsAt (Config.drvSite 0)).toNat)], recSeq := s3.mgmt.recSeq + 1, recValid := true,
                                    toRetire := s3.mgmt.toRetire.filter fun e => e.1 != site } } : State).tellHost s3.timeDrv |>.retireIsolated

/-- Whether the record may get an entry for a site: it is occupied, and not retired yet. -/
def State.mayRetire (s : State) (site : Nat) : Bool := decide (site < 60) && Config.kindAt site != .none && !s.mgmt.retired site

/-- Whether a die has been above 115 °C for 1 ms (R451). -/
def State.tooHot (s : State) (site : Nat) : Bool :=
  match (s.die site).hotAt with
  | some t => decide (t + 1000000 ≤ s.runNs)
  | none => false

/-- Whether a reason of R434 for the retirement of a die holds (R448): 1 firmware decides so, 2 every route to it is lost, 3 its monitor has
passed the hard limit. -/
def State.reasonHolds (s : State) (site reason : Nat) : Bool :=
  reason == 1 || (reason == 2 && s.isolated.contains site) || (reason == 3 && s.tooHot site)

/-- A die retired; where the package does not run, its status becomes 3 at once, and the rest waits until the reset has ended (R449). -/
def State.retireWhenUp (s : State) (site reason : Nat) : State :=
  if s.mgmt.phase == 4 then s.retireDie site reason
  else
    let u := s.setDisc site fun e => setField e 48 8 3
    { u with mgmt := u.mgmt.askRetire site reason }

/-- `DIE_RETIREMENT` (R318, R448 to R450): for a reason that holds, or that held when the retirement was asked for. -/
def execDieRetirement (s : State) : Host.Outcome State Fault Refusal :=
  let x := s.ev.site
  .next (if s.mayRetire x && (s.reasonHolds x s.ev.n || s.mgmt.toRetire.contains (x, s.ev.n)) then s.retireWhenUp x s.ev.n else s)

/-! ### Heat and power (R451, R452) -/

/-- `THERMAL_THROTTLE` (R451): a monitor reading of a die, in units of 1/16 °C; above 105 °C its clock is lowered and THERM is set. -/
def execThermalThrottle (s : State) : Host.Outcome State Fault Refusal :=
  let d := s.die s.ev.site
  let hot := decide (115 * 16 < s.ev.temp)
  let u := s.setDie s.ev.site { d with temp := s.ev.temp, volt := BitVec.ofNat 16 s.ev.k, hotAt := if hot then some (d.hotAt.getD s.runNs) else none }
  .next { u with mgmt := { u.mgmt with therm := u.dies.any fun e => decide (105 * 16 < e.2.temp) } }

/-- `THERMAL_RETIRE` (R449, R451): a die that has been above 115 °C for 1 ms is retired with reason 3. -/
def execThermalRetire (s : State) : Host.Outcome State Fault Refusal :=
  .next (if s.tooHot s.ev.site && s.mayRetire s.ev.site then s.retireWhenUp s.ev.site 3 else s)

/-- `POWER_BROWNOUT` (R452): the package is held in reset. -/
def execPowerBrownout (s : State) : Host.Outcome State Fault Refusal := .next (s.restarted true)

/-- `POWER_RECOVER` (R452): the module boots as after a package reset. -/
def execPowerRecover (s : State) : Host.Outcome State Fault Refusal := .next (if s.mgmt.brownout then s.restarted false else s)

/-- `POWER_CAPPING` (R442, R452): CAP while the power limit lowers clocks. -/
def execPowerCapping (s : State) : Host.Outcome State Fault Refusal := .next { s with mgmt := { s.mgmt with cap := s.ev.flag } }

/-! ### The error log (R342, R343) -/

/-- `ELOGCLR` (R343): CLR empties the log of a MEM die; sequence numbers and counters go on. -/
def execElogclr (s : State) : Host.Outcome State Fault Refusal :=
  let site := s.ev.site
  .next (if Config.kindAt site == .mem && s.ev.word.getLsbD 0 then s.setDie site { s.die site with elog := [] } else s)

/-! ### Device time (R470 to R473) -/

/-- `TMSLEW` (R471): a signed offset in ns replaces the one still pending. -/
def execTmslew (s : State) : Host.Outcome State Fault Refusal :=
  .next { s with mgmt := { s.mgmt with slew := sextNat 64 s.ev.word.toNat * 65536, slewRem := 0 } }

/-- Whether every fold is disabled, on each drover die that is left (R450). -/
def State.noFold (s : State) : Bool := (List.range 8).all fun f => !s.foldOn s.timeDrv f && (s.timeDrv == 1 || !s.foldOn 1 f)

/-- `TMSET` (R470): a new whole-ns value while every fold's EN is 0. -/
def execTmset (s : State) : Host.Outcome State Fault Refusal := .next (if s.noFold then { s with ns := s.ev.word } else s)

/-- A valid exchange with the selected time source (R473). -/
def State.timeSeen (s : State) (src : BitVec 2) : State :=
  if s.mgmt.timeSrc == src then { s with mgmt := { s.mgmt with timeHold := false, srcAt := s.runNs } } else s

/-- `PTP_EVENT_TIMESTAMP` (R472): an event flit's time enters the port's FIFO of 64 entries; a full one drops it and sets its overflow bit. -/
def execPtpEventTimestamp (s : State) : Host.Outcome State Fault Refusal :=
  let site := Config.fabSite (s.ev.n / 8)
  let p := s.ev.n % 8
  let d := s.die site
  let l := tget [] d.ptp p
  .next (if 15 < s.ev.n then s
    else (if l.length < 64 then
        s.setDie site { d with ptp := tset d.ptp p (l ++ [(BitVec.ofNat 16 s.ev.m, BitVec.ofNat 4 s.ev.k, s.countAt site)]) }
      else s.setDie site { d with ptpOvf := tset d.ptpOvf p true }).timeSeen 1)

/-- `PTM_EXCHANGE` (R473): a dialogue on a host port completes. -/
def execPtmExchange (s : State) : Host.Outcome State Fault Refusal :=
  .next (if tget true s.mgmt.hostUp (s.ev.site % 2) then s.timeSeen 2 else s)

/-- `TIME_SOURCE_LOSS` (R473): the selected source has given no valid exchange for 2 s. -/
def execTimeSourceLoss (s : State) : Host.Outcome State Fault Refusal :=
  .next (if s.mgmt.timeSrc != 0 && decide (s.mgmt.srcAt + 2000000000 ≤ s.runNs) then { s with mgmt := { s.mgmt with timeHold := true } } else s)

end Sys2Proof.Machine
end

