-- ==== Sys2Proof/Machine/Fabric.lean ====
section
/-! DEFINITION. What reaches the package from outside: the host's aperture and ports, peer requests, and writes of registers (R8, R439,
R441, R443, R453 to R461). -/

namespace Sys2Proof.Machine

/-! ### The host's aperture (R406, R454) -/

/-- The physical address of an aperture offset (R454). -/
def State.aperture (s : State) (off : Nat) : Nat := s.mgmt.apbase.toNat + off

/-- The enabled fold in whose window a physical address lies. -/
def State.openFold (s : State) (pa : Nat) : Option Nat :=
  (List.range 8).find? fun f => s.foldOn s.timeDrv f && s.inWindow (Config.drvSite s.timeDrv) f (pa / 65536)

/-- The requester that the host is at home, by fold: L2 copies are neither recalled nor invalidated (R406). -/
def State.hostWho (s : State) (f : Nat) : Who := { drvWho s.timeDrv with fold := some f }

/-- Bytes read at home, line by line; an address of a page that has been moved stands for its new frame (R341). -/
def State.homeBytes (s : State) (pa n : Nat) : Nat → Iss (List Byte × State)
  | 0 => .ok ([], s)
  | k + 1 =>
    if n == 0 then .ok ([], s)
    else match s.openFold pa with
      | none => flt .SPACE 0 0
      | some f => do
        let m := firstPart pa n
        let u ← s.reachHome (s.hostWho f) (s.forward pa) 0
        let r ← u.homeRead (s.hostWho f) (s.forward pa / 64) 0
        let q ← r.2.homeBytes (pa + m) (n - m) k
        .ok ((r.1.drop (pa % 64)).take m ++ q.1, q.2)

/-- Bytes written at home, line by line, as `homeBytes` finds them; a part of a line only where the rest of it can be read (R296, R323). -/
def State.homePut (s : State) (pa : Nat) (data : List Byte) : Nat → Iss State
  | 0 => .ok s
  | k + 1 =>
    if data.isEmpty then .ok s
    else match s.openFold pa with
      | none => flt .SPACE 0 0
      | some f => do
        let m := firstPart pa data.length
        let u ← s.reachHome (s.hostWho f) (s.forward pa) 0
        let v ← if m == 64 then .ok u else u.homeOpen (s.hostWho f) (s.forward pa / 64) 0
        (v.homeWrite (s.hostWho f) (s.forward pa) (data.take m)).homePut (pa + m) (data.drop m) k

/-- The atomics that PCIe carries (R453): FetchAdd and CAS of 32 and 64 bits. -/
def pcieAtomic : AtomOp → Bool
  | .amo f => f == 0
  | .amow f => f == 0
  | .cas => true
  | .casw => true
  | .amof _ => false

/-- The bytes that a request covers. -/
def reqSize : MemReq → Nat
  | .read n => n
  | .write d => d.length
  | .atomic op _ _ => atomSize op

/-- A request performed on the bytes of a range that two functions read and write, with its answer. -/
def performReq (req : MemReq) (s : State) (rd : State → Nat → Iss (List Byte × State)) (wr : State → List Byte → Iss State) :
    Iss (List Byte × State) :=
  match req with
  | .read n => rd s n
  | .write d => (wr s d).map fun u => ([], u)
  | .atomic op x e => do
    let n := atomSize op
    let r ← rd s n
    let u ← wr r.2 (leBytes n (atomNew op (leNat r.1) x e))
    .ok (r.1, u)

/-- The state once a request has been performed: its answer, or that it is refused (fault `SPACE`) or meets bad data; one that has to wait
is put off. -/
def State.answered (s : State) (i : Instr) (r : Iss (List Byte × State)) : State :=
  match r with
  | .ok q => { q.2 with reply := .data q.1 }
  | .error (.fault f) => { s.markBad f.bad with reply := if f.code == .SPACE then .refused else .bad }
  | .error (.stall h) => (s.waited h).askAgain i

/-- A word of the doorbell window as the host reads it (R411, R454): APBASE, and elsewhere zeros. -/
def State.doorWord (s : State) (o : Nat) : W64 := if o == 0x20008 then s.mgmt.apbase else 0

/-- Bytes of a window of 8-byte words. -/
def windowBytes (word : Nat → W64) (o n : Nat) : List Byte :=
  (List.range n).map fun k => ((word ((o + k) / 8 * 8)) >>> (8 * ((o + k) % 8))).setWidth 8

/-- What the telemetry shows of the device identity (R440): the public key and its certificate. -/
def identityBytes : List Byte := devicePublic ++ Config.deviceCert

/-- A window that the host reads (R440, R441, R454): 1 the doorbell window, 2 the management window, where a read of the mailbox takes its
oldest message (log 65), else the device identity. The doorbell window is function 0's, which answers on a port that is up. -/
def State.hostRead (s : State) (k o n : Nat) : State :=
  match k with
  | 1 => if s.hostUp then { s with reply := .data (windowBytes s.doorWord o n) } else s
  | 2 => { s with reply := .data (windowBytes s.mgmtWord o n),
                  mgmt := if o ≤ 0x100 && decide (0x100 < o + n) then { s.mgmt with mboxHost := s.mgmt.mboxHost.drop 1 } else s.mgmt }
  | _ => { s with reply := .data ((identityBytes.drop o).take n) }

/-- `HOST_APERTURE_ACCESS` (R406, R440, R441, R454): an access of the host to device memory, performed at home; outside every enabled fold's
window it is completed with Unsupported Request. The step's fold operand names another window that the host reads. -/
def execHostApertureAccess (s : State) : Host.Outcome State Fault Refusal :=
  let pa := s.aperture s.ev.n
  let n := reqSize s.ev.req
  let ok := decide (s.ev.n + n ≤ 2 ^ 36) && (match s.ev.req with | .atomic op _ _ => pcieAtomic op && s.ev.n % atomSize op == 0 | _ => true) &&
    (linesOf pa n).all fun l => (s.openFold (l * 64)).isSome
  .next (match s.ev.fold with
    | none =>
      if !s.hostUp then s
      else if !ok then { s with reply := .refused }
      else s.answered .hostApertureAccess
        (performReq s.ev.req s (fun u k => u.homeBytes pa k (k / 64 + 2)) (fun u d => u.homePut pa d (d.length / 64 + 2)))
    | some k =>
      match s.ev.req with
      | .read m => s.hostRead k s.ev.n m
      | _ => { s with reply := .refused })

/-- `HOST_PORT_LINK_DOWN` (R455). -/
def execHostPortLinkDown (s : State) : Host.Outcome State Fault Refusal :=
  .next { s with mgmt := { s.mgmt with hostUp := tset s.mgmt.hostUp (s.ev.site % 2) false } }

/-- `HOST_PORT_LINK_UP` (R450, R455): the port of a retired drover die serves the device function no more. -/
def execHostPortLinkUp (s : State) : Host.Outcome State Fault Refusal :=
  let d := s.ev.site % 2
  .next (if s.siteStatus s.timeDrv (Config.drvSite d) == 3 then s
    else { s with mgmt := { s.mgmt with hostUp := tset s.mgmt.hostUp d true } })

/-! ### Requests of peers (R458 to R461) -/

/-- Whether a request of a peer is accepted by a fabric die, which has its own peer and export tables (R459). -/
def State.peerAccepts (s : State) (fab src srcFold fold off n : Nat) : Bool :=
  let e := tget 0 (s.die (Config.fabSite fab)).peers src
  let x := tget (0, 0) (s.die (Config.fabSite fab)).exports fold
  e.getLsbD 63 && fieldW e 58 56 == fold && fieldW e 55 53 == srcFold && decide (off + n ≤ x.2.toNat * 65536)

/-- The physical address of an offset of a fold's export at a fabric die (R459). -/
def State.exportPa (s : State) (fab fold off : Nat) : Nat :=
  let x := tget (0, 0) (s.die (Config.fabSite fab)).exports fold
  ((s.winEnt (Config.fabSite fab) fold).1.toNat + x.1.toNat) * 65536 + off

/-- The requester that a peer is: at a fabric die, in the target fold (R460). -/
def peerWho (fab fold : Nat) : Who := { c := ⟨Config.fabSite fab, 0⟩, fold := some fold, asid := 0, loc := 0, drv := 0, size := 0 }

/-- The place of a request of a peer in the order of R460: the source package, its die and the class, which the step's list operand holds with
the number of the request. -/
def peerKey (x : EvArg) : Nat := (x.n * 64 + x.list.getD 0 0 % 64) * 3 + x.list.getD 1 0 % 3

/-- The number of a peer's request among those of its source die and class (R460). -/
def peerNum (x : EvArg) : Nat := x.list.getD 2 0

/-- A request of a peer package performed at the coherence point, where the fabric die that receives it accepts it (R459, R460). -/
def State.peerPerform (s : State) (fab f : Nat) : Iss (List Byte × State) := do
  let p : Place := .mem (s.exportPa fab f s.ev.k) .home
  let w := peerWho fab f
  need (s.peerAccepts fab s.ev.n s.ev.m f s.ev.k (reqSize s.ev.req)) .SPACE 0 0
  performReq s.ev.req s (fun u n => u.doLoad w p n 0) (fun u d => u.doStore w p d 0)

/-- `PEER_REQUEST_RECEIVE` (R459 to R461): the requests of a source die, of one class, are performed in the order of their numbers, whatever
ports carried them: one that comes early waits, and a copy of one that has been performed is dropped (R311). -/
def execPeerRequestReceive (s : State) : Host.Outcome State Fault Refusal :=
  let key := peerKey s.ev
  let next := tget 0 s.peerNext key
  .next (if peerNum s.ev < next then s
    else if next < peerNum s.ev then s.askAgain .peerRequestReceive
    else match s.peerPerform (s.ev.site % 2) s.evFold with
      | .error (.stall h) => (s.waited h).askAgain .peerRequestReceive
      | r =>
        let u := s.answered .peerRequestReceive r
        { u with peerNext := tset u.peerNext key (next + 1) })

/-- `PEER_REQUEST_FORWARD` (R458): a request for another package that a fabric die holds goes out on a port that leads toward it, as a packet
of the class, fold and flits that the step's operands name; without a port it is dropped. -/
def execPeerRequestForward (s : State) : Host.Outcome State Fault Refusal :=
  let site := Config.fabSite (s.ev.site % 2)
  let q := newPacket s.ev.m s.evFold (s.ev.k + 1) 60 64 site none none (some s.ev.n)
  .next (if q.wf then s.sendOn site q else s)

/-! ### Registers (R8, R399, R441, R443, R454) -/

/-- A write of the doorbell window of function 0 (R411, R454): a kick anywhere within a kick word, BOOTGO and APBASE. -/
def State.doorbell (s : State) (off : Nat) (v : W64) : State :=
  if off < 0x20000 then s.kickQueue (off / 65536) (off % 65536 / 8) none
  else if s.mgmt.phase != 1 && s.mgmt.phase != 4 then s
  else if off == 0x20000 then { s with agenda := .step .bootgo { EvArg.zero with list := s.ev.list, n := s.ev.k } :: s.agenda }
  else if off == 0x20008 then { s with mgmt := { s.mgmt with apbase := v &&& 0x0000FFF000000000 } }
  else s

/-- A request for a reset by RSTREQ, by its scope. -/
def rstStep (v : W64) : Option Instr :=
  match fieldW v 2 0 with
  | 1 => some .rstreqCluster
  | 2 => some .rstreqFold
  | 3 => some .rstreqPackage
  | 4 => some .rstreqRelease
  | _ => none

/-- A write of the management window (R441, R443, R452): one of the mailbox is a message to firmware (log 65). -/
def State.mgmtWrite (s : State) (off : Nat) (v : W64) : State :=
  if off == 0x10 then
    match rstStep v with
    | some i => { s with agenda := .step i { EvArg.zero with word := v } :: s.agenda }
    | none => s
  else if off == 0x100 then { s with agenda := .step .mailboxMessage { EvArg.zero with site := s.timeDrv, word := v } :: s.agenda }
  else if off == 0x20 then { s with mgmt := { s.mgmt with pcap := BitVec.ofNat 13 (min 5500 (fieldW v 12 0)) } }
  else s

/-- Whether an access is of a size that a register takes and aligned to it. -/
def regAccess (off size : Nat) : Bool := (size == 1 || size == 2 || size == 4 || size == 8) && off % size == 0

/-- `REGISTER_WRITE` (R8, R399, R439, R441, R454): a write of a register by a firmware core of a drover die, or (window 1) by the host in the
doorbell window, or (window 2) in the management window, or (window 3) bytes that firmware puts into its log ring (R441, log 65). The
step's fold operand names the window. -/
def execRegisterWrite (s : State) : Host.Outcome State Fault Refusal :=
  .next (match s.ev.fold with
    | none => if regAccess s.ev.n s.ev.m then (s.mmioWrite (s.ev.site % 2) s.ev.n (leBytes s.ev.m s.ev.word.toNat)).getD s else s
    | some 1 => if s.hostUp then s.doorbell s.ev.n s.ev.word else s
    | some 3 =>
      if s.ev.n + s.ev.bytes.length ≤ 0xC000 then { s with mgmt := { s.mgmt with fwlog := cwrite s.mgmt.fwlog s.ev.n s.ev.bytes } } else s
    | some _ => s.mgmtWrite s.ev.n s.ev.word)

end Sys2Proof.Machine
end

