-- ==== Sys2Proof/Machine/Collectives.lean ====
section
/-! DEFINITION. The collective engines of the fabric dies (R462 to R468). A ring holds at most one collective in progress; what its peers
send arrives as operands of the steps (log 6). -/

namespace Sys2Proof.Machine

/-! ### Rings and groups (R462, R464) -/

/-- The place of a ring's collective: fabric die and ring. -/
def ringKey (fab ring : Nat) : Nat := fab % 2 * 64 + ring % 64

/-- A ring's control block as a queue's (R409, R462). -/
def State.ring (s : State) (fab ring : Nat) : Qcb :=
  let r := tget (0, 0, 0, 0) (s.die (Config.fabSite (fab % 2))).rings (ring % 64)
  { Qcb.reset with base := r.1, log2 := BitVec.ofNat 5 (fieldW r.2.1 4 0), fold := BitVec.ofNat 3 (fieldW r.2.1 14 12), rdidx := r.2.2.1, hdr := r.2.2.2 }

/-- The state with a ring's read index changed. -/
def State.setRdidx (s : State) (fab ring : Nat) (v : W64) : State :=
  let site := Config.fabSite (fab % 2)
  let d := s.die site
  let r := tget (0, 0, 0, 0) d.rings (ring % 64)
  s.setDie site { d with rings := tset d.rings (ring % 64) (r.1, r.2.1, v, r.2.2.2) }

/-- The requester that an engine is: at its fabric die, in ASID ABASE of the ring's fold. -/
def State.engineWho (s : State) (fab ring : Nat) : Who :=
  let f := (s.ring fab ring).fold.toNat
  { c := ⟨Config.fabSite (fab % 2), 0⟩, fold := some f, asid := (s.fold s.timeDrv f).abase.toNat, loc := 0, drv := s.timeDrv, size := 0 }

/-- The group of a descriptor (R463, R464). -/
def State.group (s : State) (fab : Nat) (l : List W32) : W128 :=
  tget 0 (s.die (Config.fabSite (fab % 2))).groups (bits (pw l 0).toNat 15 8)

/-- A field of a group entry. -/
def grp (g : W128) (hi lo : Nat) : Nat := bits g.toNat hi lo

/-- Whether this package is the root of a group's tree. -/
def isRoot (g : W128) : Bool := grp g 28 24 == 31

/-- The ports toward the children, ascending (R464). -/
def childPorts (g : W128) : List Nat := (List.range 16).filter fun k => bit (grp g 15 0) k

/-! ### Descriptors (R463, R467) -/

/-- TYPE of a descriptor. -/
def dType (l : List W32) : Nat := bits (pw l 0).toNat 31 24
/-- OP of a descriptor. -/
def dOp (l : List W32) : Nat := bits (pw l 0).toNat 23 20
/-- MODE of a descriptor. -/
def dMode (l : List W32) : Nat := bits (pw l 0).toNat 19 16
/-- The element count of a descriptor. -/
def dCount (l : List W32) : Nat := (pw64 l 8).toNat
/-- The group of a descriptor. -/
def dGroup (l : List W32) : Nat := bits (pw l 0).toNat 15 8
/-- RND of the output format, which is ignored in MODE 1 (R465). -/
def dRnd (l : List W32) : Nat := if dMode l == 1 then 0 else enRnd (pw l 2)

/-- What the other members of a descriptor's collective have to run as well (R467): RND of w2 counts only where it is not ignored. -/
def dKind (l : List W32) : CollKind :=
  { type := dType l, op := dOp l, mode := dMode l, inF := pw l 1, outF := if dMode l == 1 then pw l 2 &&& 0xFCFFFFFF else pw l 2, n := dCount l }

/-- Whether an entry is an output format: FP32, BF16, FP16 or INT32 without blocks (R463). -/
def outOk (w : W32) : Bool := enOk w && enBlk w == 0 && (enElem w == 0 || enElem w == 1 || enElem w == 2 || enElem w == 10)

/-- Whether a descriptor is malformed (R463, R464, R467). -/
def State.collMalformed (s : State) (fab ring : Nat) (l : List W32) : Bool :=
  let g := s.group fab l
  let t := dType l
  let n := grp g 41 29
  decide (t < 1) || decide (5 < t) || decide (2 < dOp l) || decide (1 < dMode l) || bits (pw l 0).toNat 7 0 != 0 || pw l 14 != 0 || pw l 15 != 0 ||
  !enOk (pw l 1) || !outOk (pw l 2) || ((t == 4 || t == 5) && pw l 1 != pw l 2) ||
  grp g 63 63 == 0 || decide (n < 2) || decide (4096 < n) || (decide (15 < grp g 28 24) && !isRoot g) ||
  grp g 62 57 != ring % 64 || grp g 56 54 != (s.ring fab ring).fold.toNat || (t == 2 && dCount l % n != 0)

/-! ### Elements in memory (R81, R88, R193, R463) -/

/-- Bytes of a DEV range read at home, page by page. -/
def State.collRead (s : State) (w : Who) (p : W64) (n : Nat) : Iss (List Byte × State) := do
  need (tagNum p == 0) .SPACE p 0
  let q ← (List.foldl (fun (a : Iss (List (Place × W64 × Nat) × State)) (e : W64 × Nat) => do
    let b ← a
    let x ← b.2.placeOf w (spotOf w e.1) e.2 3 .read e.1
    .ok (b.1 ++ [(x.1, e.1, e.2)], x.2)) (.ok ([], s)) (rangeParts p n (n / 65536 + 2)))
  q.2.readParts w q.1

/-- Bytes of a DEV range written at home, page by page. -/
def State.collWrite (s : State) (w : Who) (p : W64) (data : List Byte) : Iss State := do
  need (tagNum p == 0) .SPACE p 0
  let n := data.length
  let q ← (List.foldl (fun (a : Iss (List (Place × W64 × Nat) × State)) (e : W64 × Nat) => do
    let b ← a
    let x ← b.2.placeOf w (spotOf w e.1) e.2 3 .write e.1
    .ok (b.1 ++ [(x.1, e.1, e.2)], x.2)) (.ok ([], s)) (rangeParts p n (n / 65536 + 2)))
  q.2.writeParts w q.1 data

/-- Element `e` of packed bytes, by its width in bits (R193). -/
def elemAt (b : List Byte) (bitsN e : Nat) : Nat :=
  let o := e * bitsN
  leNat ((b.drop (o / 8)).take (max 1 (bitsN / 8))) / 2 ^ (o % 8) % 2 ^ bitsN

/-- Elements packed into bytes; the widths of outputs are whole bytes (R463). -/
def packElems (bitsN : Nat) (l : List Nat) : List Byte := l.flatMap fun c => leBytes (bitsN / 8) c

/-- The bytes of a scale code (R463). -/
def scaleSize (w : W32) : Nat := if enScale w == 4 then 2 else 1

/-- The exact inputs of this member: each element times its block's scale (R88, R465). -/
def State.collInputs (s : State) (w : Who) (l : List W32) : Iss (List ExNum × State) := do
  let en := pw l 1
  let n := dCount l
  let a ← s.collRead w (pw64 l 4) ((n * enBits en + 7) / 8)
  if enBlock en == 0 then .ok ((List.range n).map fun e => decElem en (elemAt a.1 (enBits en) e), a.2)
  else do
    let k := scaleSize en
    let b ← a.2.collRead w (pw64 l 10) ((n + enBlock en - 1) / enBlock en * k)
    .ok ((List.range n).map fun e =>
      mulN (decElem en (elemAt a.1 (enBits en) e)) (decScale en (leNat ((b.1.drop (e / enBlock en * k)).take k))), b.2)

/-! ### Combination (R465) -/

/-- The form in which a reduction travels: exact numbers for max and min, XA for integers and exact sums, else FP32. -/
def collForm (l : List W32) (x : ExNum) : CollVal :=
  if dOp l != 0 then (match x with | .nan => .nan | .inf n => .inf n | .fin n m e => .num n m e)
  else if enInt (pw l 1) || dMode l == 1 then
    let a := xaAdd Xa.empty x
    .acc a.v a.st
  else .code (r32 0 x)

/-- The exact value of an element that travels. -/
def collNum : CollVal → ExNum
  | .code v => f32 v
  | .acc v st => xaNum ⟨v, st⟩
  | .nan => .nan
  | .inf n => .inf n
  | .num n m e => .fin n m e

/-- One child's element combined (R465). -/
def collCombine (l : List W32) (r c : CollVal) : CollVal :=
  match r, c with
  | .code a, .code b => .code (r32 0 (addN 0 (f32 a) (f32 b)))
  | .acc a x, .acc b y =>
    let m := xaMerge ⟨a, x⟩ ⟨b, y⟩
    .acc m.v m.st
  | _, _ => collForm l (if dOp l == 1 then maxN (collNum r) (collNum c) else minN (collNum r) (collNum c))

/-- A result encoded under w2 (R81, R97, R465): an XA is read out to nearest, ties to even, and an infinity of it is encoded as any other, so
that saturation of w2 applies (R82, log 57, DEDUCED). -/
def collEncode (l : List W32) (r : CollVal) : Nat :=
  match r with
  | .acc v st => encElem (pw l 2) 0 (xaNum ⟨v, st⟩)
  | x => encElem (pw l 2) (dRnd l) (collNum x)

/-- A node's result: its own partial combined with its children's in ascending port number (R465). -/
def Coll.combined (k : Coll) (g : W128) : List CollVal :=
  (childPorts g).foldl (fun r p => List.zipWith (collCombine k.desc) r (tget [] k.kids p)) k.own

/-- Whether every child of a member has sent its result. -/
def Coll.allKids (k : Coll) (g : W128) : Bool := (childPorts g).all fun p => (tget? k.kids p).isSome

/-- Whether a descriptor's members combine up the tree: the reductions, and the barrier without an element. -/
def dReduces (l : List W32) : Bool := dType l == 1 || dType l == 2 || dType l == 5

/-- A collective once its inputs are read: every node combines its own partial with its children's, at the root into the result, elsewhere
into what it sends to its parent (R465, R468). -/
def Coll.settle (k : Coll) (g : W128) : Coll :=
  if k.started && dReduces k.desc && k.allKids g then
    (if isRoot g then { k with final := some (k.final.getD (k.combined g)) } else { k with up := some (k.up.getD (k.combined g)) })
  else k

/-- What a member makes of a part that a peer sends, where the peer runs the same collective (R465). A broadcast moves either way. -/
def Coll.take (k : Coll) (g : W128) : CollPart → Coll
  | .child p _ v =>
    if dType k.desc == 4 then { k with final := some (k.final.getD v) }
    else if (childPorts g).contains p && (tget? k.kids p).isNone then { k with kids := tset k.kids p v } else k
  | .root _ v => if isRoot g && dType k.desc != 4 then k else { k with final := some (k.final.getD v) }
  | .gathered r _ b => if (tget? k.parts r).isNone then { k with parts := tset k.parts r b } else k
  | _ => k

/-- What the sender of a part runs. -/
def partKind : CollPart → Option CollKind
  | .child _ h _ => some h
  | .root h _ => some h
  | .gathered _ h _ => some h
  | _ => none

/-- What a member makes of what reaches it (R465, R467): a peer that runs something else ends the collective with status 1, a peer's memory
fault with status 4. -/
def Coll.receive (k : Coll) (g : W128) (p : CollPart) : Coll :=
  match p with
  | .mismatch => { k with status := some (k.status.getD 1) }
  | .memFault => { k with status := some (k.status.getD 4) }
  | _ => if partKind p == some (dKind k.desc) then k.take g p else { k with status := some (k.status.getD 1) }

/-- A collective after a part has been taken in: its wait for a response starts anew only where its own result goes up to its parent, so that
what one member sends is no response of another (R467, log 87, DEDUCED). -/
def Coll.heard (k : Coll) (g : W128) (p : CollPart) (ns : Nat) : Coll :=
  let k1 := (k.receive g p).settle g
  { k1 with since := if k1.up.isSome && k.up.isNone then ns else k.since }

/-! ### The steps -/

/-- The state with a ring's collective changed. -/
def State.setColl (s : State) (fab ring : Nat) (k : Coll) : State := { s with colls := tset s.colls (ringKey fab ring) k }

/-- A descriptor that a ring submits (R464, R467): it is the next of its group, if the ring may submit for the group, and meets the parts of
peers that have come before it; a malformed one ends with status 3. -/
def State.submit (s : State) (fab ring : Nat) (l : List W32) : State :=
  let site := Config.fabSite (fab % 2)
  let d := s.die site
  let n := dGroup l
  let g := s.group fab l
  let k := tget 0 d.collSeq n
  let c : Coll := { desc := l, idx := k, started := false, own := [], kids := [], up := none, final := none, ranks := [], parts := [],
                    status := if s.collMalformed fab ring l then some 3 else none, since := s.runNs }
  if grp g 63 63 == 0 || grp g 62 57 != ring % 64 then s.setColl fab ring c
  else
    let mine := fun (e : Nat × Nat × CollPart) => e.1 == n && e.2.1 == k
    (s.setDie site { d with collSeq := tset d.collSeq n (k + 1), collIn := d.collIn.filter fun e => !mine e }).setColl fab ring
      ((d.collIn.filter mine).foldl (fun (x : Coll) e => x.receive g e.2.2) c)

/-- The next descriptor of a ring taken (R402, R462): it is read and starts; it is cleared, and the read index published, once it has been
executed. A fault leaves the ring idle until its next kick, without a record; a read that has to wait puts the kick off. -/
def State.takeDesc (s : State) (fab ring : Nat) : State :=
  let b := s.ring fab ring
  let w := s.engineWho fab ring
  if (tget? s.colls (ringKey fab ring)).isSome || s.qcbCorrupt s.timeDrv b then s
  else match s.askRead w (packetAddr b) 64 64 with
    | .error (.fault f) => s.markBad f.bad
    | .error (.stall h) => (s.waited h).putOff (.step .collectiveKick { EvArg.zero with site := fab, n := ring })
    | .ok (bytes, u) =>
      let l := bytesLanes 16 bytes
      if dType l == 0 then u else u.submit fab ring l

/-- `COLLECTIVE_KICK` (R462): the engine examines a ring. -/
def execCollectiveKick (s : State) : Host.Outcome State Fault Refusal := .next (s.takeDesc s.ev.site s.ev.n)

/-- A collective of a type whose inputs are still to be read: what reading them gives it. A memory fault ends it with status 4. -/
def State.startColl (s : State) (t : Nat) (f : State → Who → Coll → W128 → Iss (Coll × State)) : State :=
  let fab := s.ev.site
  let ring := s.ev.n
  match tget? s.colls (ringKey fab ring) with
  | none => s
  | some k =>
    if k.started || k.status.isSome || dType k.desc != t then s
    else
      let g := s.group fab k.desc
      match f s (s.engineWho fab ring) k g with
      | .ok r => r.2.setColl fab ring (({ r.1 with started := true } : Coll).settle g)
      | .error (.fault e) => (s.markBad e.bad).setColl fab ring { k with started := true, status := some 4 }
      | .error (.stall h) => s.waited h

/-- This member's own partial of a reduction (R465). -/
def State.ownPartial (s : State) (w : Who) (k : Coll) (_g : W128) : Iss (Coll × State) :=
  (s.collInputs w k.desc).map fun r => ({ k with own := r.1.map (collForm k.desc) }, r.2)

/-- `ALL_REDUCE` (R465). -/
def execAllReduce (s : State) : Host.Outcome State Fault Refusal := .next (s.startColl 1 State.ownPartial)

/-- `REDUCE_SCATTER` (R465). -/
def execReduceScatter (s : State) : Host.Outcome State Fault Refusal := .next (s.startColl 2 State.ownPartial)

/-- The package numbers of a group's ranks, in rank order (R464). -/
def State.readRanks (s : State) (w : Who) (g : W128) : Iss (List Nat × State) :=
  let n := grp g 41 29
  (s.collRead w (BitVec.ofNat 64 (grp g 127 64)) (2 * n)).map fun r => ((List.range n).map fun i => leNat ((r.1.drop (2 * i)).take 2), r.2)

/-- This rank's elements of an all-gather, converted under w2 (R465). -/
def gatherBytes (l : List W32) (v : List ExNum) : List Byte := packElems (enBits (pw l 2)) (v.map fun x => encElem (pw l 2) (dRnd l) x)

/-- `ALL_GATHER` (R464, R465): this rank's elements, and the packages whose elements stand at the other ranks. A memory fault on RANKS counts
as one on the source (log 66). -/
def execAllGather (s : State) : Host.Outcome State Fault Refusal :=
  .next (s.startColl 3 fun s w k g => do
    let r ← s.collInputs w k.desc
    let q ← r.2.readRanks w g
    .ok ({ k with ranks := q.1, parts := tset k.parts (q.1.getD (grp g 53 42) 0) (gatherBytes k.desc r.1) }, q.2))

/-- `COLLECTIVE_BROADCAST` (R465): the root rank reads its input; every other member waits for it. -/
def execCollectiveBroadcast (s : State) : Host.Outcome State Fault Refusal :=
  .next (s.startColl 4 fun s w k g =>
    if grp g 53 42 != (pw k.desc 3).toNat then .ok (k, s)
    else do
      let n := dCount k.desc
      let en := pw k.desc 1
      let a ← s.collRead w (pw64 k.desc 4) (n * enBits en / 8)
      .ok ({ k with final := some ((List.range n).map fun e => .code (BitVec.ofNat 32 (elemAt a.1 (enBits en) e))) }, a.2))

/-- `COLLECTIVE_BARRIER` (R468): no data move. -/
def execCollectiveBarrier (s : State) : Host.Outcome State Fault Refusal := .next (s.startColl 5 fun s _ k _ => .ok (k, s))

/-- `COLLECTIVE_PARTIAL_RECEIVE` (R464, R465): a child's result, the result on its way down, or a package's elements, for the descriptor of a
group with a number (operands n and m). It meets that descriptor at this member; one that is not submitted yet is waited for, and what comes
after its end is dropped. -/
def execCollectivePartialReceive (s : State) : Host.Outcome State Fault Refusal :=
  let fab := s.ev.site
  let site := Config.fabSite (fab % 2)
  let d := s.die site
  let n := s.ev.n % 256
  let g := tget 0 d.groups n
  let ring := grp g 62 57
  .next (if tget 0 d.collSeq n ≤ s.ev.m then s.setDie site { d with collIn := d.collIn ++ [(n, s.ev.m, s.ev.part)] }
    else match tget? s.colls (ringKey fab ring) with
      | none => s
      | some k =>
        if dGroup k.desc != n || k.idx != s.ev.m || k.status.isSome then s
        else s.setColl fab ring (k.heard g s.ev.part s.runNs))

/-- The bytes that a finished collective writes at this member (R465): none while it waits. -/
def Coll.output (k : Coll) (g : W128) : Option (List Byte) :=
  let l := k.desc
  let n := dCount l
  let w := enBits (pw l 2)
  match dType l with
  | 1 => k.final.map fun r => packElems w (r.map (collEncode l))
  | 2 => k.final.map fun r => packElems w (((r.drop (grp g 53 42 * n / grp g 41 29)).take (n / grp g 41 29)).map (collEncode l))
  | 3 => if k.started && k.ranks.all fun r => (tget? k.parts r).isSome then some (k.ranks.flatMap fun r => tget [] k.parts r) else none
  | 4 => k.final.map fun r => packElems w (r.map fun v => match v with | .code c => c.toNat | _ => 0)
  | _ => k.final.map fun _ => []

/-- The completion signal of a collective (R408, R467, R468): a store that fails is not retried. Else what it has to wait for. -/
def State.collSignal (s : State) (w : Who) (l : List W32) (status : Nat) : Except Hold State :=
  if pw64 l 12 == 0 then .ok s
  else match s.askWrite w (pw64 l 12) (leBytes 8 (2 ^ 63 + status)) with
    | .ok u => .ok u
    | .error (.fault f) => .ok (s.markBad f.bad)
    | .error (.stall h) => .error h

/-- A collective ended with a status (R402, R462, R467): its signal, then its descriptor cleared and the read index published, then the
ring's next descriptor; or what a write has to wait for. -/
def State.endColl (s : State) (fab ring : Nat) (l : List W32) (st : Nat) : Except Hold State :=
  let w := s.engineWho fab ring
  (s.collSignal w l st).bind fun u => (u.consumeAs w (u.ring fab ring)).map fun r =>
    let v := ({ r.2.1 with colls := tdel r.2.1.colls (ringKey fab ring) } : State).setRdidx fab ring r.1.rdidx
    if r.2.2.isSome then v else v.takeDesc fab ring

/-- `COLLECTIVE_COMPLETE` (R467, R468): the results are written, then the completion signal; the ring goes on with its next descriptor. -/
def execCollectiveComplete (s : State) : Host.Outcome State Fault Refusal :=
  let fab := s.ev.site
  let ring := s.ev.n
  let w := s.engineWho fab ring
  let finish := fun (u : State) (k : Coll) (st : Nat) => s.orWaited (u.endColl fab ring k.desc st)
  .next (match tget? s.colls (ringKey fab ring) with
    | none => s
    | some k =>
      match k.status with
      | some st => finish s k st
      | none =>
        if !k.started then s
        else match k.output (s.group fab k.desc) with
          | none => s
          | some b =>
            if b.isEmpty then finish s k 0
            else match s.collWrite w (pw64 k.desc 6) b with
              | .ok u => finish u k 0
              | .error (.fault f) => finish (s.markBad f.bad) k 4
              | .error (.stall h) => s.waited h)

/-- `COLLECTIVE_TIMEOUT` (R467): a member or a link has given no response for 10 ms to this member, which waits for one. -/
def execCollectiveTimeout (s : State) : Host.Outcome State Fault Refusal :=
  .next (match tget? s.colls (ringKey s.ev.site s.ev.n) with
    | none => s
    | some k =>
      if k.status.isNone && k.started && (k.output (s.group s.ev.site k.desc)).isNone && decide (k.since + 10000000 ≤ s.runNs) then s.setColl s.ev.site s.ev.n { k with status := some 2 } else s)

end Sys2Proof.Machine
end

