-- ==== Sys2Proof/Machine/Float.lean ====
section
/-! DEFINITION. The scalar FP32 words, OP 0x20 to 0x25 (R113 to R117). -/

namespace Sys2Proof.Machine

/-- The legality that the FP32 words share: C and A only, selectors, and FN below a bound (R48, R113). -/
def State.fpK (s : State) (t : Tag) (r a b : BitVec 6) (fnOk : Bool) : Head :=
  headOf t (tagCA t && s.destOk r && s.srcOk a && s.srcOk b && fnOk)

/-- The FP32 value in bits 31 to 0 of a source (R113). -/
def fOf (v : W64) : ExNum := f32 (lo32 v)

/-- An exact value rounded once to FP32 and zero-extended (R113, R114). -/
def fRes (mode : Nat) (x : ExNum) : W64 := (r32 mode x).setWidth 64

/-- `FADD` (R114). -/
def execFadd (t : Tag) (d : Bool) (r a b : BitVec 6) (f : BitVec 3) (s : State) : Host.Outcome State Fault Refusal :=
  s.run (s.fpK t r a b (f < 4)) fun s => s.frameK d r a b fun x y => fRes f.toNat (addN f.toNat (fOf x) (fOf y))

/-- `FMUL` (R114). -/
def execFmul (t : Tag) (d : Bool) (r a b : BitVec 6) (f : BitVec 3) (s : State) : Host.Outcome State Fault Refusal :=
  s.run (s.fpK t r a b (f < 4)) fun s => s.frameK d r a b fun x y => fRes f.toNat (mulN (fOf x) (fOf y))

/-- `FFMA` (R114): product and sum exact, rounded once; the register is source and destination. -/
def execFfma (t : Tag) (d : Bool) (r a b : BitVec 6) (f : BitVec 3) (s : State) : Host.Outcome State Fault Refusal :=
  s.run (s.fpK t r a b (f < 4 && regOk r)) fun s =>
    s.frameD d r a b fun z x y => fRes f.toNat (addN f.toNat (fOf z) (mulN (fOf x) (fOf y)))

/-- The minimum or maximum that FN names (R115). -/
def fmnxOp (f : BitVec 3) (x y : W64) : W64 :=
  fRes 0 (match f.toNat with
    | 0 => minN (fOf x) (fOf y)
    | 1 => maxN (fOf x) (fOf y)
    | 2 => minNum (fOf x) (fOf y)
    | _ => maxNum (fOf x) (fOf y))

/-- `FMNX` (R115). -/
def execFmnx (t : Tag) (d : Bool) (r a b : BitVec 6) (f : BitVec 3) (s : State) : Host.Outcome State Fault Refusal :=
  s.run (s.fpK t r a b (f < 4)) fun s => s.frameK d r a b (fmnxOp f)

/-- `FCMP` (R116). -/
def execFcmp (t : Tag) (d : Bool) (p : BitVec 3) (a b : BitVec 6) (f : BitVec 3) (s : State) : Host.Outcome State Fault Refusal :=
  s.run (headOf t (tagCA t && s.srcOk a && s.srcOk b && f < 4)) fun s => s.frameP d p a b (fcmpCond f)

/-- The conversion that FN names (R117). -/
def fcvtOp (f : BitVec 3) (a : W64) : W64 :=
  match f.toNat with
  | 0 => w64 (toIntSat (-(2 : Int) ^ 63) (2 ^ 63 - 1) 0 (fOf a))
  | 1 => w64 (toIntSat (-(2 : Int) ^ 63) (2 ^ 63 - 1) 1 (fOf a))
  | 2 => fRes 0 (ofInt a.toInt)
  | 3 => fRes 0 (ofInt a.toNat)
  | 4 => BitVec.ofNat 64 (ffEncode fBF16 0 false (fOf a))
  | 5 => fRes 0 (ffDecode fBF16 (a.toNat % 65536))
  | 6 => BitVec.ofNat 64 (ffEncode fFP16 0 false (fOf a))
  | _ => fRes 0 (ffDecode fFP16 (a.toNat % 65536))

/-- `FCVT` (R117). -/
def execFcvt (t : Tag) (d : Bool) (r a : BitVec 6) (f : BitVec 3) (s : State) : Host.Outcome State Fault Refusal :=
  s.run (headOf t (tagCA t && s.destOk r && s.srcOk a)) fun s => s.frameI d r a (fcvtOp f)

end Sys2Proof.Machine
end

