-- ==== Sys2Proof/Machine/Integer.lean ====
section
/-! DEFINITION. The scalar integer, predicate and constant words, OP 0x01 to 0x1D (R102 to R112). -/

namespace Sys2Proof.Machine

/-- The legality that every K form of this family shares: tag, selectors and FN below a bound (R47, R48, R53). -/
def State.intK (s : State) (t : Tag) (r a b : BitVec 6) (fnOk : Bool) : Head :=
  headOf t (tagInt s.cls t && s.destOk r && s.srcOk a && s.srcOk b && fnOk)

/-- The legality that every I form of this family shares. -/
def State.intI (s : State) (t : Tag) (r a : BitVec 6) : Head := headOf t (tagInt s.cls t && s.destOk r && s.srcOk a)

/-- A result over 64 bits by FN: wrapped, signed saturated or unsigned saturated (R67, R102). -/
def satOp (f : BitVec 3) (g : Int → Int → Int) (a b : W64) : W64 :=
  match f.toNat with
  | 0 => w64 (g a.toInt b.toInt)
  | 1 => w64 (clampI (-(2 : Int) ^ 63) (2 ^ 63 - 1) (g a.toInt b.toInt))
  | _ => w64 (clampI 0 (2 ^ 64 - 1) (g a.toNat b.toNat))

/-- `ADD` (R102). -/
def execAdd (t : Tag) (d : Bool) (r a b : BitVec 6) (f : BitVec 3) (s : State) : Host.Outcome State Fault Refusal :=
  s.run (s.intK t r a b (f < 3)) fun s => s.frameK d r a b (satOp f (· + ·))

/-- `ADDI` (R102). -/
def execAddi (t : Tag) (d : Bool) (r a : BitVec 6) (i : BitVec 9) (s : State) : Host.Outcome State Fault Refusal :=
  s.run (s.intI t r a) fun s => s.frameI d r a fun x => x + imm9 i

/-- `SUB` (R102). -/
def execSub (t : Tag) (d : Bool) (r a b : BitVec 6) (f : BitVec 3) (s : State) : Host.Outcome State Fault Refusal :=
  s.run (s.intK t r a b (f < 3)) fun s => s.frameK d r a b (satOp f (· - ·))

/-- The half of the 128-bit product that FN names (R103). -/
def mulOp (f : BitVec 3) (a b : W64) : W64 :=
  match f.toNat with
  | 0 => a * b
  | 1 => w64 (a.toInt * b.toInt / 2 ^ 64)
  | 2 => BitVec.ofNat 64 (a.toNat * b.toNat / 2 ^ 64)
  | _ => w64 (a.toInt * (b.toNat : Int) / 2 ^ 64)

/-- `MUL` (R103). -/
def execMul (t : Tag) (d : Bool) (r a b : BitVec 6) (f : BitVec 3) (s : State) : Host.Outcome State Fault Refusal :=
  s.run (s.intK t r a b (f < 4)) fun s => s.frameK d r a b (mulOp f)

/-- The quotient or remainder that FN names, with the cases of R104. -/
def divOp (f : BitVec 3) (a b : W64) : W64 :=
  match f.toNat with
  | 0 => if b == 0 then BitVec.allOnes 64 else w64 (a.toInt.tdiv b.toInt)
  | 1 => if b == 0 then BitVec.allOnes 64 else a / b
  | 2 => if b == 0 then a else w64 (a.toInt.tmod b.toInt)
  | _ => if b == 0 then a else a % b

/-- `DIV` (R104). -/
def execDiv (t : Tag) (d : Bool) (r a b : BitVec 6) (f : BitVec 3) (s : State) : Host.Outcome State Fault Refusal :=
  s.run (s.intK t r a b (f < 4)) fun s => s.frameK d r a b (divOp f)

/-- `AND` (R105). -/
def execAnd (t : Tag) (d : Bool) (r a b : BitVec 6) (s : State) : Host.Outcome State Fault Refusal :=
  s.run (s.intK t r a b true) fun s => s.frameK d r a b (· &&& ·)

/-- `ANDI` (R105). -/
def execAndi (t : Tag) (d : Bool) (r a : BitVec 6) (i : BitVec 9) (s : State) : Host.Outcome State Fault Refusal :=
  s.run (s.intI t r a) fun s => s.frameI d r a fun x => x &&& imm9 i

/-- `OR` (R105). -/
def execOr (t : Tag) (d : Bool) (r a b : BitVec 6) (s : State) : Host.Outcome State Fault Refusal :=
  s.run (s.intK t r a b true) fun s => s.frameK d r a b (· ||| ·)

/-- `ORI` (R105). -/
def execOri (t : Tag) (d : Bool) (r a : BitVec 6) (i : BitVec 9) (s : State) : Host.Outcome State Fault Refusal :=
  s.run (s.intI t r a) fun s => s.frameI d r a fun x => x ||| imm9 i

/-- `XOR` (R105). -/
def execXor (t : Tag) (d : Bool) (r a b : BitVec 6) (s : State) : Host.Outcome State Fault Refusal :=
  s.run (s.intK t r a b true) fun s => s.frameK d r a b (· ^^^ ·)

/-- `XORI` (R105). -/
def execXori (t : Tag) (d : Bool) (r a : BitVec 6) (i : BitVec 9) (s : State) : Host.Outcome State Fault Refusal :=
  s.run (s.intI t r a) fun s => s.frameI d r a fun x => x ^^^ imm9 i

/-- A shift amount: the second operand modulo 64 (R105). -/
def amount (v : W64) : Nat := v.toNat % 64

/-- `SHL` (R105). -/
def execShl (t : Tag) (d : Bool) (r a b : BitVec 6) (s : State) : Host.Outcome State Fault Refusal :=
  s.run (s.intK t r a b true) fun s => s.frameK d r a b fun x y => x <<< amount y

/-- `SHLI` (R105). -/
def execShli (t : Tag) (d : Bool) (r a : BitVec 6) (i : BitVec 9) (s : State) : Host.Outcome State Fault Refusal :=
  s.run (s.intI t r a) fun s => s.frameI d r a fun x => x <<< amount (imm9 i)

/-- `SHR` (R105). -/
def execShr (t : Tag) (d : Bool) (r a b : BitVec 6) (s : State) : Host.Outcome State Fault Refusal :=
  s.run (s.intK t r a b true) fun s => s.frameK d r a b fun x y => x >>> amount y

/-- `SHRI` (R105). -/
def execShri (t : Tag) (d : Bool) (r a : BitVec 6) (i : BitVec 9) (s : State) : Host.Outcome State Fault Refusal :=
  s.run (s.intI t r a) fun s => s.frameI d r a fun x => x >>> amount (imm9 i)

/-- `SRA` (R105). -/
def execSra (t : Tag) (d : Bool) (r a b : BitVec 6) (s : State) : Host.Outcome State Fault Refusal :=
  s.run (s.intK t r a b true) fun s => s.frameK d r a b fun x y => x.sshiftRight (amount y)

/-- `SRAI` (R105). -/
def execSrai (t : Tag) (d : Bool) (r a : BitVec 6) (i : BitVec 9) (s : State) : Host.Outcome State Fault Refusal :=
  s.run (s.intI t r a) fun s => s.frameI d r a fun x => x.sshiftRight (amount (imm9 i))

/-- The lesser operand, signed for FN 0 and unsigned for FN 1 (R105). -/
def minOp (f : BitVec 3) (x y : W64) : W64 := if f == 0 then (if x.sle y then x else y) else if x.ule y then x else y

/-- The greater operand, signed for FN 0 and unsigned for FN 1 (R105). -/
def maxOp (f : BitVec 3) (x y : W64) : W64 := if f == 0 then (if x.sle y then y else x) else if x.ule y then y else x

/-- `MIN` (R105). -/
def execMin (t : Tag) (d : Bool) (r a b : BitVec 6) (f : BitVec 3) (s : State) : Host.Outcome State Fault Refusal :=
  s.run (s.intK t r a b (f < 2)) fun s => s.frameK d r a b (minOp f)

/-- `MAX` (R105). -/
def execMax (t : Tag) (d : Bool) (r a b : BitVec 6) (f : BitVec 3) (s : State) : Host.Outcome State Fault Refusal :=
  s.run (s.intK t r a b (f < 2)) fun s => s.frameK d r a b (maxOp f)

/-- `CMP` (R106). -/
def execCmp (t : Tag) (d : Bool) (p : BitVec 3) (a b : BitVec 6) (k : BitVec 3) (s : State) : Host.Outcome State Fault Refusal :=
  s.run (headOf t (tagInt s.cls t && s.srcOk a && s.srcOk b)) fun s => s.frameP d p a b (cmpCond k)

/-- `CMPI` (R106): the second operand is the sign-extended IMM9 under every condition. -/
def execCmpi (t : Tag) (d : Bool) (k p : BitVec 3) (a : BitVec 6) (i : BitVec 9) (s : State) : Host.Outcome State Fault Refusal :=
  s.run (headOf t (tagInt s.cls t && s.srcOk a)) fun s => s.frameP d p a 62 fun x _ => cmpCond k x (imm9 i)

/-- `SEL` (R107): both sources are read, and the predicate chooses. -/
def execSel (t : Tag) (d : Bool) (r a b : BitVec 6) (f : BitVec 3) (s : State) : Host.Outcome State Fault Refusal :=
  s.run (s.intK t r a b true) fun s => s.frameK d r a b fun x y => if s.pred f.toNat then x else y

/-- `LI` (R108). -/
def execLi (t : Tag) (r : BitVec 6) (i : BitVec 16) (s : State) : Host.Outcome State Fault Refusal :=
  s.run (headOf t (tagInt s.cls t && s.destOk r)) fun s => s.frameV false r (i.signExtend 64)

/-- `LSI` (R108): the register is source and destination. -/
def execLsi (t : Tag) (r : BitVec 6) (i : BitVec 16) (s : State) : Host.Outcome State Fault Refusal :=
  s.run (headOf t (tagInt s.cls t && regOk r && s.destOk r)) fun s => s.frameV false r ((s.reg r.toNat <<< 16) ||| i.setWidth 64)

/-- A mask of the lowest bits: `Mask` of R10. -/
def maskW (n : Nat) : W64 := BitVec.ofNat 64 (2 ^ n - 1)

/-- The position and the length that a field descriptor names (R109). -/
def fieldOf (b : W64) : Nat × Nat :=
  let len := fieldW b 13 8
  (fieldW b 5 0, if len == 0 then 64 else len)

/-- A field extracted, sign-extended for FN 1 (R109). -/
def bfxOp (f : BitVec 3) (a b : W64) : W64 :=
  let q := fieldOf b
  let v := (a >>> q.1) &&& maskW q.2
  if f == 1 && v.getLsbD (q.2 - 1) then v ||| ~~~maskW q.2 else v

/-- A field inserted (R109). -/
def bfiOp (d a b : W64) : W64 :=
  let q := fieldOf b
  let m := maskW q.2 <<< q.1
  (d &&& ~~~m) ||| ((a <<< q.1) &&& m)

/-- `BFX` (R109). -/
def execBfx (t : Tag) (d : Bool) (r a b : BitVec 6) (f : BitVec 3) (s : State) : Host.Outcome State Fault Refusal :=
  s.run (s.intK t r a b (f < 2)) fun s => s.frameK d r a b (bfxOp f)

/-- `BFI` (R109): the register is source and destination. -/
def execBfi (t : Tag) (d : Bool) (r a b : BitVec 6) (s : State) : Host.Outcome State Fault Refusal :=
  s.run (s.intK t r a b (regOk r)) fun s => s.frameD d r a b bfiOp

/-- The bits of a word in reverse order. -/
def revBits (v : W64) : W64 := v.reverse

/-- The leading zeros of a word (R110). -/
def clz64 (v : W64) : Nat := if v == 0 then 64 else 63 - Nat.log2 v.toNat

/-- The ones of a word (R110). -/
def pop64 (v : W64) : Nat := ((List.range 64).filter fun k => v.getLsbD k).length

/-- The count or reordering that FN names (R110). -/
def bitcOp (f : BitVec 3) (a : W64) : W64 :=
  match f.toNat with
  | 0 => BitVec.ofNat 64 (pop64 a)
  | 1 => BitVec.ofNat 64 (clz64 a)
  | 2 => BitVec.ofNat 64 (clz64 (revBits a))
  | 3 => revBits a
  | _ => BitVec.ofNat 64 (leNat (leBytes 8 a.toNat).reverse)

/-- `BITC` (R110). -/
def execBitc (t : Tag) (d : Bool) (r a : BitVec 6) (f : BitVec 3) (s : State) : Host.Outcome State Fault Refusal :=
  s.run (headOf t (tagInt s.cls t && s.destOk r && s.srcOk a && f < 5)) fun s => s.frameI d r a (bitcOp f)

/-- `PLOG` (R111). -/
def execPlog (t : Tag) (d : Bool) (p a b : BitVec 3) (f : BitVec 3) (s : State) : Host.Outcome State Fault Refusal :=
  s.run (headOf t (tagInt s.cls t && f < 6 && (f != 5 || b == 0))) fun s =>
    let v := plogOp f (s.pred a.toNat) (s.pred b.toNat)
    .ok ((if d then s else s.setPred p.toNat v).pushLat (b2w v)).goOn

/-- `PMOV` (R112): predicates to a register for FN 0, from a source for FN 1. -/
def execPmov (t : Tag) (d : Bool) (r a : BitVec 6) (f : BitVec 3) (s : State) : Host.Outcome State Fault Refusal :=
  s.run (headOf t (tagInt s.cls t && (if f == 0 then s.destOk r && a == 0 else f == 1 && r == 0 && s.srcOk a))) fun s =>
    if f == 0 then s.frameV d r (s.predByte.setWidth 64)
    else do
      s.popsOk [a]
      let x ← s.src a
      let s2 := if d then x.2 else x.2.setSt { x.2.st with preds := x.1.setWidth 8 &&& 0x7F }
      .ok (s2.pushLat (s2.predByte.setWidth 64)).goOn

end Sys2Proof.Machine
end

