-- ==== Sys2Proof/Machine/Sparse.lean ====
section
/-! DEFINITION. The class instructions of SPARSE and SORT cores (R257 to R271). -/

namespace Sys2Proof.Machine

/-! ### The sparse core -/

/-- The search of R258 on diagonal `d`, the words of rowend read on the STREAM path (R259), all in one step of the model (log 29,
DEDUCED). The bound halves the interval each time. -/
def State.pathSearch (s : State) (base : W64) (d lo hi : Nat) : Nat → Iss (Nat × State)
  | 0 => .ok (lo, s)
  | n + 1 =>
    if hi ≤ lo then .ok (lo, s)
    else do
      let piv := (lo + hi) / 2
      let r ← s.streamRead s.me base (base + BitVec.ofNat 64 (4 * piv)) 4 0
      if d < leNat r.1 + piv + 1 then r.2.pathSearch base d lo piv n else r.2.pathSearch base d (piv + 1) hi n

/-- The searches of the active lanes, in ascending lane order (R259). -/
def State.pathLanes (s : State) (base : W64) (m nnz : Nat) : List (Nat × W32) → Iss (List W32 × State)
  | [] => .ok ([], s)
  | (k, v) :: t =>
    if !s.laneOn k then do
      let q ← s.pathLanes base m nnz t
      .ok (v :: q.1, q.2)
    else do
      let d := min v.toNat (m + nnz)
      let r ← s.pathSearch base d (d - nnz) (min d m) 34
      let q ← r.2.pathLanes base m nnz t
      .ok (BitVec.ofNat 32 r.1 :: q.1, q.2)

/-- `MPATH` (R259). -/
def execMpath (d : Bool) (r a b : BitVec 6) (s : State) : Host.Outcome State Fault Refusal :=
  s.run (s.headV3 r a b) fun s => do
    s.popsOk [a, b]
    let z := s.vreg r.toNat
    let x ← s.vsrc a
    let y ← x.2.vsrc b
    let g ← y.2.pathLanes (lanes64 x.1) (y.1.getD 0 0).toNat (y.1.getD 1 0).toNat (numbered z)
    .ok (g.2.vput d r g.1).goOn

/-- The ports of a CSR walk (R260). -/
def csrPorts (p : Nat) (rows : Bool) : List Nat := if rows then [p, p + 1, p + 2] else [p, p + 1]

/-- `CSRW` (R260): mode bit 2 is ROWS. Its `BOUNDS`, which no access makes, records address and auxiliary word 0 (log 68, DESIGN CHOICE). -/
def execCsrw (p : BitVec 3) (a g : BitVec 6) (w : BitVec 1) (o : BitVec 2) (s : State) : Host.Outcome State Fault Refusal :=
  let rows := w == 1
  s.run (headOf .A ((if rows then p < 2 else p < 3) && s.srcOk a && decide (g.toNat ≤ 44) && decide (g.toNat % 4 = 0))) fun s => do
    s.popsOk [a]
    let x ← s.src a
    let j0 := (lo32 x.1).toNat
    let c := (hi32 x.1).toNat
    let w3 := s.descr g 3
    let m := (hi32 w3).toNat
    let i0 := (lo32 w3).toNat
    need (j0 + c ≤ 2 ^ 32 && (!rows || (decide (m < 2 ^ 31) && decide (i0 ≤ m)))) .BOUNDS 0 0
    let ps := csrPorts p.toNat rows
    if ps.any fun k => portHeld (s.tm.port k) then .ok { (s.setTm (s.tm.markWait ps)).goOn with held := some .stall }
    else
      let set := fun (t : TeamSt) (k : Nat) =>
        let role := k - p.toNat
        let walk : Csr := { role := role, j0 := j0, cnt := c, cols := s.descr g 0, vals := s.descr g 1, ends := s.descr g 2, m := m, i0 := i0 }
        t.setPort k { t.port k with st := .set, pol := o.toNat, pos := 0, rep := false, csr := some walk, row := i0, code := none, wait := false }
      .ok (x.2.setTm (ps.foldl set x.2.tm)).goOn

/-- Running sums that restart after a lane whose tag has bit 31 set (R262). -/
def segFrom (f : W32) (acc : W32) (open_ : Bool) : List (W32 × W32) → List W32
  | [] => []
  | (v, tag) :: t =>
    let r := if open_ then encL f (addN (enRnd f) (f32 acc) (f32 v)) else encL f (f32 v)
    r :: segFrom f r (!tag.getLsbD 31) t

/-- `SEGSUM` (R262). -/
def execSegsum (d : Bool) (r a b : BitVec 6) (k : BitVec 3) (s : State) : Host.Outcome State Fault Refusal :=
  s.run (s.headV3 r a b) fun s =>
    let f := s.fmtEntry k.toNat
    s.vec3 d r a b (fmtFits f elFP32) fun z x y => segFrom f (z.getD 0 0) true (List.zip x y)

/-- `SEGCAR` (R263). -/
def execSegcar (d : Bool) (r a b : BitVec 6) (s : State) : Host.Outcome State Fault Refusal :=
  s.run (s.headV2 r a b) fun s => s.vec2 d r a b true fun x y =>
    let tag := y.getD 31 0
    let row := tag &&& 0x7FFFFFFF
    (if tag.getLsbD 31 then 0 else x.getD 31 0) :: (if tag.getLsbD 31 then row + 1 else row) :: List.replicate (s.lanes - 2) 0

/-- `VGATHX` (R264). -/
def execVgathx (d : Bool) (r a b : BitVec 6) (s : State) : Host.Outcome State Fault Refusal :=
  s.run (s.headV2 r a b) fun s => s.gatherBody d r a b true

/-! ### The sort core -/

/-- The forward key of an FP32 lane (R265). -/
def sortKey (x : W32) : W32 :=
  if (f32 x).isNaN then 0xFFFFFFFF else if x.getLsbD 31 then ~~~x else x ||| 0x80000000

/-- The inverse of a key (R265). -/
def keyValue (k : W32) : W32 :=
  let v := if k.getLsbD 31 then k &&& 0x7FFFFFFF else ~~~k
  if (f32 v).isNaN then 0x7FC00000 else v

/-- `SKEY` (R265). -/
def execSkey (d : Bool) (r a : BitVec 6) (f : BitVec 1) (s : State) : Host.Outcome State Fault Refusal :=
  s.run (s.headV1 r a true) fun s => s.vec1 d r a true fun x => x.map (if f == 1 then keyValue else sortKey)

/-- PERM written whole from a list of sources (R266). -/
def State.setPerm (s : State) (l : List Nat) : State :=
  s.setTm { s.tm with perm := (l.zipIdx).map fun e => (e.2, BitVec.ofNat 7 e.1) }

/-- An entry of PERM: at team start its own number (R266). -/
def TeamSt.permAt (t : TeamSt) (p : Nat) : Nat := (tget (BitVec.ofNat 7 p) t.perm p).toNat

/-- A key with its source put into a list in order; equal keys keep the order in which they come (R267). -/
def insertKey (desc : Bool) (e : W32 × Nat) : List (W32 × Nat) → List (W32 × Nat)
  | [] => [e]
  | x :: t => if (if desc then x.1.ult e.1 else e.1.ult x.1) then e :: x :: t else x :: insertKey desc e t

/-- Keys with their sources in order, stably. -/
def sortKeys (desc : Bool) (l : List (W32 × Nat)) : List (W32 × Nat) := l.foldl (fun acc e => insertKey desc e acc) []

/-- `SBIT` (R267). -/
def execSbit (d : Bool) (r a : BitVec 6) (f : BitVec 1) (s : State) : Host.Outcome State Fault Refusal :=
  s.run (s.headV1 r a true) fun s => do
    s.popsOk [a]
    s.room d r
    let x ← s.vsrc a
    let l := sortKeys (f == 1) x.1.zipIdx
    .ok ((x.2.setPerm (l.map (·.2) ++ (List.range 32).map (· + 32))).vput d r (l.map (·.1))).goOn

/-- The merge of R268: keys with their sources. The bound is the number of positions. -/
def mergeKeys (desc : Bool) (x y : List W32) : Nat → Nat → Nat → List (W32 × Nat)
  | 0, _, _ => []
  | n + 1, i, j =>
    let p := x.getD i 0
    let q := y.getD j 0
    if j == 32 || (decide (i < 32) && (if desc then q.ule p else p.ule q)) then (p, i) :: mergeKeys desc x y n (i + 1) j
    else (q, 32 + j) :: mergeKeys desc x y n i (j + 1)

/-- `SMRG` (R268): the lower half to DS, the upper half to SA's register, whose result enters the latches last. -/
def execSmrg (d : Bool) (r a b : BitVec 6) (f : BitVec 1) (s : State) : Host.Outcome State Fault Refusal :=
  s.run (headX (s.destOk r && regOk a && s.srcOk b && r != a)) fun s => do
    s.popsOk [b]
    s.room d r
    let x ← s.vsrc a
    let y ← x.2.vsrc b
    let l := mergeKeys (f == 1) x.1 y.1 64 0 0
    let u := y.2.setPerm (l.map (·.2))
    let lo := (l.take 32).map (·.1)
    let hi := (l.drop 32).map (·.1)
    .ok ((u.vput d r lo).vput d a hi).goOn

/-- `STOPK` (R269). -/
def execStopk (d : Bool) (r a b : BitVec 6) (s : State) : Host.Outcome State Fault Refusal :=
  s.run (headX (regOk r && s.srcOk a && b != 0 && b ≤ 32)) fun s => do
    s.popsOk [a]
    let k := b.toNat
    let z := (s.vreg r.toNat).zipIdx.take k
    let x ← s.vsrc a
    let l := (sortKeys true (z ++ (x.1.zipIdx).map fun e => (e.1, e.2 + 32))).take k
    let u := x.2.setPerm (l.map (·.2) ++ List.replicate (64 - k) 64)
    .ok (u.vput d r (l.map (·.1) ++ List.replicate (32 - k) 0)).goOn

/-- The payload that an entry of PERM names (R270). -/
def payAt (x y : List W32) (e : Nat) : W32 :=
  if e < 32 then x.getD e 0 else if e < 64 then y.getD (e - 32) 0 else 0

/-- `SPAY` (R270). -/
def execSpay (d : Bool) (r a b : BitVec 6) (f : BitVec 1) (s : State) : Host.Outcome State Fault Refusal :=
  s.run (s.headV2 r a b) fun s => s.vec2 d r a b true fun x y =>
    (List.range 32).map fun k => payAt x y (s.tm.permAt (32 * f.toNat + k))

end Sys2Proof.Machine
end

