-- ==== Sys2Proof/Machine/VecInt.lean ====
section
/-! DEFINITION. Integer element operations, lane movement and masks of the vector half (R201, R207 to R213). -/

namespace Sys2Proof.Machine

/-! ### Integer elements (R209 to R212) -/

/-- The signed value of an element, or its unsigned one for UINT8 (R209). -/
def elemInt (f : W32) (c : Nat) : Int := if enElem f == 8 then (c : Int) else sextNat (enBits f) c

/-- An exact integer as an element: wrapped, or saturated where the entry has SAT (R67, R209). -/
def putInt (f : W32) (v : Int) : Nat :=
  let w := enBits f
  let u := if enSat f then (if enElem f == 8 then clampI 0 (2 ^ w - 1) v else clampI (-(2 ^ (w - 1))) (2 ^ (w - 1) - 1) v) else v
  (u % 2 ^ w).toNat

/-- A two-operand operation on element codes under an integer entry. -/
def State.vint2 (s : State) (d : Bool) (r a b : BitVec 6) (slot : BitVec 3) (op : W32 → Nat → Nat → Nat) : Iss Done :=
  let f := s.fmtEntry slot.toNat
  s.vec2 d r a b (fmtFits f elInt) fun x y => List.zipWith (lane2 (enBits f) (op f)) x y

/-- `VIADD` (R209). -/
def execViadd (d : Bool) (r a b : BitVec 6) (k : BitVec 3) (s : State) : Host.Outcome State Fault Refusal :=
  s.run (s.headV2 r a b) fun s => s.vint2 d r a b k fun f x y => putInt f (elemInt f x + elemInt f y)

/-- `VISUB` (R209). -/
def execVisub (d : Bool) (r a b : BitVec 6) (k : BitVec 3) (s : State) : Host.Outcome State Fault Refusal :=
  s.run (s.headV2 r a b) fun s => s.vint2 d r a b k fun f x y => putInt f (elemInt f x - elemInt f y)

/-- `VIMUL` (R209). -/
def execVimul (d : Bool) (r a b : BitVec 6) (k : BitVec 3) (s : State) : Host.Outcome State Fault Refusal :=
  s.run (s.headV2 r a b) fun s => s.vint2 d r a b k fun f x y => putInt f (elemInt f x * elemInt f y)

/-- `VAND` (R209). -/
def execVand (d : Bool) (r a b : BitVec 6) (s : State) : Host.Outcome State Fault Refusal :=
  s.run (s.headV2 r a b) fun s => s.vec2 d r a b true (List.zipWith fun x y => x &&& y)

/-- `VOR` (R209). -/
def execVor (d : Bool) (r a b : BitVec 6) (s : State) : Host.Outcome State Fault Refusal :=
  s.run (s.headV2 r a b) fun s => s.vec2 d r a b true (List.zipWith fun x y => x ||| y)

/-- `VXOR` (R209). -/
def execVxor (d : Bool) (r a b : BitVec 6) (s : State) : Host.Outcome State Fault Refusal :=
  s.run (s.headV2 r a b) fun s => s.vec2 d r a b true (List.zipWith fun x y => x ^^^ y)

/-- `VSHL` (R209). -/
def execVshl (d : Bool) (r a b : BitVec 6) (k : BitVec 3) (s : State) : Host.Outcome State Fault Refusal :=
  s.run (s.headV2 r a b) fun s => s.vint2 d r a b k fun f x y => x * 2 ^ (y % enBits f) % 2 ^ enBits f

/-- `VSHR` (R209). -/
def execVshr (d : Bool) (r a b : BitVec 6) (k : BitVec 3) (s : State) : Host.Outcome State Fault Refusal :=
  s.run (s.headV2 r a b) fun s => s.vint2 d r a b k fun f x y => x / 2 ^ (y % enBits f)

/-- `VSRA` (R209). -/
def execVsra (d : Bool) (r a b : BitVec 6) (k : BitVec 3) (s : State) : Host.Outcome State Fault Refusal :=
  s.run (s.headV2 r a b) fun s => s.vint2 d r a b k fun f x y =>
    (Int.fdiv (sextNat (enBits f) x) (2 ^ (y % enBits f)) % 2 ^ enBits f).toNat

/-- The sub-operations of `VIMNX` on elements of width `w` (R210). -/
def vimnxOp (k w x y : Nat) : Nat :=
  match k with
  | 0 => if sextNat w x ≤ sextNat w y then x else y
  | 1 => if sextNat w x ≤ sextNat w y then y else x
  | 2 => min x y
  | _ => max x y

/-- `VIMNX` (R210). -/
def execVimnx (d : Bool) (r a b : BitVec 6) (k : BitVec 3) (s : State) : Host.Outcome State Fault Refusal :=
  s.run (headX (regOk r && s.srcOk a && b < 4)) fun s =>
    let f := s.fmtEntry k.toNat
    s.vec1 d r a (fmtFits f elInt) fun x => List.zipWith (lane2 (enBits f) (vimnxOp b.toNat (enBits f))) (s.vreg r.toNat) x

/-- The conditions of `VICMP` on lanes (R211, R106). -/
def vicmpCond (k : BitVec 3) (x y : W32) : Bool :=
  match k.toNat with
  | 0 => x == y
  | 1 => x != y
  | 2 => x.slt y
  | 3 => x.sle y
  | 4 => x.ult y
  | 5 => x.ule y
  | 6 => (x &&& y) != 0
  | _ => (x &&& y) == 0

/-- `VICMP` (R211). -/
def execVicmp (d : Bool) (k m : BitVec 3) (a b : BitVec 6) (f : BitVec 3) (s : State) : Host.Outcome State Fault Refusal :=
  s.run (headX (m != 7 && s.srcOk a && s.srcOk b)) fun s => s.vecMask d m a b (fmtFits (s.fmtEntry f.toNat) elWord) (vicmpCond k)

/-- `VPACK` (R212). -/
def execVpack (d : Bool) (r a b : BitVec 6) (k : BitVec 3) (s : State) : Host.Outcome State Fault Refusal :=
  s.run (s.headV2 r a b) fun s =>
    let f := s.fmtEntry k.toNat
    let n := s.lanes
    s.vec2 d r a b (fmtFits f elPacked) fun x y => packLanes (enBits f) n ((x ++ y).map fun v => v.toNat % 2 ^ enBits f)

/-- An element widened to a lane: sign-extended for INT8 and INT4, else zero-extended (R212). -/
def widen (f : W32) (c : Nat) : W32 :=
  if enElem f == 7 || enElem f == 9 then BitVec.ofInt 32 (sextNat (enBits f) c) else BitVec.ofNat 32 c

/-- `VUNPK` (R212): SB raw holds the group. -/
def execVunpk (d : Bool) (r a b : BitVec 6) (k : BitVec 3) (s : State) : Host.Outcome State Fault Refusal :=
  s.run (s.headV1 r a (b < 8)) fun s =>
    let f := s.fmtEntry k.toNat
    let n := s.lanes
    s.vec1 d r a (fmtFits f elPacked && decide (b.toNat < 32 / enBits f)) fun x =>
      (((allElems (enBits f) x).drop (b.toNat * n)).take n).map (widen f)

/-! ### Lane movement (R201, R207, R208) -/

/-- `VSEL` (R201). -/
def execVsel (d : Bool) (r a b : BitVec 6) (s : State) : Host.Outcome State Fault Refusal :=
  s.run (s.headV2 r a b) fun s => s.vec2 d r a b true fun x y =>
    List.zipWith (fun (p : Nat × W32) q => if s.laneOn p.1 then p.2 else q) (numbered x) y

/-- A lane by its number modulo the number of lanes. -/
def laneAt (x : List W32) (n k : Nat) : W32 := x.getD (k % n) 0

/-- `VPERM` (R207). -/
def execVperm (d : Bool) (r a b : BitVec 6) (s : State) : Host.Outcome State Fault Refusal :=
  s.run (s.headV2 r a b) fun s => s.vec2 d r a b true fun x y => y.map fun i => laneAt x s.lanes i.toNat

/-- `VROT` (R207). -/
def execVrot (d : Bool) (r a b : BitVec 6) (s : State) : Host.Outcome State Fault Refusal :=
  s.run (s.headV2 r a b) fun s => s.vec2 d r a b true fun x y =>
    (List.range s.lanes).map fun k => laneAt x s.lanes (k + (lanes64 y).toNat)

/-- `VBCAST` (R207). -/
def execVbcast (d : Bool) (r a b : BitVec 6) (s : State) : Host.Outcome State Fault Refusal :=
  s.run (s.headV2 r a b) fun s => s.vec2 d r a b true fun x y => List.replicate s.lanes (laneAt x s.lanes (lanes64 y).toNat)

/-- `VMOV` (R207). -/
def execVmov (d : Bool) (r a : BitVec 6) (s : State) : Host.Outcome State Fault Refusal :=
  s.run (s.headV1 r a true) fun s => s.vec1 d r a true fun x => x

/-- `VIOTA` (R207). -/
def execViota (d : Bool) (r a b : BitVec 6) (s : State) : Host.Outcome State Fault Refusal :=
  s.run (s.headV2 r a b) fun s => s.vec2 d r a b true fun x y =>
    (List.range s.lanes).map fun k => x.getD 0 0 + y.getD 0 0 * BitVec.ofNat 32 k

/-- `VEXT` (R208): a lane pushed to `xc`. -/
def execVext (a b : BitVec 6) (s : State) : Host.Outcome State Fault Refusal :=
  s.run (headX (s.srcOk a && s.srcOk b)) fun s => do
    s.popsOk [a, b]
    pushCheck s.tm .xc
    let x ← s.vsrc a
    let y ← x.2.vsrc b
    let v := laneAt x.1 s.lanes (lanes64 y.1).toNat
    .ok (y.2.setTm (y.2.tm.pushQ .xc (v.setWidth 64))).goOn

/-- `VINS` (R208): a lane replaced by a value popped from `cx`. -/
def execVins (d : Bool) (r a b : BitVec 6) (s : State) : Host.Outcome State Fault Refusal :=
  s.run (s.headV2 r a b) fun s => do
    s.popsOk [a, b]
    popCheck s.tm.cx.length 1 (qGone s.tm .cx)
    s.room d r
    let x ← s.vsrc a
    let y ← x.2.vsrc b
    let z ← y.2.popNamed .cx
    .ok (z.2.vput d r (lset x.1 ((lanes64 y.1).toNat % s.lanes) (lo32 z.1))).goOn

/-! ### Masks (R213) -/

/-- `VMSET` (R213). -/
def execVmset (m : BitVec 3) (s : State) : Host.Outcome State Fault Refusal :=
  s.run (headX true) fun s => .ok (s.setTm { s.tm with amask := m }).goOn

/-- Whether the fields of `VMLOG` fit its operation (R213). -/
def State.vmlogOk (s : State) (m : BitVec 3) (a b : BitVec 6) (f : BitVec 3) : Bool :=
  m != 7 && (match f.toNat with
    | 5 => a < 8 && b == 0
    | 6 => s.srcOk a && b == 0
    | 7 => false
    | _ => a < 8 && b < 8)

/-- The bits of a mask for the lanes of the running core. -/
def State.maskBits (s : State) (k : BitVec 6) : List Bool := (List.range s.lanes).map fun i => (s.mask (k.setWidth 3)).getLsbD i

/-- The operations of `VMLOG` on mask bits (R213). -/
def vmlogOp (f : BitVec 3) (x y : Bool) : Bool :=
  match f.toNat with
  | 0 => x && y
  | 1 => x || y
  | 2 => x != y
  | 3 => x && !y
  | 4 => x || !y
  | _ => !x

/-- `VMLOG` (R213). -/
def execVmlog (d : Bool) (m : BitVec 3) (a b : BitVec 6) (f : BitVec 3) (s : State) : Host.Outcome State Fault Refusal :=
  s.run (headX (s.vmlogOk m a b f)) fun s =>
    if f == 6 then do
      s.popsOk [a]
      let x ← s.vsrc a
      .ok (x.2.putMask d m (x.1.map fun v => v != 0)).goOn
    else .ok (s.putMask d m (List.zipWith (vmlogOp f) (s.maskBits a) (s.maskBits b))).goOn

end Sys2Proof.Machine
end

