-- ==== Sys2Proof/Machine/Dispatch.lean ====
section
/-! DEFINITION. The dispatch: one arm per constructor of `Instr`, each a direct call of that instruction's meaning. -/

namespace Sys2Proof.Machine

/-- What an instruction does in a state. -/
def exec (i : Instr) (s : State) : Host.Outcome State Fault Refusal :=
  match i with
  | .nop t => Sys2Proof.Machine.execNop t s
  | .add t d r a b f => Sys2Proof.Machine.execAdd t d r a b f s
  | .addi t d r a im => Sys2Proof.Machine.execAddi t d r a im s
  | .sub t d r a b f => Sys2Proof.Machine.execSub t d r a b f s
  | .mul t d r a b f => Sys2Proof.Machine.execMul t d r a b f s
  | .div t d r a b f => Sys2Proof.Machine.execDiv t d r a b f s
  | .andK t d r a b => Sys2Proof.Machine.execAnd t d r a b s
  | .andi t d r a im => Sys2Proof.Machine.execAndi t d r a im s
  | .orK t d r a b => Sys2Proof.Machine.execOr t d r a b s
  | .ori t d r a im => Sys2Proof.Machine.execOri t d r a im s
  | .xorK t d r a b => Sys2Proof.Machine.execXor t d r a b s
  | .xori t d r a im => Sys2Proof.Machine.execXori t d r a im s
  | .shl t d r a b => Sys2Proof.Machine.execShl t d r a b s
  | .shli t d r a im => Sys2Proof.Machine.execShli t d r a im s
  | .shr t d r a b => Sys2Proof.Machine.execShr t d r a b s
  | .shri t d r a im => Sys2Proof.Machine.execShri t d r a im s
  | .sra t d r a b => Sys2Proof.Machine.execSra t d r a b s
  | .srai t d r a im => Sys2Proof.Machine.execSrai t d r a im s
  | .minK t d r a b f => Sys2Proof.Machine.execMin t d r a b f s
  | .maxK t d r a b f => Sys2Proof.Machine.execMax t d r a b f s
  | .cmp t d p a b k => Sys2Proof.Machine.execCmp t d p a b k s
  | .cmpi t d k p a im => Sys2Proof.Machine.execCmpi t d k p a im s
  | .sel t d r a b f => Sys2Proof.Machine.execSel t d r a b f s
  | .li t r im => Sys2Proof.Machine.execLi t r im s
  | .lsi t r im => Sys2Proof.Machine.execLsi t r im s
  | .bfx t d r a b f => Sys2Proof.Machine.execBfx t d r a b f s
  | .bfi t d r a b => Sys2Proof.Machine.execBfi t d r a b s
  | .bitc t d r a f => Sys2Proof.Machine.execBitc t d r a f s
  | .plog t d r a b f => Sys2Proof.Machine.execPlog t d r a b f s
  | .pmov t d r a f => Sys2Proof.Machine.execPmov t d r a f s
  | .fadd t d r a b f => Sys2Proof.Machine.execFadd t d r a b f s
  | .fmul t d r a b f => Sys2Proof.Machine.execFmul t d r a b f s
  | .ffma t d r a b f => Sys2Proof.Machine.execFfma t d r a b f s
  | .fmnx t d r a b f => Sys2Proof.Machine.execFmnx t d r a b f s
  | .fcmp t d p a b f => Sys2Proof.Machine.execFcmp t d p a b f s
  | .fcvt t d r a f => Sys2Proof.Machine.execFcvt t d r a f s
  | .br t c im => Sys2Proof.Machine.execBr t c im s
  | .call t im => Sys2Proof.Machine.execCall t im s
  | .ret t => Sys2Proof.Machine.execRet t s
  | .jmpr t a => Sys2Proof.Machine.execJmpr t a s
  | .loop l a im => Sys2Proof.Machine.execLoop l a im s
  | .lbrk c l => Sys2Proof.Machine.execLbrk c l s
  | .lcnt t d r f => Sys2Proof.Machine.execLcnt t d r f s
  | .slip im => Sys2Proof.Machine.execSlip im s
  | .push t a q => Sys2Proof.Machine.execPush t a q s
  | .pop t a q => Sys2Proof.Machine.execPop t a q s
  | .align t => Sys2Proof.Machine.execAlign t s
  | .fmtc t im => Sys2Proof.Machine.execFmtc t im s
  | .time t r im => Sys2Proof.Machine.execTime t r im s
  | .waitt t a im => Sys2Proof.Machine.execWaitt t a im s
  | .exit => Sys2Proof.Machine.execExit s
  | .trap t a im => Sys2Proof.Machine.execTrap t a im s
  | .ldb t d r a p o => Sys2Proof.Machine.execLdb t d r a p o s
  | .ldh t d r a p o => Sys2Proof.Machine.execLdh t d r a p o s
  | .ldw t d r a p o => Sys2Proof.Machine.execLdw t d r a p o s
  | .ldd t d r a p o => Sys2Proof.Machine.execLdd t d r a p o s
  | .ldbz t d r a p o => Sys2Proof.Machine.execLdbz t d r a p o s
  | .ldhz t d r a p o => Sys2Proof.Machine.execLdhz t d r a p o s
  | .ldwz t d r a p o => Sys2Proof.Machine.execLdwz t d r a p o s
  | .stb t d v a p o => Sys2Proof.Machine.execStb t d v a p o s
  | .sth t d v a p o => Sys2Proof.Machine.execSth t d v a p o s
  | .stw t d v a p o => Sys2Proof.Machine.execStw t d v a p o s
  | .std t d v a p o => Sys2Proof.Machine.execStd t d v a p o s
  | .ldf t d r a p o => Sys2Proof.Machine.execLdf t d r a p o s
  | .stf t d v a p o => Sys2Proof.Machine.execStf t d v a p o s
  | .fefill t d r a b f => Sys2Proof.Machine.execFefill t d r a b f s
  | .cpy t r a b f => Sys2Proof.Machine.execCpy t r a b f s
  | .cpyw t a im => Sys2Proof.Machine.execCpyw t a im s
  | .cpys t r a => Sys2Proof.Machine.execCpys t r a s
  | .amo t d r a b f => Sys2Proof.Machine.execAmo t d r a b f s
  | .amow t d r a b f => Sys2Proof.Machine.execAmow t d r a b f s
  | .cas t r a b => Sys2Proof.Machine.execCas t r a b s
  | .casw t r a b => Sys2Proof.Machine.execCasw t r a b s
  | .amof t d r a b f => Sys2Proof.Machine.execAmof t d r a b f s
  | .fence t k z => Sys2Proof.Machine.execFence t k z s
  | .xfence t m n z => Sys2Proof.Machine.execXfence t m n z s
  | .pref t d a p o => Sys2Proof.Machine.execPref t d a p o s
  | .fjoin a im => Sys2Proof.Machine.execFjoin a im s
  | .fleave => Sys2Proof.Machine.execFleave s
  | .fbar a => Sys2Proof.Machine.execFbar a s
  | .fred d r a f => Sys2Proof.Machine.execFred d r a f s
  | .xph => Sys2Proof.Machine.execXph s
  | .xmit a im c => Sys2Proof.Machine.execXmit a im c s
  | .msel r im c => Sys2Proof.Machine.execMsel r im c s
  | .xend => Sys2Proof.Machine.execXend s
  | .bopen d r a => Sys2Proof.Machine.execBopen d r a s
  | .bgive a im => Sys2Proof.Machine.execBgive a im s
  | .bdup a b im => Sys2Proof.Machine.execBdup a b im s
  | .bdrop a => Sys2Proof.Machine.execBdrop a s
  | .binfo d r a f => Sys2Proof.Machine.execBinfo d r a f s
  | .nparam t d r im => Sys2Proof.Machine.execNparam t d r im s
  | .inst t d r f => Sys2Proof.Machine.execInst t d r f s
  | .signal a b im => Sys2Proof.Machine.execSignal a b im s
  | .cfr t r im => Sys2Proof.Machine.execCfr t r im s
  | .cfw t a im => Sys2Proof.Machine.execCfw t a im s
  | .halt => Sys2Proof.Machine.execHalt s
  | .tlbi a b im => Sys2Proof.Machine.execTlbi a b im s
  | .eret => Sys2Proof.Machine.execEret s
  | .vadd d r a b z => Sys2Proof.Machine.execVadd d r a b z s
  | .vsub d r a b z => Sys2Proof.Machine.execVsub d r a b z s
  | .vmul d r a b z => Sys2Proof.Machine.execVmul d r a b z s
  | .vfma d r a b z => Sys2Proof.Machine.execVfma d r a b z s
  | .vfnma d r a b z => Sys2Proof.Machine.execVfnma d r a b z s
  | .vmin d r a b z => Sys2Proof.Machine.execVmin d r a b z s
  | .vmax d r a b z => Sys2Proof.Machine.execVmax d r a b z s
  | .vuna d r a b z => Sys2Proof.Machine.execVuna d r a b z s
  | .vcmp d k m a b z => Sys2Proof.Machine.execVcmp d k m a b z s
  | .vsel d r a b => Sys2Proof.Machine.execVsel d r a b s
  | .vcvt d r a b z => Sys2Proof.Machine.execVcvt d r a b z s
  | .vrcp d r a z => Sys2Proof.Machine.execVrcp d r a z s
  | .vrsq d r a z => Sys2Proof.Machine.execVrsq d r a z s
  | .vexp2 d r a z => Sys2Proof.Machine.execVexp2 d r a z s
  | .vlog2 d r a z => Sys2Proof.Machine.execVlog2 d r a z s
  | .vscl2 d r a b z => Sys2Proof.Machine.execVscl2 d r a b z s
  | .vdot d r a b z => Sys2Proof.Machine.execVdot d r a b z s
  | .vdota d r a b z => Sys2Proof.Machine.execVdota d r a b z s
  | .vrsum d r a z => Sys2Proof.Machine.execVrsum d r a z s
  | .vrmax d r a z => Sys2Proof.Machine.execVrmax d r a z s
  | .vscan d r a z => Sys2Proof.Machine.execVscan d r a z s
  | .vperm d r a b => Sys2Proof.Machine.execVperm d r a b s
  | .vrot d r a b => Sys2Proof.Machine.execVrot d r a b s
  | .vbcast d r a b => Sys2Proof.Machine.execVbcast d r a b s
  | .viadd d r a b z => Sys2Proof.Machine.execViadd d r a b z s
  | .visub d r a b z => Sys2Proof.Machine.execVisub d r a b z s
  | .vimul d r a b z => Sys2Proof.Machine.execVimul d r a b z s
  | .vand d r a b => Sys2Proof.Machine.execVand d r a b s
  | .vor d r a b => Sys2Proof.Machine.execVor d r a b s
  | .vxor d r a b => Sys2Proof.Machine.execVxor d r a b s
  | .vshl d r a b z => Sys2Proof.Machine.execVshl d r a b z s
  | .vshr d r a b z => Sys2Proof.Machine.execVshr d r a b z s
  | .vsra d r a b z => Sys2Proof.Machine.execVsra d r a b z s
  | .vimnx d r a b z => Sys2Proof.Machine.execVimnx d r a b z s
  | .vicmp d k m a b z => Sys2Proof.Machine.execVicmp d k m a b z s
  | .vpack d r a b z => Sys2Proof.Machine.execVpack d r a b z s
  | .vunpk d r a b z => Sys2Proof.Machine.execVunpk d r a b z s
  | .ldv d a p o => Sys2Proof.Machine.execLdv d a p o s
  | .stv a p o => Sys2Proof.Machine.execStv a p o s
  | .vgath d r a b => Sys2Proof.Machine.execVgath d r a b s
  | .vscat r a b => Sys2Proof.Machine.execVscat r a b s
  | .vmset m => Sys2Proof.Machine.execVmset m s
  | .vmlog d m a b f => Sys2Proof.Machine.execVmlog d m a b f s
  | .vmov d r a => Sys2Proof.Machine.execVmov d r a s
  | .viota d r a b => Sys2Proof.Machine.execViota d r a b s
  | .vext a b => Sys2Proof.Machine.execVext a b s
  | .vins d r a b => Sys2Proof.Machine.execVins d r a b s
  | .pset p a g m => Sys2Proof.Machine.execPset p a g m s
  | .pgo p => Sys2Proof.Machine.execPgo p s
  | .phalt p => Sys2Proof.Machine.execPhalt p s
  | .pstat p r => Sys2Proof.Machine.execPstat p r s
  | .vqnt d r a b z => Sys2Proof.Machine.execVqnt d r a b z s
  | .vdqnt d r a b z => Sys2Proof.Machine.execVdqnt d r a b z s
  | .mpath d r a b => Sys2Proof.Machine.execMpath d r a b s
  | .csrw p a g w o => Sys2Proof.Machine.execCsrw p a g w o s
  | .segsum d r a b z => Sys2Proof.Machine.execSegsum d r a b z s
  | .segcar d r a b => Sys2Proof.Machine.execSegcar d r a b s
  | .vgathx d r a b => Sys2Proof.Machine.execVgathx d r a b s
  | .sbit d r a f => Sys2Proof.Machine.execSbit d r a f s
  | .smrg d r a b f => Sys2Proof.Machine.execSmrg d r a b f s
  | .skey d r a f => Sys2Proof.Machine.execSkey d r a f s
  | .stopk d r a b => Sys2Proof.Machine.execStopk d r a b s
  | .spay d r a b f => Sys2Proof.Machine.execSpay d r a b f s
  | .clease => Sys2Proof.Machine.execClease s
  | .crel => Sys2Proof.Machine.execCrel s
  | .ccfg f v => Sys2Proof.Machine.execCcfg f v s
  | .tri a b g => Sys2Proof.Machine.execTri a b g s
  | .mma a b => Sys2Proof.Machine.execMma a b s
  | .accz => Sys2Proof.Machine.execAccz s
  | .accst a => Sys2Proof.Machine.execAccst a s
  | .tzero a => Sys2Proof.Machine.execTzero a s
  | .tshape a b => Sys2Proof.Machine.execTshape a b s
  | .tld a b g => Sys2Proof.Machine.execTld a b g s
  | .tst a b g => Sys2Proof.Machine.execTst a b g s
  | .tcvt a b => Sys2Proof.Machine.execTcvt a b s
  | .teadd a b g => Sys2Proof.Machine.execTeadd a b g s
  | .temul a b g => Sys2Proof.Machine.execTemul a b g s
  | .temax a b g => Sys2Proof.Machine.execTemax a b g s
  | .tesub a b g => Sys2Proof.Machine.execTesub a b g s
  | .tred a b g => Sys2Proof.Machine.execTred a b g s
  | .tix b => Sys2Proof.Machine.execTix b s
  | .cwait => Sys2Proof.Machine.execCwait s
  | .tbcast a b => Sys2Proof.Machine.execTbcast a b s
  | .mrowz a b => Sys2Proof.Machine.execMrowz a b s
  | .mrowc r a b => Sys2Proof.Machine.execMrowc r a b s
  | .mloc d r a => Sys2Proof.Machine.execMloc d r a s
  | .minv a b f => Sys2Proof.Machine.execMinv a b f s
  | .mcomp d r a => Sys2Proof.Machine.execMcomp d r a s
  | .mexpd d r a b => Sys2Proof.Machine.execMexpd d r a b s
  | .mscrb d r a b => Sys2Proof.Machine.execMscrb d r a b s
  | .mmig d r a f => Sys2Proof.Machine.execMmig d r a f s
  | .mred d r a b f => Sys2Proof.Machine.execMred d r a b f s
  | .mfill r a b => Sys2Proof.Machine.execMfill r a b s
  | .mstat d r f => Sys2Proof.Machine.execMstat d r f s
  | .rfetch d r a b => Sys2Proof.Machine.execRfetch d r a b s
  | .bfxm d r a f => Sys2Proof.Machine.execBfxm d r a f s
  | .swait d r a b => Sys2Proof.Machine.execSwait d r a b s
  | .disp d r a b => Sys2Proof.Machine.execDisp d r a b s
  | .qsave d r a => Sys2Proof.Machine.execQsave d r a s
  | .qload d r a b => Sys2Proof.Machine.execQload d r a b s
  | .gdec d r a => Sys2Proof.Machine.execGdec d r a s
  | .glnch d r a b => Sys2Proof.Machine.execGlnch d r a b s
  | .brnew d r a b => Sys2Proof.Machine.execBrnew d r a b s
  | .brfree d r a => Sys2Proof.Machine.execBrfree d r a s
  | .flknew d r a b f => Sys2Proof.Machine.execFlknew d r a b f s
  | .fltpop d r a => Sys2Proof.Machine.execFltpop d r a s
  | .resume d r a => Sys2Proof.Machine.execResume d r a s
  | .kill d r a => Sys2Proof.Machine.execKill d r a s
  | .qmap d r a f => Sys2Proof.Machine.execQmap d r a f s
  | .prio d r a b f => Sys2Proof.Machine.execPrio d r a b f s
  | .loopEnd => Sys2Proof.Machine.execLoopEnd s
  | .loadPerform => Sys2Proof.Machine.execLoadPerform s
  | .storePerform => Sys2Proof.Machine.execStorePerform s
  | .copyFaultHold => Sys2Proof.Machine.execCopyFaultHold s
  | .copyComplete => Sys2Proof.Machine.execCopyComplete s
  | .polledWaitRetry => Sys2Proof.Machine.execPolledWaitRetry s
  | .waittExpire => Sys2Proof.Machine.execWaittExpire s
  | .slipRelease => Sys2Proof.Machine.execSlipRelease s
  | .portOperandFetch => Sys2Proof.Machine.execPortOperandFetch s
  | .writePortWrite => Sys2Proof.Machine.execWritePortWrite s
  | .tileTransferEffect => Sys2Proof.Machine.execTileTransferEffect s
  | .leaseGrant => Sys2Proof.Machine.execLeaseGrant s
  | .leaseBudgetExpiry => Sys2Proof.Machine.execLeaseBudgetExpiry s
  | .leaseIdleExpiry => Sys2Proof.Machine.execLeaseIdleExpiry s
  | .flockJoinMessage => Sys2Proof.Machine.execFlockJoinMessage s
  | .flockLeaveMessage => Sys2Proof.Machine.execFlockLeaveMessage s
  | .flockArrivalMessage => Sys2Proof.Machine.execFlockArrivalMessage s
  | .planeLoadComplete => Sys2Proof.Machine.execPlaneLoadComplete s
  | .teamComplete => Sys2Proof.Machine.execTeamComplete s
  | .preemptRequest => Sys2Proof.Machine.execPreemptRequest s
  | .longWaitSwap => Sys2Proof.Machine.execLongWaitSwap s
  | .teamSaveComplete => Sys2Proof.Machine.execTeamSaveComplete s
  | .teamRequeue => Sys2Proof.Machine.execTeamRequeue s
  | .nodeDispatch => Sys2Proof.Machine.execNodeDispatch s
  | .instanceComplete => Sys2Proof.Machine.execInstanceComplete s
  | .ageingInterval => Sys2Proof.Machine.execAgeingInterval s
  | .graphUpload => Sys2Proof.Machine.execGraphUpload s
  | .graphUnload => Sys2Proof.Machine.execGraphUnload s
  | .launchTrigger => Sys2Proof.Machine.execLaunchTrigger s
  | .launchStart => Sys2Proof.Machine.execLaunchStart s
  | .launchEnd => Sys2Proof.Machine.execLaunchEnd s
  | .timedLaunchPreplace => Sys2Proof.Machine.execTimedLaunchPreplace s
  | .timedLaunchFire => Sys2Proof.Machine.execTimedLaunchFire s
  | .gangCommit => Sys2Proof.Machine.execGangCommit s
  | .gangRollbackTimeout => Sys2Proof.Machine.execGangRollbackTimeout s
  | .kick => Sys2Proof.Machine.execKick s
  | .packetLaunch => Sys2Proof.Machine.execPacketLaunch s
  | .packetRelaunch => Sys2Proof.Machine.execPacketRelaunch s
  | .packetTimedLaunch => Sys2Proof.Machine.execPacketTimedLaunch s
  | .packetBarrierAnd => Sys2Proof.Machine.execPacketBarrierAnd s
  | .barrierAndRelease => Sys2Proof.Machine.execBarrierAndRelease s
  | .packetSignal => Sys2Proof.Machine.execPacketSignal s
  | .packetNop => Sys2Proof.Machine.execPacketNop s
  | .faultRecordEnqueue => Sys2Proof.Machine.execFaultRecordEnqueue s
  | .swaitTimeout => Sys2Proof.Machine.execSwaitTimeout s
  | .tlbiInvalidateMessage => Sys2Proof.Machine.execTlbiInvalidateMessage s
  | .tlbiAck => Sys2Proof.Machine.execTlbiAck s
  | .pageWalk => Sys2Proof.Machine.execPageWalk s
  | .l2Fill => Sys2Proof.Machine.execL2Fill s
  | .directoryRequest => Sys2Proof.Machine.execDirectoryRequest s
  | .sliceAtomic => Sys2Proof.Machine.execSliceAtomic s
  | .homeLineWrite => Sys2Proof.Machine.execHomeLineWrite s
  | .homeLineRead => Sys2Proof.Machine.execHomeLineRead s
  | .pageExpansion => Sys2Proof.Machine.execPageExpansion s
  | .extentAdd => Sys2Proof.Machine.execExtentAdd s
  | .extentReleaseRequest => Sys2Proof.Machine.execExtentReleaseRequest s
  | .releaseSweep => Sys2Proof.Machine.execReleaseSweep s
  | .releaseSweepTimeout => Sys2Proof.Machine.execReleaseSweepTimeout s
  | .extentForcedRemoval => Sys2Proof.Machine.execExtentForcedRemoval s
  | .cxlTimeout => Sys2Proof.Machine.execCxlTimeout s
  | .flitSlot => Sys2Proof.Machine.execFlitSlot s
  | .flitGroupReceive => Sys2Proof.Machine.execFlitGroupReceive s
  | .linkReplay => Sys2Proof.Machine.execLinkReplay s
  | .linkRetryFail => Sys2Proof.Machine.execLinkRetryFail s
  | .linkRetrainComplete => Sys2Proof.Machine.execLinkRetrainComplete s
  | .linkDownTimeout => Sys2Proof.Machine.execLinkDownTimeout s
  | .clusterReset => Sys2Proof.Machine.execClusterReset s
  | .clusterResetSaveDeadline => Sys2Proof.Machine.execClusterResetSaveDeadline s
  | .foldReset => Sys2Proof.Machine.execFoldReset s
  | .packageReset => Sys2Proof.Machine.execPackageReset s
  | .rstreqCluster => Sys2Proof.Machine.execRstreqCluster s
  | .rstreqFold => Sys2Proof.Machine.execRstreqFold s
  | .rstreqPackage => Sys2Proof.Machine.execRstreqPackage s
  | .rstreqRelease => Sys2Proof.Machine.execRstreqRelease s
  | .bootgo => Sys2Proof.Machine.execBootgo s
  | .firmwareCoreStart => Sys2Proof.Machine.execFirmwareCoreStart s
  | .attestationRequest => Sys2Proof.Machine.execAttestationRequest s
  | .mailboxMessage => Sys2Proof.Machine.execMailboxMessage s
  | .dieDegrade => Sys2Proof.Machine.execDieDegrade s
  | .dieRetirement => Sys2Proof.Machine.execDieRetirement s
  | .coreWatchdog => Sys2Proof.Machine.execCoreWatchdog s
  | .firmwareWatchdog => Sys2Proof.Machine.execFirmwareWatchdog s
  | .nodeDeadline => Sys2Proof.Machine.execNodeDeadline s
  | .clusterWatchdog => Sys2Proof.Machine.execClusterWatchdog s
  | .foldWatchdog => Sys2Proof.Machine.execFoldWatchdog s
  | .fwkick => Sys2Proof.Machine.execFwkick s
  | .thermalThrottle => Sys2Proof.Machine.execThermalThrottle s
  | .thermalRetire => Sys2Proof.Machine.execThermalRetire s
  | .powerBrownout => Sys2Proof.Machine.execPowerBrownout s
  | .powerRecover => Sys2Proof.Machine.execPowerRecover s
  | .elogclr => Sys2Proof.Machine.execElogclr s
  | .tmslew => Sys2Proof.Machine.execTmslew s
  | .tmset => Sys2Proof.Machine.execTmset s
  | .ptpEventTimestamp => Sys2Proof.Machine.execPtpEventTimestamp s
  | .ptmExchange => Sys2Proof.Machine.execPtmExchange s
  | .timeSourceLoss => Sys2Proof.Machine.execTimeSourceLoss s
  | .hostApertureAccess => Sys2Proof.Machine.execHostApertureAccess s
  | .hostAccessTimeout => Sys2Proof.Machine.execHostAccessTimeout s
  | .peerRequestReceive => Sys2Proof.Machine.execPeerRequestReceive s
  | .peerRequestForward => Sys2Proof.Machine.execPeerRequestForward s
  | .remoteTimeout => Sys2Proof.Machine.execRemoteTimeout s
  | .collectiveKick => Sys2Proof.Machine.execCollectiveKick s
  | .allReduce => Sys2Proof.Machine.execAllReduce s
  | .reduceScatter => Sys2Proof.Machine.execReduceScatter s
  | .allGather => Sys2Proof.Machine.execAllGather s
  | .collectiveBroadcast => Sys2Proof.Machine.execCollectiveBroadcast s
  | .collectiveBarrier => Sys2Proof.Machine.execCollectiveBarrier s
  | .collectivePartialReceive => Sys2Proof.Machine.execCollectivePartialReceive s
  | .collectiveComplete => Sys2Proof.Machine.execCollectiveComplete s
  | .collectiveTimeout => Sys2Proof.Machine.execCollectiveTimeout s
  | .registerWrite => Sys2Proof.Machine.execRegisterWrite s
  | .l1Eviction => Sys2Proof.Machine.execL1Eviction s
  | .powerCapping => Sys2Proof.Machine.execPowerCapping s
  | .hostPortLinkDown => Sys2Proof.Machine.execHostPortLinkDown s
  | .hostPortLinkUp => Sys2Proof.Machine.execHostPortLinkUp s
  | .gangStart => Sys2Proof.Machine.execGangStart s
  | .bootStagingWrite => Sys2Proof.Machine.execBootStagingWrite s
  | .softError => Sys2Proof.Machine.execSoftError s

end Sys2Proof.Machine
end

