-- ==== Sys2Proof/Machine/Step.lean ====
section
/-! DEFINITION. One step of the package: what stands first on the agenda, else a request whose wait is over, else the next of the rotation,
moves (log 1). A strand's
turn fetches, decodes and executes one word, or passes the end of a loop body. -/

namespace Sys2Proof.Machine

/-- A strand's turn. -/
def issueStep (c : CoreId) (σ : Strand) (s : State) : Host.Outcome State Fault Refusal :=
  if s.canIssue c σ then
    match s.fetch c σ with
    | .loopEnd => exec .loopEnd { s with ev := { EvArg.zero with core := c, strand := some σ } }
    | .past => .next ({ s with cur := c, strand := σ } : State).pastEnd
    | .word n w =>
      match decode (coreCls c) w with
      | none => .next ((({ s with cur := c, strand := σ } : State).atWord n).badWord w)
      | some i => exec i (({ s with cur := c, strand := σ } : State).atWord n)
  else .next s

/-- What an entry of the agenda does. -/
def moveStep (m : Sched) (s : State) : Host.Outcome State Fault Refusal :=
  match m with
  | .issue c σ => issueStep c σ s
  | .step i x => if s.heldBack i x then .next s else exec i { s with ev := x }
  | .copyWord c e => .next (s.copyWord c e)
  | .unmap d asid buf => .next (s.unmapStep d asid buf)
  | .signal d req st => .next (s.signalAgain d req st)
  | .trigger d gid => .next (s.triggerAgain d gid)
  | .late k a m =>
    match moveStep m { s with lapse := some (k, a) } with
    | .next t => .next { t with lapse := none }
    | o => o

/-- What moves where the agenda is empty, and the state without it: a request that waited, or the next of the rotation. -/
def State.nextMove (s : State) : Sched × State :=
  match s.waits with
  | (t, m) :: rest => if t ≤ s.turn then (m, { s with waits := rest }) else (rotation s.turn, { s with turn := s.turn + 1 })
  | [] => (rotation s.turn, { s with turn := s.turn + 1 })

/-- One step of the package. -/
def step (s : State) : Host.Outcome State Fault Refusal :=
  match s.agenda with
  | m :: rest => moveStep m { s.tick with agenda := rest }
  | [] => moveStep s.nextMove.1 s.nextMove.2.tick

/-- The class whose map reads a word first, and the word (log 3). -/
def fetchClass (w : W32) : Cls := ((decodeFirst w (classOrder w)).map (·.1)).getD .drover

/-- A core of a class (R497). -/
def coreOf : Cls → CoreId
  | .vec => ⟨23, 0⟩
  | .sparse => ⟨22, 0⟩
  | .sort => ⟨28, 0⟩
  | .cube => ⟨11, 0⟩
  | .mem => ⟨0, 0⟩
  | .drover => ⟨10, 0⟩

/-- The strand that executes a word first (R12, R19). -/
def strandOf (w : W32) : Strand :=
  match wordTag w with
  | .A => .A
  | .X => .X
  | _ => .C

/-- The state with a word stored where the next step fetches: in the active plane of a core of the word's class, at the PC of the
strand that executes it, whose turn is next (log 2). -/
def State.withFetchWord (s : State) (nbits w : Nat) : State :=
  let word := tableWord nbits w
  let c := coreOf (fetchClass word)
  let σ := strandOf word
  let k := s.core c
  let st := k.team.str σ
  let t := k.team.setStr σ { st with exited := false, loops := [] }
  let s1 := s.setCore c { k with run := true, halted := false, leave := none, team := t,
                                 active := { k.active with text := tset k.active.text st.pc word } }
  { s1 with agenda := .issue c σ :: s.agenda }

end Sys2Proof.Machine
end

