-- ==== Sys2Proof/Safety.lean ====
section
/-! DEFINITION. The terms that claims are stated in: a run without a stop, the conditions under which a word issues and its operands
are there, one byte of any memory of the package, and what a word leaves unchanged. -/

namespace Sys2Proof

/-- A run of `k` steps from a state that stops with neither a fault nor a refusal. -/
def SafeRun (k : Nat) (s : Machine.State) : Prop := ∃ t, Host.Core.run core k s = .next t

namespace Machine

/-! ### When a word issues, and what it reads -/

/-- The running strand executes words of a tag (R12), a span boundary may be passed where the word is one (R19), and where X is in a
transfer phase the word is one that it may issue there (R165). -/
def State.Issues (s : State) (t : Tag) (phase : Bool) : Prop :=
  tagRuns t s.strand = true ∧ (t = .W → slipFree s.tm s.strand = true) ∧ (s.strand = .X → inPhase s.tm = true → phase = true)

/-- One source operand is there (R26): its value, and the state after it has been read. -/
def State.Reads1 (s : State) (a : BitVec 6) (x : W64) (u : State) : Prop := s.popsOk [a] = .ok () ∧ s.src a = .ok (x, u)

/-- Two source operands are there (R26), the first read before the second. -/
def State.Reads2 (s : State) (a b : BitVec 6) (x y : W64) (u : State) : Prop :=
  s.popsOk [a, b] = .ok () ∧ ∃ v, s.src a = .ok (x, v) ∧ v.src b = .ok (y, u)

/-- Three source operands are there (R26), read in order. -/
def State.Reads3 (s : State) (a b c : BitVec 6) (x y z : W64) (u : State) : Prop :=
  s.popsOk [a, b, c] = .ok () ∧ ∃ v w, s.src a = .ok (x, v) ∧ v.src b = .ok (y, w) ∧ w.src c = .ok (z, u)

/-- One vector source operand is there (R26, R195). -/
def State.Lanes1 (s : State) (a : BitVec 6) (x : List W32) (u : State) : Prop := s.popsOk [a] = .ok () ∧ s.vsrc a = .ok (x, u)

/-- Two vector source operands are there (R26, R195). -/
def State.Lanes2 (s : State) (a b : BitVec 6) (x y : List W32) (u : State) : Prop :=
  s.popsOk [a, b] = .ok () ∧ ∃ v, s.vsrc a = .ok (x, v) ∧ v.vsrc b = .ok (y, u)

/-- The running strand past a word of a tag in sequential flow (R14, R18): at the word after the one at which it stands. -/
def State.past (s : State) (t : Tag) : State := s.retire (t == .W) (s.st.pc + 1) true

/-- The running strand past a word of a tag that has transferred control to word `n`. -/
def State.jumped (s : State) (t : Tag) (n : Nat) : State := s.retire (t == .W) n false

/-- What happens to the word at which the running strand stands where it raises a fault (R36, R37). -/
def State.faulted (s : State) (c : Code) (addr : W64) (aux : Nat) : State := s.takeFault s.st.pc s.st.pc ⟨c, addr, aux, [], false, none⟩

/-! ### Memory, byte by byte -/

/-- A byte of some memory of the package: device and far memory at home, by the number it has there (log 43), host memory, a peer's memory,
a scratchpad, graph memory, the private memory of the firmware, the boot staging window, the firmware log ring, or a line that a cache
holds. -/
inductive Loc
  | home (a : Nat)
  | host (a : Nat)
  | peer (n a : Nat)
  | csp (site cluster a : Nat)
  | dsp (site a : Nat)
  | graph (d a : Nat)
  | firmware (a : Nat)
  | staging (a : Nat)
  | fwlog (a : Nat)
  | l1 (c : CoreId) (id k : Nat)
  | l2 (site piece k : Nat)
deriving DecidableEq, Repr

/-- The byte at a place of some memory. -/
def State.byte (s : State) : Loc → Byte
  | .home a => cget s.mem a
  | .host a => cget s.hostMem a
  | .peer n a => cget (tget [] s.peerMem n) a
  | .csp st cl a => cget (s.cluster st cl).mem a
  | .dsp st a => cget (s.die st).dsp a
  | .graph d a => cget (s.drv d).gmem a
  | .firmware a => cget s.mgmt.fwmem a
  | .staging a => cget s.mgmt.staging a
  | .fwlog a => cget s.mgmt.fwlog a
  | .l1 c id k => match tget? (s.core c).l1 id with
    | some l => l.bytes.getD k 0
    | none => 0
  | .l2 st p k => match tget? (s.die st).l2 p with
    | some v => v.bytes.getD k 0
    | none => 0

/-- Every byte of memory reads as before. -/
def SameMemory (s t : State) : Prop := ∀ p : Loc, t.byte p = s.byte p

/-- The canonical form of every memory that is held as cells: device and far memory, host memory, the peers' memories, the scratchpads, the
graph memories, and the firmware's private memory, staging window and log ring. -/
def State.memWf (s : State) : Prop :=
  Memory.wf s.mem = true ∧ Memory.wf s.hostMem = true ∧ (∀ n, Memory.wf (tget [] s.peerMem n) = true) ∧
  (∀ st cl, Memory.wf (s.cluster st cl).mem = true) ∧ (∀ st, Memory.wf (s.die st).dsp = true) ∧ (∀ d, Memory.wf (s.drv d).gmem = true) ∧
  Memory.wf s.mgmt.fwmem = true ∧ Memory.wf s.mgmt.staging = true ∧ Memory.wf s.mgmt.fwlog = true

/-! ### What a word leaves unchanged -/

/-- Outside the running core nothing differs: memory, dies, drovers, the management function and every other core. -/
def SameElsewhere (s t : State) : Prop :=
  t.mem = s.mem ∧ t.hostMem = s.hostMem ∧ t.peerMem = s.peerMem ∧ t.peerNext = s.peerNext ∧ t.dies = s.dies ∧ t.drovers = s.drovers ∧ t.mgmt = s.mgmt ∧
  t.colls = s.colls ∧ t.lineBad = s.lineBad ∧ t.lineKey = s.lineKey ∧ t.minor = s.minor ∧ t.major = s.major ∧ t.latent = s.latent ∧
  t.treeBad = s.treeBad ∧ t.migrate = s.migrate ∧ t.cur = s.cur ∧ t.strand = s.strand ∧ (∀ c, coreKey c ≠ coreKey s.cur → t.core c = s.core c)

/-- The special, exception and configuration registers of the running core and of its team are unchanged (R190, R192, R246), and so
are its L1, its planes, its copies, its brands, masks, tiles and accumulators. -/
def SameSpecial (s t : State) : Prop :=
  let k := s.core s.cur
  let j := t.core s.cur
  j.ecause = k.ecause ∧ j.epc = k.epc ∧ j.eaddr = k.eaddr ∧ j.evec = k.evec ∧ j.pendsel = k.pendsel ∧ j.waitmax = k.waitmax ∧
  j.asideL = k.asideL ∧ j.asideS = k.asideS ∧ j.asideM = k.asideM ∧ j.asideO = k.asideO ∧ j.l1 = k.l1 ∧ j.active = k.active ∧ j.shadow = k.shadow ∧ j.halted = k.halted ∧
  j.team.slip = k.team.slip ∧ j.team.fmtctl = k.team.fmtctl ∧ j.team.locsz = k.team.locsz ∧ j.team.waitth = k.team.waitth ∧
  j.team.serr = k.team.serr ∧ j.team.serra = k.team.serra ∧ j.team.brands = k.team.brands ∧ j.team.masks = k.team.masks ∧
  j.team.amask = k.team.amask ∧ j.team.tiles = k.team.tiles ∧ j.team.ix0 = k.team.ix0 ∧ j.team.ix1 = k.team.ix1 ∧
  j.team.ix2 = k.team.ix2 ∧ j.team.bank = k.team.bank ∧ j.team.kind = k.team.kind ∧ j.team.board = k.team.board ∧ j.team.mstat = k.team.mstat

/-- Every numbered register of the running core except register `r` of the running strand, which may differ where `w` holds. -/
def SameRegs (s t : State) (w : Bool) (r : Nat) : Prop :=
  (∀ σ k, (σ ≠ s.strand ∨ w = false ∨ k ≠ r) → tget 0 ((t.tm.str σ).regs) k = tget 0 ((s.tm.str σ).regs) k) ∧
  (∀ k, (s.vecX = false ∨ w = false ∨ k ≠ r) → tget [] t.tm.vregs k = tget [] s.tm.vregs k)

/-- Every predicate of the running core except predicate `p` of the running strand, which may differ where `w` holds. -/
def SamePreds (s t : State) (w : Bool) (p : Nat) : Prop :=
  ∀ σ k, (σ ≠ s.strand ∨ w = false ∨ k ≠ p) → (t.tm.str σ).preds.getLsbD k = (s.tm.str σ).preds.getLsbD k

end Machine

end Sys2Proof
end

