-- ==== Sys2Proof/Certificates/Slice0/Obligations.lean ====
section
/-! DEFINITION. The statements about the machine that are put to the provers. Where a statement speaks of a word, `u` is the state after
the word's operands have been read, and `past` and `jumped` say where the strand goes on. -/

open Sys2Proof Sys2Proof.Machine

/-! ### The step, decoding, reset and memory -/

/-- A step runs the decoded instruction: where a strand may issue, the word that it fetches from its text is decoded and executed there;
a word without an instruction, a loop's end and the end of the window have their own moves, a listed move executes its instruction unless the
package is held in reset (R436, R452), and on an empty agenda a request moves whose wait is over, else the rotation, which is the model's choice
(log 1). -/
def Obligations.StepRunsTheDecodedInstruction : Prop :=
  ∀ (s u v : State) (m : Sched) (rest : List Sched) (c : CoreId) (σ : Strand) (n k a : Nat) (w : W32) (i : Instr)
    (x : EvArg) (m' : Sched) (waits : List (Nat × Sched)) (req : LaunchReq),
    (s.agenda = m :: rest → u = { s.tick with agenda := rest } → v = { u with cur := c, strand := σ } →
      (m = .issue c σ →
        (u.canIssue c σ = true → u.fetch c σ = .word n w → decode (coreCls c) w = some i → step s = exec i (v.atWord n)) ∧
        (u.canIssue c σ = true → u.fetch c σ = .word n w → decode (coreCls c) w = none → step s = .next ((v.atWord n).badWord w)) ∧
        (u.canIssue c σ = true → u.fetch c σ = .loopEnd →
          step s = exec .loopEnd { u with ev := { EvArg.zero with core := c, strand := some σ } }) ∧
        (u.canIssue c σ = true → u.fetch c σ = .past → step s = .next v.pastEnd) ∧
        (u.canIssue c σ = false → step s = .next u)) ∧
      (m = .step i x → (u.heldBack i x = false → step s = exec i { u with ev := x }) ∧ (u.heldBack i x = true → step s = .next u)) ∧
      (m = .signal k req a → step s = .next (u.signalAgain k req a)) ∧
      (m = .trigger k a → step s = .next (u.triggerAgain k a)) ∧
      (m = .copyWord c n → step s = .next (u.copyWord c n)) ∧
      (m = .unmap k a n → step s = .next (u.unmapStep k a n)) ∧
      (m = .late k a m' → step s = match moveStep m' { u with lapse := some (k, a) } with
        | .next t => .next { t with lapse := none }
        | o => o)) ∧
    (s.agenda = [] →
      (s.waits = (n, m) :: waits → n ≤ s.turn → step s = step { s with agenda := [m], waits := waits }) ∧
      (s.waits = [] ∨ (s.waits = (n, m) :: waits ∧ s.turn < n) →
        step s = step { s with agenda := [rotation s.turn], turn := s.turn + 1 }))

/-- Words written out from the encodings of the spec decode to the instructions that they stand for, and words that R53 refuses decode to
none. -/
def Obligations.WrittenWordsDecode : Prop :=
  decode .vec 0x05C10003 = some (.li .C 1 3) ∧ decode .mem 0x804083F8 = some (.add .X false 1 1 63 0) ∧
  decode .cube 0xC0000000 = some (.nop .W) ∧ decode .drover 0xCF800000 = some .exit ∧
  decode .sort 0x50DF8602 = some (.ldd .A false 63 3 0 2) ∧ decode .mem 0x14020A31 = some (.cpy .C 4 5 6 1) ∧
  decode .vec 0xD640000B = some (.fence .W 1 3) ∧ decode .vec 0xD8830000 = some (.fbar 3) ∧
  decode .cube 0xA0830001 = some (.ccfg 3 1) ∧ decode .mem 0xA0000A30 = some (.mrowz 5 6) ∧
  decode .drover 0xA0810A30 = some (.swait false 2 5 6) ∧
  decode .vec 0x01800001 = none ∧ decode .drover 0xF0000000 = none

/-- Encoding loses nothing: the word of a well-formed instruction decodes to it, with every operand at every value, and each of the 208
instructions that are words, which stand first in `Instr`, has a word. -/
def Obligations.DecodeOfEncodeIsTheInstruction : Prop :=
  ∀ i : Instr, WellFormed i = true →
    (∀ w, encode i = some w → decode (classOf i) w = some i) ∧ (i.ctorIdx < 208 → ∃ w, encode i = some w)

/-- Decoding admits no second spelling: a word that a core's class has an instruction for is the word of that instruction, which is
well-formed. -/
def Obligations.EncodeOfDecodeIsTheWord : Prop :=
  ∀ (k : Cls) (w : W32) (i : Instr), decode k w = some i → WellFormed i = true ∧ encode i = some w

/-- No run of any length from any state stops with a fault or a refusal: what the hardware reports is taken within the machine. -/
def Obligations.NoRunStops : Prop := ∀ (k : Nat) (s : State), SafeRun k s

/-- What package reset leaves (R19, R182, R191, R274, R342, R392, R409, R425, R442, R469), and the canonical form of every memory. -/
def Obligations.ResetLeavesWhatTheSpecSays : Prop :=
  let s := State.reset
  s.ns = 0 ∧ s.frac = 0 ∧ s.mgmt.phase = 0 ∧ s.mgmt.therm = false ∧ s.mgmt.cap = false ∧ s.memWf ∧
  (∀ c, (s.core c).run = false ∧ (s.core c).l1 = [] ∧ (s.core c).active.st = .empty ∧ (s.core c).waitmax = 24000 ∧
    (s.core c).pendsel = 0xFF ∧ (s.core c).ecause = 0 ∧ (s.core c).team.slip = 8 ∧ (s.core c).team.serr = 0 ∧ s.text c = []) ∧
  (∀ site cl a, s.byte (.csp site cl a) = 0 ∧ tget false (s.cluster site cl).full a = false) ∧
  (∀ site, (s.die site).stkcfg = 1032192#64 <<< 13) ∧
  (∀ d k, (tget FoldDesc.reset (s.drv d).folds k).en = false ∧ (tget Qcb.reset (s.drv d).qcbs k).st = 0 ∧
    (tget HwSlot.reset (s.drv d).slots k).st = .free)

/-- The operations on memory keep its canonical form, and a byte reads as it was written last: a write changes its own bytes, a clearing
its own range, and nothing else. -/
def Obligations.MemoryReadsAsItWasWritten : Prop :=
  ∀ (m : List Host.Cell) (a k n : Nat) (b : Byte) (d : List Byte), Memory.wf m = true →
    Memory.wf (cset m a b) = true ∧ Memory.wf (cwrite m a d) = true ∧ Memory.wf (cclear m a n) = true ∧
    cget (cset m a b) k = (if k = a then b else cget m k) ∧
    cget (cwrite m a d) k = (if a ≤ k ∧ k < a + d.length then d.getD (k - a) 0 else cget m k) ∧
    cget (cclear m a n) k = (if a ≤ k ∧ k < a + n then 0 else cget m k) ∧
    cread (cwrite m a d) a d.length = d ∧ (∀ m', Memory.wf m' = true → (∀ j, cget m j = cget m' j) → m = m')

/-- Every step keeps every memory in its canonical form. -/
def Obligations.EveryStepKeepsTheMemoriesCanonical : Prop :=
  ∀ s t : State, s.memWf → step s = .next t → t.memWf

/-! ### What a strand passes over, faults and exceptions, and what words leave unchanged -/

/-- A strand passes over a word that is not tagged for it and waits before a W-tagged word while slip holds it (R12, R13, R19), whatever the
word; only `FBAR` may raise a store failure before it waits (R140). -/
def Obligations.WordsOfOtherStrandsArePassedOver : Prop :=
  ∀ (s : State) (i : Instr) (w : W32), WellFormed i = true → encode i = some w →
    (tagRuns (wordTag w) s.strand = false → exec i s = .next (s.setSt { s.st with pc := s.st.pc + 1, org := some s.st.pc })) ∧
    ((∀ a, i ≠ .fbar a) → wordTag w = .W → slipFree s.tm s.strand = false → exec i s = .next (s.noteHold .stall))

/-- The scalar integer words raise `ILLEGAL` for a tag that the class does not allow, a selector that may not stand in its field and an FN
without a meaning (R27, R48, R53, R54, R100, R102 to R105), with no other effect. -/
def Obligations.IllegalFormsRaiseIllegal : Prop :=
  ∀ (s : State) (t : Tag) (d : Bool) (r a b : BitVec 6) (f : BitVec 3) (i : BitVec 9) (n : BitVec 16),
    tagRuns t s.strand = true → (t = .W → slipFree s.tm s.strand = true) →
    (∀ e ∈ ([(.add t d r a b f, f < 3), (.sub t d r a b f, f < 3), (.mul t d r a b f, f < 4), (.div t d r a b f, f < 4),
        (.andK t d r a b, true), (.orK t d r a b, true), (.xorK t d r a b, true), (.shl t d r a b, true), (.shr t d r a b, true),
        (.sra t d r a b, true), (.minK t d r a b f, f < 2), (.maxK t d r a b f, f < 2), (.sel t d r a b f, true),
        (.bfx t d r a b f, f < 2), (.bfi t d r a b, decide (r.toNat < 48))] : List (Instr × Bool)),
      (tagInt s.cls t && s.destOk r && s.srcOk a && s.srcOk b && e.2) = false → exec e.1 s = .next (s.faulted .ILLEGAL 0 0)) ∧
    (∀ e ∈ ([.addi t d r a i, .andi t d r a i, .ori t d r a i, .xori t d r a i, .shli t d r a i, .shri t d r a i, .srai t d r a i] :
        List Instr), (tagInt s.cls t && s.destOk r && s.srcOk a) = false → exec e s = .next (s.faulted .ILLEGAL 0 0)) ∧
    ((tagInt s.cls t && s.destOk r) = false → exec (.li t r n) s = .next (s.faulted .ILLEGAL 0 0)) ∧
    ((tagInt s.cls t && decide (r.toNat < 48) && s.destOk r) = false → exec (.lsi t r n) s = .next (s.faulted .ILLEGAL 0 0)) ∧
    (tagInt s.cls t = false ↔ (t = .W ∨ t = .X) ∧ s.cls ≠ .mem ∧ s.cls ≠ .drover) ∧
    (s.cls = .cube → s.strand = .X → r.toNat < 48 → s.srcOk r = false ∧ s.destOk r = false) ∧
    (48 ≤ r.toNat → r.toNat < 62 → s.destOk r = false)

/-- A fault stops the team with its record, the first one raised deciding (R36, R37); on a DROVER core it enters the handler at EVEC with
EPC, ECAUSE and EADDR written, empty queues and EXA set, once its loads and its stores with data have been performed, until which the core
issues nothing, or stops the core where EXA was set (R192, R498), and the return restores the three PCs, the loops and the link stacks and clears EXA (R177). -/
def Obligations.FaultsStopTheTeamOrEnterTheHandler : Prop :=
  ∀ (s : State) (pcF pcE : Nat) (f : Flt), f.bad = [] →
    let c := s.cur
    let k := s.core c
    let t := s.takeFault pcF pcE f
    let j := t.core c
    let stopped := ({ s with lapse := none } : State).setTm (let q := faultTeam s.strand f s.tm
      q.setStr s.strand { q.str s.strand with hold := .none, feDone := none })
    (coreCls c ≠ .drover →
      (k.leave = none → ∃ r, j.leave = some (.fault r) ∧ r.code = f.code ∧ r.addr = f.addr ∧ r.aux = f.aux % 2 ^ 40 ∧
        r.strand = strandNum s.strand ∧ r.pc = pcF % 16384 ∧ r.site = c.site ∧ r.core = c.core ∧ (∀ σ, t.canIssue c σ = true → σ = .X)) ∧
      (∀ r, k.leave = some (.fault r) → j.leave = some (.fault r)) ∧ SameMemory s t) ∧
    (coreCls c = .drover → s.exa c = false → stopped.canEnter c = false →
      j.leave = some (.entry s.strand pcE f.code f.addr) ∧ (∀ σ, t.canIssue c σ = false) ∧ j.ecause = k.ecause) ∧
    (coreCls c = .drover → s.exa c = false → stopped.canEnter c = true →
      t.exa c = true ∧ j.ecause = BitVec.ofNat 32 (2 ^ 31 + strandNum s.strand * 2 ^ 16 + f.code.num) ∧ j.eaddr = f.addr ∧
      j.team.ca = [] ∧ j.team.cx = [] ∧ j.team.xc = [] ∧ j.team.ac = [] ∧ j.team.dq = [] ∧ j.team.sdq = [] ∧ j.team.bq = [] ∧
      j.team.sq = [] ∧ (∀ σ, (j.team.str σ).loops = [] ∧ (j.team.str σ).link = []) ∧
      (k.team.lq = [] → k.team.sq = [] → k.team.dq = [] →
        let pcOf := fun σ => if σ = s.strand then pcE else (k.team.str σ).pc
        (∀ σ, (j.team.str σ).pc = k.evec.toNat ∧ (j.team.str σ).regs = (k.team.str σ).regs ∧
          (j.team.str σ).preds = (k.team.str σ).preds ∧ (j.team.str σ).lat = (k.team.str σ).lat ∧
          (j.team.str σ).span = (k.team.str σ).span) ∧
        fieldW j.epc 15 0 = pcOf .C % 65536 ∧ fieldW j.epc 31 16 = pcOf .A % 65536 ∧ fieldW j.epc 47 32 = pcOf .X % 65536 ∧
        j.evec = k.evec ∧ j.pendsel = k.pendsel ∧ SameMemory s t ∧
        (∀ σ, ((t.leaveException c).core c).team.str σ = { k.team.str σ with pc := pcOf σ % 65536, hold := .none, feDone := none }) ∧
        (t.leaveException c).exa c = false)) ∧
    (coreCls c = .drover → s.exa c = true → j.halted = true)

/-- What the result of a scalar or vector word leaves unchanged (R23, R27 to R29, R99, R196): every register but its destination, every
predicate but the one that it writes, every special, exception and configuration register, and every byte of memory. A `dq` entry that it
pops may release its line (R183), which leaves the registers and predicates alone. -/
def Obligations.ResultsLeaveTheRestUnchanged : Prop :=
  ∀ (s u : State) (t : Tag) (d : Bool) (r a b c : BitVec 6) (p : BitVec 3) (v : W64) (l : List W32) (x y z : W64) (lx ly : List W32)
    (q : Bool),
    (u = s ∨ s.Reads1 a x u ∨ s.Reads2 a b x y u ∨ s.Reads3 a b c x y z u ∨ s.Lanes1 a lx u ∨ s.Lanes2 a b lx ly u) →
    let unlocked := ∀ e ∈ s.tm.dq, e.locks = []
    let writes := !d && decide (r.toNat < 48)
    let scalar := (u.put d r v).past t
    let vector := (u.vput d r l).past t
    let predicate := ((if d then u else u.setPred p.toNat q).pushLat v).past t
    SameRegs s scalar writes r.toNat ∧ (s.vecX = true → SameRegs s vector writes r.toNat) ∧ SameRegs s predicate false 0 ∧
    SamePreds s scalar false 0 ∧ SamePreds s vector false 0 ∧ SamePreds s predicate (!d && decide (p ≠ 7)) p.toNat ∧
    (unlocked → ∀ k ∈ [scalar, vector, predicate], SameMemory s k ∧ SameElsewhere s k ∧ SameSpecial s k)

/-- The checks of an access are made in the order of R135 to R137: the base's space, the tag of the effective address, its bits that must be
zero with the peer that it names (R458), the privilege of MMIO, the alignment, and the limit of the space. -/
def Obligations.AccessChecksAreMadeInOrder : Prop :=
  ∀ (s : State) (w : Who) (base ea : W64) (n al pol : Nat),
    let k := Config.kindAt w.c.site
    let tag := (base >>> 60).toNat
    let r := s.checkEa w base ea n al pol
    let space := tag = 0 ∨ (tag = 1 ∧ pol = 0 ∧ (k = .vec ∨ k = .spr ∨ k = .srt ∨ k = .cub)) ∨ tag = 2 ∨
      (tag = 3 ∧ (pol = 0 ∨ pol = 3)) ∨ (tag = 4 ∧ pol = 0) ∨
      (tag = 5 ∧ pol = 0 ∧ (k = .cub ∨ k = .spr ∨ k = .srt)) ∨ (tag = 6 ∧ pol = 0)
    let same := ea >>> 60 = base >>> 60
    let zero := (tag = 0 → ea.extractLsb' 52 8 = 0) ∧ (tag = 2 → ea.extractLsb' 48 12 = 0) ∧ (tag = 4 → ea.extractLsb' 57 3 = 0) ∧
      (tag = 6 → ea.extractLsb' 32 28 = 0) ∧ (tag = 3 → s.peerOk w (ea.extractLsb' 48 12).toNat = true)
    let priv := tag = 6 → coreCls w.c = .drover
    (¬space → r = flt .SPACE ea 0) ∧ (space → ¬same → r = flt .BOUNDS ea 0) ∧ (space → same → ¬zero → r = flt .SPACE ea 0) ∧
    (space → same → zero → ¬priv → r = flt .PRIV ea 0) ∧
    (space → same → zero → priv → ea.toNat % al ≠ 0 → r = flt .ALIGN ea 0) ∧
    (space → same → zero → priv → ea.toNat % al = 0 → s.rangeOk w ea n = false → r = flt .BOUNDS ea 0) ∧
    (space → same → zero → priv → ea.toNat % al = 0 → s.rangeOk w ea n = true → r = .ok (spotOf w ea)) ∧
    (tag = 2 → same → zero → (s.rangeOk w ea n = true ↔ ea.toNat % 2 ^ 60 + n ≤ w.size))

/-- A store performed changes the bytes that it stores to and no other byte of any memory: in a scratchpad, host memory, a peer's memory, at
the home of a line, whose other bytes are as they showed before (R324), in the copies of a line in the core's L1, in a new copy there, and
in a piece that the die's own L2 holds, other dies' copies of which go (R295). A load of host or peer memory gives the stored bytes, which
rests on logs 5 and 6: in the model nobody else writes these memories (DESIGN CHOICE). That a store to the far tier is performed beyond the L1
under `.l1` too is read from R350 (log 74, DEDUCED). -/
def Obligations.StoresChangeExactlyTheirBytes : Prop :=
  ∀ (s t : State) (w : Who) (data : List Byte) (ea : W64) (site cl off n pa : Nat), s.memWf →
    let byte := fun (a k : Nat) (old : Byte) => if a ≤ k ∧ k < a + data.length then data.getD (k - a) 0 else old
    (s.doStore w (.csp site cl off) data ea = .ok t →
      (∀ k, t.byte (.csp site cl k) = byte off k (s.byte (.csp site cl k))) ∧
      (∀ p : Loc, (∀ k, p ≠ .csp site cl k) → t.byte p = s.byte p)) ∧
    (s.doStore w (.dsp site off) data ea = .ok t →
      (∀ k, t.byte (.dsp site k) = byte off k (s.byte (.dsp site k))) ∧ (∀ p : Loc, (∀ k, p ≠ .dsp site k) → t.byte p = s.byte p)) ∧
    (s.doStore w (.peer n off) data ea = .ok t →
      (∀ k, t.byte (.peer n k) = byte off k (s.byte (.peer n k))) ∧ (∀ p : Loc, (∀ k, p ≠ .peer n k) → t.byte p = s.byte p) ∧
      t.doLoad w (.peer n off) data.length ea = .ok (data, t)) ∧
    (s.doStore w (.host off) data ea = .ok t →
      (∀ k, t.byte (.host k) = byte off k (s.byte (.host k))) ∧ (∀ p : Loc, (∀ k, p ≠ .host k) → t.byte p = s.byte p) ∧
      t.doLoad w (.host off) data.length ea = .ok (data, t)) ∧
    (let at_ := s.homeLine w (pa / 64) * 64
     let old := if s.zeroLine w (pa / 64) then List.replicate 64 0 else s.shown w (pa / 64)
     old.length = 64 → pa % 64 + data.length ≤ 64 →
      (∀ k, (s.homeWrite w pa data).byte (.home k) =
        byte (at_ + pa % 64) k (if at_ ≤ k ∧ k < at_ + 64 then old.getD (k - at_) 0 else s.byte (.home k))) ∧
      (∀ p : Loc, (∀ k, p ≠ .home k) → (s.homeWrite w pa data).byte p = s.byte p)) ∧
    (data ≠ [] → pa % 64 + data.length ≤ 64 →
      (isKick pa = false → (s.forward pa < farBase → s.doStore w (.mem pa .l1) data ea = s.l1Write w (s.forward pa) data ea) ∧
        (farBase ≤ s.forward pa → s.doStore w (.mem pa .l1) data ea = s.writePast w .l2 (s.forward pa) data ea) ∧
        s.doStore w (.mem pa .l2) data ea = s.writePast w .l2 (s.forward pa) data ea) ∧
      (s.l1Write w pa data ea = .ok t →
        let c := w.c
        let old := (s.core c).l1
        (∀ e, l1Find (s.core c) (pa / 64) = some e →
          (∀ id l k, tget? old id = some l → l.line = pa / 64 → l.bytes.length = 64 →
            t.byte (.l1 c id k) = byte (pa % 64) k (s.byte (.l1 c id k))) ∧
          (∀ p : Loc, (∀ c' id l k, coreKey c' = coreKey c → tget? old id = some l → l.line = pa / 64 → p ≠ .l1 c' id k) →
            t.byte p = s.byte p)) ∧
        (copiesOf old (pa / 64) = [] → (l1Set (s.core c) (pa / 64)).length < 8 →
          let id := (s.core c).l1Next
          (∀ k, t.byte (.l1 c id k) = byte (pa % 64) k 0) ∧
          (∀ p : Loc, (∀ c' k, coreKey c' = coreKey c → p ≠ .l1 c' id k) → t.byte p = s.byte p))) ∧
      (s.cohWrite w .l2 pa data ea = .ok t → hasL2 w.c.site = true →
        let at_ := s.forward pa
        ∀ v g, s.piece w.c.site (at_ / 64) = some v → v.bytes.length = 64 → tget? (s.die w.c.site).tags (at_ / 64 / 32) = some g →
          (v.dirty = true ∨ s.reachHome w (at_ / 64 * 64) ea = .ok s ∧
            s.reachCopies w (at_ / 64) ((s.holders (at_ / 64)).filter (· != w.c.site)) ea = .ok ()) →
          (∀ k, t.byte (.l2 w.c.site (at_ / 64) k) = byte (at_ % 64) k (s.byte (.l2 w.c.site (at_ / 64) k))) ∧
          (∀ p : Loc, (∀ st k, p ≠ .l2 st (at_ / 64) k) → t.byte p = s.byte p)))

/-! ### Scalar words: results (R99 to R117) -/

/-- `ADD`, `ADDI`, `SUB`, `MUL` and `DIV` complete and give the result of R102 to R104 through the frame of R99; an FN without a meaning
raises `ILLEGAL`. -/
def Obligations.ArithmeticWordsGiveTheirResults : Prop :=
  ∀ (s u : State) (t : Tag) (d : Bool) (r a b : BitVec 6) (f : BitVec 3) (i : BitVec 9) (x y : W64),
    s.Issues t false → tagInt s.cls t = true → s.destOk r = true → s.srcOk a = true → s.room d r = .ok () →
    (2 < f → exec (.add t d r a b f) s = .next (s.faulted .ILLEGAL 0 0) ∧ exec (.sub t d r a b f) s = .next (s.faulted .ILLEGAL 0 0)) ∧
    (3 < f → exec (.mul t d r a b f) s = .next (s.faulted .ILLEGAL 0 0) ∧ exec (.div t d r a b f) s = .next (s.faulted .ILLEGAL 0 0)) ∧
    (s.Reads1 a x u → exec (.addi t d r a i) s = .next ((u.put d r (x + i.signExtend 64)).past t)) ∧
    (s.srcOk b = true → s.Reads2 a b x y u →
      (f = 0 → exec (.add t d r a b f) s = .next ((u.put d r (x + y)).past t)) ∧
      (f = 1 → exec (.add t d r a b f) s =
        .next ((u.put d r (BitVec.ofInt 64 (max (-(2 ^ 63)) (min (2 ^ 63 - 1) (x.toInt + y.toInt))))).past t)) ∧
      (f = 2 → exec (.add t d r a b f) s = .next ((u.put d r (BitVec.ofNat 64 (min (2 ^ 64 - 1) (x.toNat + y.toNat)))).past t)) ∧
      (f = 0 → exec (.sub t d r a b f) s = .next ((u.put d r (x - y)).past t)) ∧
      (f = 1 → exec (.sub t d r a b f) s =
        .next ((u.put d r (BitVec.ofInt 64 (max (-(2 ^ 63)) (min (2 ^ 63 - 1) (x.toInt - y.toInt))))).past t)) ∧
      (f = 2 → exec (.sub t d r a b f) s = .next ((u.put d r (if x.toNat < y.toNat then 0 else x - y)).past t)) ∧
      (f = 0 → exec (.mul t d r a b f) s = .next ((u.put d r (x * y)).past t)) ∧
      (f = 1 → exec (.mul t d r a b f) s = .next ((u.put d r (BitVec.ofInt 64 (x.toInt * y.toInt / 2 ^ 64))).past t)) ∧
      (f = 2 → exec (.mul t d r a b f) s = .next ((u.put d r (BitVec.ofNat 64 (x.toNat * y.toNat / 2 ^ 64))).past t)) ∧
      (f = 3 → exec (.mul t d r a b f) s = .next ((u.put d r (BitVec.ofInt 64 (x.toInt * y.toNat / 2 ^ 64))).past t)) ∧
      (f = 0 → exec (.div t d r a b f) s =
        .next ((u.put d r (if y = 0 then 0xFFFFFFFFFFFFFFFF else x.sdiv y)).past t)) ∧
      (f = 1 → exec (.div t d r a b f) s = .next ((u.put d r (if y = 0 then 0xFFFFFFFFFFFFFFFF else x / y)).past t)) ∧
      (f = 2 → exec (.div t d r a b f) s = .next ((u.put d r (if y = 0 then x else x.srem y)).past t)) ∧
      (f = 3 → exec (.div t d r a b f) s = .next ((u.put d r (if y = 0 then x else x % y)).past t)))

/-- The logical words, the shifts, `MIN`, `MAX` and `SEL` complete and give the result of R105 and R107; an FN without a meaning raises
`ILLEGAL`. -/
def Obligations.LogicAndShiftWordsGiveTheirResults : Prop :=
  ∀ (s u : State) (t : Tag) (d : Bool) (r a b : BitVec 6) (f : BitVec 3) (i : BitVec 9) (x y : W64),
    s.Issues t false → tagInt s.cls t = true → s.destOk r = true → s.srcOk a = true → s.room d r = .ok () →
    s.pred 7 = true ∧
    (1 < f → exec (.minK t d r a b f) s = .next (s.faulted .ILLEGAL 0 0) ∧ exec (.maxK t d r a b f) s = .next (s.faulted .ILLEGAL 0 0)) ∧
    (∀ (k : Cls) (w : W32), (w.extractLsb' 22 8).toNat ∈ [0x06, 0x08, 0x0A, 0x0C, 0x0E, 0x10] → w.extractLsb' 0 3 ≠ 0 → decode k w = none) ∧
    (s.Reads1 a x u →
      exec (.andi t d r a i) s = .next ((u.put d r (x &&& i.signExtend 64)).past t) ∧
      exec (.ori t d r a i) s = .next ((u.put d r (x ||| i.signExtend 64)).past t) ∧
      exec (.xori t d r a i) s = .next ((u.put d r (x ^^^ i.signExtend 64)).past t) ∧
      exec (.shli t d r a i) s = .next ((u.put d r (x <<< (i.toNat % 64))).past t) ∧
      exec (.shri t d r a i) s = .next ((u.put d r (x >>> (i.toNat % 64))).past t) ∧
      exec (.srai t d r a i) s = .next ((u.put d r (x.sshiftRight (i.toNat % 64))).past t)) ∧
    (s.srcOk b = true → s.Reads2 a b x y u →
      exec (.andK t d r a b) s = .next ((u.put d r (x &&& y)).past t) ∧
      exec (.orK t d r a b) s = .next ((u.put d r (x ||| y)).past t) ∧
      exec (.xorK t d r a b) s = .next ((u.put d r (x ^^^ y)).past t) ∧
      exec (.shl t d r a b) s = .next ((u.put d r (x <<< (y.toNat % 64))).past t) ∧
      exec (.shr t d r a b) s = .next ((u.put d r (x >>> (y.toNat % 64))).past t) ∧
      exec (.sra t d r a b) s = .next ((u.put d r (x.sshiftRight (y.toNat % 64))).past t) ∧
      (f = 0 → exec (.minK t d r a b f) s = .next ((u.put d r (if x.toInt ≤ y.toInt then x else y)).past t)) ∧
      (f = 1 → exec (.minK t d r a b f) s = .next ((u.put d r (if x.toNat ≤ y.toNat then x else y)).past t)) ∧
      (f = 0 → exec (.maxK t d r a b f) s = .next ((u.put d r (if x.toInt ≤ y.toInt then y else x)).past t)) ∧
      (f = 1 → exec (.maxK t d r a b f) s = .next ((u.put d r (if x.toNat ≤ y.toNat then y else x)).past t)) ∧
      exec (.sel t d r a b f) s = .next ((u.put d r (if s.pred f.toNat = true then x else y)).past t))

/-- `LI`, `LSI`, `BFX`, `BFI` and `BITC` complete and give the result of R108 to R110; an FN without a meaning and a
register that `LSI` and `BFI` cannot have raise `ILLEGAL`. -/
def Obligations.ConstantAndFieldWordsGiveTheirResults : Prop :=
  ∀ (s u : State) (t : Tag) (d : Bool) (r a b : BitVec 6) (f : BitVec 3) (n : BitVec 16) (x y : W64),
    s.Issues t false → tagInt s.cls t = true →
    (48 ≤ r.toNat → exec (.lsi t r n) s = .next (s.faulted .ILLEGAL 0 0) ∧ exec (.bfi t d r a b) s = .next (s.faulted .ILLEGAL 0 0)) ∧
    (1 < f → exec (.bfx t d r a b f) s = .next (s.faulted .ILLEGAL 0 0)) ∧ (4 < f → exec (.bitc t d r a f) s = .next (s.faulted .ILLEGAL 0 0)) ∧
    (∀ (k : Cls) (w : W32), w.extractLsb' 22 8 = 0x1A → w.extractLsb' 0 3 ≠ 0 → decode k w = none) ∧
    (s.destOk r = true → s.room false r = .ok () → exec (.li t r n) s = .next ((s.put false r (n.signExtend 64)).past t)) ∧
    (s.destOk r = true → r.toNat < 48 →
      exec (.lsi t r n) s = .next ((s.put false r ((s.reg r.toNat <<< 16) ||| n.setWidth 64)).past t)) ∧
    (s.destOk r = true → s.srcOk a = true → s.room d r = .ok () → s.Reads1 a x u →
      (f = 0 → exec (.bitc t d r a f) s =
        .next ((u.put d r (BitVec.ofNat 64 ((List.range 64).countP fun k => x.getLsbD k))).past t)) ∧
      (f = 1 → ∃ n : Nat, exec (.bitc t d r a f) s = .next ((u.put d r (BitVec.ofNat 64 n)).past t) ∧
        n ≤ 64 ∧ (∀ k, 64 ≤ k + n → x.getLsbD k = false) ∧ (n < 64 → x.getLsbD (63 - n) = true)) ∧
      (f = 2 → ∃ n : Nat, exec (.bitc t d r a f) s = .next ((u.put d r (BitVec.ofNat 64 n)).past t) ∧
        n ≤ 64 ∧ (∀ k, k < n → x.getLsbD k = false) ∧ (n < 64 → x.getLsbD n = true)) ∧
      (f = 4 → ∃ v : W64, exec (.bitc t d r a f) s = .next ((u.put d r v).past t) ∧
        ∀ k, k < 8 → v.extractLsb' (8 * k) 8 = x.extractLsb' (8 * (7 - k)) 8) ∧
      (f = 3 → exec (.bitc t d r a f) s = .next ((u.put d r x.reverse).past t))) ∧
    (s.destOk r = true → s.srcOk a = true → s.srcOk b = true → s.Reads2 a b x y u →
      let pos := (y.extractLsb' 0 6).toNat
      let len := if (y.extractLsb' 8 6).toNat = 0 then 64 else (y.extractLsb' 8 6).toNat
      let mask : W64 := BitVec.ofNat 64 (2 ^ len - 1)
      (s.room d r = .ok () → f = 0 → exec (.bfx t d r a b f) s = .next ((u.put d r ((x >>> pos) &&& mask)).past t)) ∧
      (s.room d r = .ok () → f = 1 → exec (.bfx t d r a b f) s = .next ((u.put d r
        (if ((x >>> pos) &&& mask).getLsbD (len - 1) then ((x >>> pos) &&& mask) ||| ~~~mask else (x >>> pos) &&& mask)).past t)) ∧
      (r.toNat < 48 → exec (.bfi t d r a b) s = .next ((u.put d r
        ((s.reg r.toNat &&& ~~~(mask <<< pos)) ||| ((x <<< pos) &&& (mask <<< pos)))).past t)))

/-- `CMP`, `CMPI`, `PLOG`, `PMOV` and `LCNT` complete: the predicate and the latches as R106, R111, R112 and R125 say; an
FN without a meaning and an unused field that is not zero raise `ILLEGAL` (R125 of `LCNT`). -/
def Obligations.PredicateWordsGiveTheirResults : Prop :=
  ∀ (s u : State) (t : Tag) (d : Bool) (p q : BitVec 3) (r a b : BitVec 6) (f k : BitVec 3) (i : BitVec 9) (x y : W64),
    s.Issues t false → tagInt s.cls t = true →
    (5 < f ∨ (f = 5 ∧ q ≠ 0) → exec (.plog t d k p q f) s = .next (s.faulted .ILLEGAL 0 0)) ∧
    (3 < f → exec (.lcnt t d r f) s = .next (s.faulted .ILLEGAL 0 0)) ∧
    (1 < f ∨ (f = 0 ∧ a ≠ 0) ∨ (f = 1 ∧ r ≠ 0) → exec (.pmov t d r a f) s = .next (s.faulted .ILLEGAL 0 0)) ∧
    (∀ (c : Cls) (w : W32), (w.extractLsb' 22 8 = 0x14 ∧ w.extractLsb' 18 3 ≠ 0) ∨ (w.extractLsb' 22 8 = 0x1D ∧ w.extractLsb' 3 6 ≠ 0) ∨
      (w.extractLsb' 22 8 = 0x36 ∧ w.extractLsb' 3 12 ≠ 0) ∨
      (w.extractLsb' 22 8 = 0x1C ∧ (w.extractLsb' 18 3 ≠ 0 ∨ w.extractLsb' 12 3 ≠ 0 ∨ w.extractLsb' 6 3 ≠ 0)) → decode c w = none) ∧
    (s.pred 7 = true ∧ (∀ v, s.setPred 7 v = s) ∧ ∀ n, n < 8 → s.predByte.getLsbD n = s.pred n) ∧
    (s.srcOk a = true → s.srcOk b = true → s.Reads2 a b x y u →
      ∃ v : Bool, exec (.cmp t d p a b k) s =
          .next (((if d then u else u.setPred p.toNat v).pushLat (if v then 1 else 0)).past t) ∧
        (v = true ↔ (k = 0 ∧ x = y) ∨ (k = 1 ∧ x ≠ y) ∨ (k = 2 ∧ x.toInt < y.toInt) ∨ (k = 3 ∧ x.toInt ≤ y.toInt) ∨
          (k = 4 ∧ x.toNat < y.toNat) ∨ (k = 5 ∧ x.toNat ≤ y.toNat) ∨ (k = 6 ∧ x &&& y ≠ 0) ∨ (k = 7 ∧ x &&& y = 0))) ∧
    (s.srcOk a = true → s.Reads1 a x u →
      ∃ v : Bool, exec (.cmpi t d k p a i) s =
          .next (((if d then u else u.setPred p.toNat v).pushLat (if v then 1 else 0)).past t) ∧
        (y = i.signExtend 64 → (v = true ↔ (k = 0 ∧ x = y) ∨ (k = 1 ∧ x ≠ y) ∨ (k = 2 ∧ x.toInt < y.toInt) ∨ (k = 3 ∧ x.toInt ≤ y.toInt) ∨
          (k = 4 ∧ x.toNat < y.toNat) ∨ (k = 5 ∧ x.toNat ≤ y.toNat) ∨ (k = 6 ∧ x &&& y ≠ 0) ∨ (k = 7 ∧ x &&& y = 0)))) ∧
    (∀ v : Bool, (f = 0 ∧ v = (s.pred p.toNat && s.pred q.toNat)) ∨ (f = 1 ∧ v = (s.pred p.toNat || s.pred q.toNat)) ∨
        (f = 2 ∧ v = (s.pred p.toNat ^^ s.pred q.toNat)) ∨ (f = 3 ∧ v = (s.pred p.toNat && !s.pred q.toNat)) ∨
        (f = 4 ∧ v = (s.pred p.toNat || !s.pred q.toNat)) ∨ (f = 5 ∧ q = 0 ∧ v = !s.pred p.toNat) →
      exec (.plog t d k p q f) s =
        .next (((if d then s else s.setPred k.toNat v).pushLat (if v then 1 else 0)).past t)) ∧
    (s.destOk r = true → s.room d r = .ok () →
      exec (.pmov t d r 0 0) s = .next ((s.put d r (s.predByte.setWidth 64)).past t)) ∧
    (s.srcOk a = true → s.Reads1 a x u →
      let v := if d then u else u.setSt { u.st with preds := x.setWidth 8 &&& 0x7F }
      exec (.pmov t d 0 a 1) s = .next ((v.pushLat (v.predByte.setWidth 64)).past t)) ∧
    (s.destOk r = true → s.room d r = .ok () → f < 4 →
      exec (.lcnt t d r f) s =
        .next ((s.put d r (match loopAt s.st f.toNat with | some l => BitVec.ofNat 64 l.index | none => 0)).past t))

/-- The scalar FP32 words complete and give the result of R114 to R117; FN 4 to 7, and an `FFMA` with DS 48 or above, raise `ILLEGAL`.
A finite value that is not zero is encoded by rounding its magnitude once to one of the two codes beside it, as the mode says (R71), and by the
overflow rule where that is beyond the greatest finite value (R81); a code stands for the value that its fields give (R69). The magnitudes
are compared as multiples of 2^-k, for any k that makes them whole. -/
def Obligations.ScalarFloatWordsGiveTheirResults : Prop :=
  (∀ (f : FFmt) (s inf nan : Nat) (neg sat : Bool) (m mode k : Nat) (e : Int),
    (f, s, inf, nan) ∈ ([(fFP32, 31, 0x7F800000, 0x7FC00000), (fBF16, 15, 0x7F80, 0x7FC0), (fFP16, 15, 0x7C00, 0x7E00)] :
      List (FFmt × Nat × Nat × Nat)) → mode < 4 → -(k : Int) ≤ e → -(k : Int) ≤ f.emin - f.t →
    let val := fun c : Nat =>
      if c < 2 ^ f.t then c * 2 ^ (f.emin - f.t + k).toNat else (2 ^ f.t + c % 2 ^ f.t) * 2 ^ (f.emin - f.t + (c / 2 ^ f.t - 1 : Nat) + k).toNat
    let v := m * 2 ^ (e + k).toNat
    let signed := fun c : Nat => if neg = true then c + 2 ^ s else c
    ffEncode f mode sat .nan = nan ∧ ffEncode f mode sat (.inf neg) = signed (if sat = true then f.top else inf) ∧
    ffEncode f mode sat (.fin neg 0 e) = signed 0 ∧
    (0 < m → ∃ lo c, val lo ≤ v ∧ v < val (lo + 1) ∧ (v = val lo → c = lo) ∧
      (v ≠ val lo →
        (mode = 0 → (2 * v < val lo + val (lo + 1) → c = lo) ∧ (val lo + val (lo + 1) < 2 * v → c = lo + 1) ∧
          (2 * v = val lo + val (lo + 1) → (c = lo ∨ c = lo + 1) ∧ c % 2 = 0)) ∧
        (mode = 1 → c = lo) ∧ (mode = 2 → c = if neg = true then lo else lo + 1) ∧ (mode = 3 → c = if neg = true then lo + 1 else lo)) ∧
      ffEncode f mode sat (.fin neg m e) = signed (if c ≤ f.top then c
        else if sat = true ∨ mode = 1 ∨ (mode = 2 ∧ neg = true) ∨ (mode = 3 ∧ neg = false) then f.top else inf)) ∧
    (∀ c, c < 2 ^ s →
      (c ≤ f.top → ∃ a q, ffDecode f (signed c) = .fin neg a q ∧ -(k : Int) ≤ q ∧ a * 2 ^ (q + k).toNat = val c) ∧
      (c = inf → ffDecode f (signed c) = .inf neg) ∧ (f.top < c → c ≠ inf → ffDecode f (signed c) = .nan))) ∧
  (∀ (mode : Nat) (x : ExNum), r32 mode x = BitVec.ofNat 32 (ffEncode fFP32 mode false x)) ∧
  (∀ (s : State) (t : Tag) (d : Bool) (r a b : BitVec 6) (p f : BitVec 3), tagRuns t s.strand = true → (t = .W → slipFree s.tm s.strand = true) →
    (3 < f → ∀ e ∈ ([.fadd t d r a b f, .fmul t d r a b f, .ffma t d r a b f, .fmnx t d r a b f, .fcmp t d p a b f] : List Instr),
      exec e s = .next (s.faulted .ILLEGAL 0 0)) ∧
    (48 ≤ r.toNat → exec (.ffma t d r a b f) s = .next (s.faulted .ILLEGAL 0 0))) ∧
  ∀ (s u : State) (t : Tag) (d : Bool) (r a b : BitVec 6) (p f : BitVec 3) (x y : W64),
    s.Issues t false → tagCA t = true → s.srcOk a = true →
    (s.destOk r = true → s.srcOk b = true → s.room d r = .ok () → s.Reads2 a b x y u → f.toNat < 4 →
      exec (.fadd t d r a b f) s =
        .next ((u.put d r ((r32 f.toNat (addN f.toNat (f32 (lo32 x)) (f32 (lo32 y)))).setWidth 64)).past t) ∧
      exec (.fmul t d r a b f) s =
        .next ((u.put d r ((r32 f.toNat (mulN (f32 (lo32 x)) (f32 (lo32 y)))).setWidth 64)).past t) ∧
      exec (.fmnx t d r a b f) s = .next ((u.put d r ((r32 0 (if f = 0 then minN (f32 (lo32 x)) (f32 (lo32 y))
        else if f = 1 then maxN (f32 (lo32 x)) (f32 (lo32 y)) else if f = 2 then minNum (f32 (lo32 x)) (f32 (lo32 y))
        else maxNum (f32 (lo32 x)) (f32 (lo32 y)))).setWidth 64)).past t)) ∧
    (s.destOk r = true → s.srcOk b = true → s.Reads2 a b x y u → f.toNat < 4 → r.toNat < 48 →
      exec (.ffma t d r a b f) s = .next ((u.put d r ((r32 f.toNat (addN f.toNat (f32 (lo32 (s.reg r.toNat)))
        (mulN (f32 (lo32 x)) (f32 (lo32 y))))).setWidth 64)).past t)) ∧
    (s.srcOk b = true → s.Reads2 a b x y u → f.toNat < 4 →
      ∃ v : Bool, exec (.fcmp t d p a b f) s =
          .next (((if d then u else u.setPred p.toNat v).pushLat (if v then 1 else 0)).past t) ∧
        (f = 0 → v = eqN (f32 (lo32 x)) (f32 (lo32 y))) ∧ (f = 1 → v = ltN (f32 (lo32 x)) (f32 (lo32 y))) ∧
        (f = 2 → v = (ltN (f32 (lo32 x)) (f32 (lo32 y)) || eqN (f32 (lo32 x)) (f32 (lo32 y)))) ∧
        (f = 3 → v = ((f32 (lo32 x)).isNaN || (f32 (lo32 y)).isNaN))) ∧
    (s.destOk r = true → s.room d r = .ok () → s.Reads1 a x u →
      exec (.fcvt t d r a 0) s = .next ((u.put d r (w64 (toIntSat (-(2 : Int) ^ 63) (2 ^ 63 - 1) 0 (f32 (lo32 x))))).past t) ∧
      exec (.fcvt t d r a 1) s = .next ((u.put d r (w64 (toIntSat (-(2 : Int) ^ 63) (2 ^ 63 - 1) 1 (f32 (lo32 x))))).past t) ∧
      exec (.fcvt t d r a 2) s = .next ((u.put d r ((r32 0 (ofInt x.toInt)).setWidth 64)).past t) ∧
      exec (.fcvt t d r a 3) s = .next ((u.put d r ((r32 0 (ofInt x.toNat)).setWidth 64)).past t) ∧
      exec (.fcvt t d r a 4) s = .next ((u.put d r (BitVec.ofNat 64 (ffEncode fBF16 0 false (f32 (lo32 x))))).past t) ∧
      exec (.fcvt t d r a 5) s = .next ((u.put d r ((r32 0 (ffDecode fBF16 (x.toNat % 65536))).setWidth 64)).past t) ∧
      exec (.fcvt t d r a 6) s = .next ((u.put d r (BitVec.ofNat 64 (ffEncode fFP16 0 false (f32 (lo32 x))))).past t) ∧
      exec (.fcvt t d r a 7) s = .next ((u.put d r ((r32 0 (ffDecode fFP16 (x.toNat % 65536))).setWidth 64)).past t))

/-! ### Control and coordination (R118 to R133) -/

/-- `BR`, `CALL`, `RET` and `JMPR` complete (R33, R118 to R120): a private word follows the strand's own state, C pushes the outcome of a
W-tagged word to BQ and follows it, and A and X follow the outcome that they pop. That a branch of C meets
`QUEUE` where A or X has retired `EXIT` is the model's choice (log 37): R31 speaks of one consumer, and BQ has two. -/
def Obligations.TransfersGoWhereTheySay : Prop :=
  ∀ (s u v : State) (t : Tag) (c : BitVec 4) (i : BitVec 18) (a : BitVec 6) (x : W64) (b : Bool),
    s.Issues t false →
    let pc := s.st.pc
    let inWindow := fun n : Int => 0 ≤ n ∧ n.toNat < 16384
    let inSpan := fun n : Int => inWindow n ∧ spanNo (s.text s.cur) n.toNat = spanNo (s.text s.cur) pc
    let bodies := fun n : Int => ∀ l ∈ s.st.loops, inBody l pc = (decide (0 ≤ n) && inBody l n.toNat)
    let tgt : Int := pc + 1 + i.toInt
    -- `BR`
    (c ≠ 15 → t ≠ .W → inSpan tgt → bodies tgt →
      exec (.br t c i) s = .next (if s.cndHolds c = true then s.jumped t tgt.toNat else s.past t)) ∧
    (c ≠ 15 → t = .W → s.strand = .C → inWindow tgt → bodies tgt → s.tm.bq.length < 32 → (s.tm.a.exited || s.tm.x.exited) = false →
      v = s.setTm { s.tm with bq := s.tm.bq ++ [{ val := .taken (s.cndHolds c), popA := false, popX := false }] } →
      exec (.br t c i) s = .next (if s.cndHolds c = true then v.jumped .W tgt.toNat else v.past .W)) ∧
    (c ≠ 15 → t = .W → s.strand = .C → inWindow tgt → bodies tgt → (s.tm.a.exited || s.tm.x.exited) = true →
      exec (.br t c i) s = .next (s.faulted .QUEUE 0 0)) ∧
    (c ≠ 15 → t = .W → s.strand ≠ .C → bodies tgt → s.popBq = .ok (.taken b, u) →
      exec (.br t c i) s = .next (if b = true then u.jumped .W tgt.toNat else u.past .W)) ∧
    -- `CALL`
    ((t ≠ .W → inSpan tgt) → (t = .W → s.strand = .C → inWindow tgt) → s.st.link.length < 16 →
      exec (.call t i) s = .next ((s.setSt { s.st with link := (pc + 1) :: s.st.link }).jumped t tgt.toNat)) ∧
    -- `RET`
    (∀ n rest, s.st.link = n :: rest → (t ≠ .W → inSpan n) → (t = .W → inWindow n) →
      exec (.ret t) s = .next ((s.setSt { s.st with link := rest }).jumped t n)) ∧
    -- `JMPR`
    (t ≠ .W → s.srcOk a = true → s.Reads1 a x u → inSpan x.toNat → bodies x.toNat →
      exec (.jmpr t a) s = .next (u.jumped t x.toNat)) ∧
    (t = .W → s.strand = .C → s.srcOk a = true → s.Reads1 a x u → inWindow x.toNat → bodies x.toNat → u.tm.bq.length < 32 →
      (u.tm.a.exited || u.tm.x.exited) = false →
      v = u.setTm { u.tm with bq := u.tm.bq ++ [{ val := .target x, popA := false, popX := false }] } →
      exec (.jmpr t a) s = .next (v.jumped .W x.toNat)) ∧
    (t = .W → s.strand ≠ .C → s.popBq = .ok (.target x, u) → bodies x.toNat →
      exec (.jmpr t a) s = .next (u.jumped .W x.toNat))

/-- `LOOP` completes (R121, R33): C reads the count and pushes it, A and X pop it; a count of 0 passes over the body and opens nothing,
any other opens the loop and enters its body.
`LBRK` completes (R123, R124): without a break it goes on; with one, its strand leaves the loop of the level and every loop opened
after it, discards what R124 says, and stands behind the body. -/
def Obligations.LoopWordsOpenPassAndClose : Prop :=
  (∀ (s u v : State) (l : BitVec 2) (a : BitVec 6) (n : BitVec 14) (x : W64),
    s.Issues .W false → n ≠ 0 → s.st.pc + n.toNat < 16384 → loopAt s.st l.toNat = none →
    ((s.strand = .C ∧ s.srcOk a = true ∧ s.Reads1 a x u ∧ u.tm.bq.length < 32 ∧ (u.tm.a.exited || u.tm.x.exited) = false ∧
        v = u.setTm { u.tm with bq := u.tm.bq ++ [{ val := .count x, popA := false, popX := false }] }) ∨
      (s.strand ≠ .C ∧ s.popBq = .ok (.count x, v))) →
    (x = 0 → exec (.loop l a n) s =
      .next ((v.setSt { v.st with loopSeq := v.st.loopSeq + 1 }).retire true (s.st.pc + n.toNat + 1) true)) ∧
    (x ≠ 0 → exec (.loop l a n) s =
      .next ((v.setSt { v.st with loopSeq := v.st.loopSeq + 1, loops :=
        { lv := l.toNat, start := s.st.pc + 1, last := s.st.pc + n.toNat, count := x.toNat, index := 0, inst := v.st.loopSeq + 1 } ::
          v.st.loops }).retire true (s.st.pc + 1) false))) ∧
  (∀ (s v : State) (c : BitVec 4) (l : BitVec 2) (lp : Loop) (b : Bool),
    s.Issues .W false → c ≠ 15 → loopAt s.st l.toNat = some lp → lp.start ≤ s.st.pc → s.st.pc ≤ lp.last →
    ((s.strand = .C ∧ b = s.cndHolds c ∧ s.tm.bq.length < 32 ∧ (s.tm.a.exited || s.tm.x.exited) = false ∧
        v = s.setTm { s.tm with bq := s.tm.bq ++ [{ val := .brk b, popA := false, popX := false }] }) ∨
      (s.strand ≠ .C ∧ s.popBq = .ok (.brk b, v))) →
    (b = false → exec (.lbrk c l) s = .next (v.past .W)) ∧
    (b = true →
      let q := splitLoops l.toNat v.st.loops
      let closing := q.1.map (·.inst)
      exec (.lbrk c l) s =
        .next (((v.setSt { v.st with loops := q.2, dead := closing ++ v.st.dead }).discard closing).retire true (lp.last + 1) true)))

/-- `NOP`, `SLIP`, `FMTC`, `ALIGN`, `PUSH`, `POP`, `TIME`, `WAITT` and `EXIT` complete with the effects of R126 to R132.
`TRAP` retires and then raises `TRAP` with the source as the record's address and IMM10 in its auxiliary field; in A and X a W-tagged
one only goes on (R133). -/
def Obligations.CoordinationWordsComplete : Prop :=
  (∀ (s u : State) (t : Tag) (r a : BitVec 6) (n : BitVec 10) (x : W64) (k : QName),
    (s.Issues t (t == .X) → exec (.nop t) s = .next (s.past t)) ∧
    (s.Issues .W false → n ≠ 0 → n.toNat ≤ 64 →
      (s.strand = .X → exec (.slip n) s = .next ((s.setTm { s.tm with slip := n.toNat }).past .W)) ∧
      (s.strand ≠ .X → exec (.slip n) s = .next (s.past .W))) ∧
    (s.Issues t false →
      (t = .X ∨ t = .W → s.strand = .X → exec (.fmtc t n) s = .next ((s.setTm { s.tm with fmtctl := n.setWidth 32 }).past t)) ∧
      (t = .W → s.strand ≠ .X → exec (.fmtc t n) s = .next (s.past t)) ∧
      (tagInt s.cls t = true → exec (.align t) s = .next ((if strandStores s.tm s.strand = [] then s
        else s.setTm { s.tm with lq := s.tm.lq ++ [.marker s.strand (strandStores s.tm s.strand)] }).past t)) ∧
      (t ≠ .W → qOfNum n.toNat = some k → k.producer = s.strand → pushCheck s.tm k = .ok () →
        (s.ixField a = false → s.srcOk a = true → s.Reads1 a x u →
          exec (.push t a n) s = .next ((u.setTm (u.tm.pushQ k x)).past t)) ∧
        (s.ixField a = true → s.popsOk [a] = .ok () →
          exec (.push t a n) s = .next ((s.setTm (s.tm.pushQ k ((s.tm.ix a.toNat).setWidth 64))).past t))) ∧
      (t ≠ .W → qOfNum n.toNat = some k → k.consumer = s.strand →
        ∀ e q, s.tm.q k = e :: q → s.room false r = .ok () →
          let v := s.setTm (s.tm.setQ k q)
          (s.ixField r = false → s.destOk r = true → exec (.pop t r n) s = .next ((v.put false r e.val).past t)) ∧
          (s.ixField r = true →
            exec (.pop t r n) s = .next (((v.setTm (v.tm.setIx r.toNat (e.val.setWidth 6))).pushLat e.val).past t))) ∧
      (s.destOk r = true → s.room false r = .ok () →
        (n = 0 → exec (.time t r n) s = .next ((s.put false r (s.nsAt s.cur.site)).past t)) ∧
        (n = 1 → exec (.time t r n) s = .next ((s.put false r (BitVec.ofNat 64 (s.countAt s.cur.site))).past t)) ∧
        (n = 2 → exec (.time t r n) s = .next ((s.put false r (BitVec.ofNat 64 (s.runCycles s.cur))).past t))) ∧
      (s.srcOk a = true → s.Reads1 a x u → n.toNat < 2 →
        (s.waitTarget x n ≤ s.nsAt s.cur.site → exec (.waitt t a n) s = .next ((u.setSt { u.st with waitV := false }).past t)) ∧
        (s.nsAt s.cur.site < s.waitTarget x n → exec (.waitt t a n) s =
          .next ((s.setSt { s.st with waitT := s.waitTarget x n, waitV := true }).noteHold (.longWait waitTime))))) ∧
    (s.Issues .W false → s.raiseSerr = .ok () →
      let v := s.setSt { s.st with exited := true, loops := [], link := [] }
      exec .exit s = .next ((if s.strand = .X then v.setTm v.tm.feed.failClaims else v).past .W))) ∧
  (∀ (s u : State) (t : Tag) (a : BitVec 6) (n : BitVec 10) (x : W64),
    s.Issues t false →
    ((t ≠ .W ∨ s.strand = .C) → s.srcOk a = true → s.Reads1 a x u →
      exec (.trap t a n) s = .next ((u.past t).takeFault s.st.pc (u.st.pc + 1) ⟨.TRAP, x, n.toNat, [], false, none⟩)) ∧
    (t = .W → s.strand ≠ .C → exec (.trap t a n) s = .next (s.past t)))


/-! ### Memory words (R134 to R160) -/

/-- The loads complete (R139, R141): one performed at its issue gives its value through the frame, with its bytes sign- or zero-extended;
one that A makes for `dq` enters the load queue, or `dq` itself where it reads a register of the package. -/
def Obligations.LoadsGiveTheirValue : Prop :=
  ∀ (s u q v : State) (t : Tag) (d : Bool) (r a : BitVec 6) (p : BitVec 2) (o : BitVec 7) (x : W64) (pl : Place) (bs : List Byte),
    ∀ e ∈ ([(1, true, .ldb t d r a p o), (2, true, .ldh t d r a p o), (4, true, .ldw t d r a p o), (8, false, .ldd t d r a p o),
        (1, false, .ldbz t d r a p o), (2, false, .ldhz t d r a p o), (4, false, .ldwz t d r a p o)] : List (Nat × Bool × Instr)),
      let size := e.1
      let ea : W64 := x + BitVec.ofInt 64 (o.toInt * size)
      let value : W64 := if e.2.1 then BitVec.ofInt 64 (sextNat (8 * bs.length) (leNat bs)) else BitVec.ofNat 64 (leNat bs)
      let queued := s.strand = .A ∧ r = 63 ∧ d = false
      s.Issues t false → tagMem s.cls t = true → s.destOk r = true → s.srcOk a = true → s.Reads1 a x u →
      u.access x ea size size p.toNat .read = .ok (pl, q) → q.orderFree pl = .ok () →
      (¬queued → s.room d r = .ok () → q.loadFree = .ok () → q.doLoad q.me pl size ea = .ok (bs, v) →
        exec e.2.2 s = .next ((v.put d r value).past t)) ∧
      (queued → dqCheck s.tm = .ok () → isMmio pl = false → q.enqueueLoad pl ea size e.2.1 false = .ok v →
        exec e.2.2 s = .next (v.past t)) ∧
      (queued → dqCheck s.tm = .ok () → isMmio pl = true → q.loadFree = .ok () → q.doLoad q.me pl size ea = .ok (bs, v) →
        exec e.2.2 s =
          .next ((v.pushDq v.me { data := .scalar value, locks := [], poison := none, mark := markOf v.st }).past t))

/-- The stores and `PREF` complete (R142, R143, R160): a store enters the store queue with the low bytes of its data, or for A with D = 1
with a claim on `sdq`. A `PREF` with D = 1 reaches the home of its line and brings the line into no L1 and no L2; of a home's own cache, which
is one point with the home (R350), State holds nothing (log 89, DEDUCED).
A store that enters the store queue stands last in it, with its strand, place, size and data (R140, R142), where no store of the team
waits for `sdq`. -/
def Obligations.StoresEnterTheStoreQueue : Prop :=
  (∀ (s u q : State) (t : Tag) (v a : BitVec 6) (p : BitVec 2) (o : BitVec 7) (x y : W64) (pl : Place),
    s.srcOk a = true →
    (∀ e ∈ ([(1, fun d => .stb t d v a p o), (2, fun d => .sth t d v a p o), (4, fun d => .stw t d v a p o),
        (8, fun d => .std t d v a p o)] : List (Nat × (Bool → Instr))),
      let size := e.1
      let ea : W64 := y + BitVec.ofInt 64 (o.toInt * size)
      s.Issues t false → tagMem s.cls t = true → u.access y ea size size p.toNat .write = .ok (pl, q) → q.orderFree pl = .ok () →
      (s.srcOk v = true → s.Reads2 v a x y u →
        exec (e.2 false) s = .next ((q.enqueueStore pl ea size (some (leBytes size x.toNat))).past t)) ∧
      (t = .A → v = 63 → s.Reads1 a y u → exec (e.2 true) s = .next ((q.enqueueStore pl ea size none).past t))) ∧
    (s.Issues t false → tagMem s.cls t = true → s.Reads1 a y u →
      ∀ d, exec (.pref t d a p o) s =
        .next ((u.prefetch y (((y + BitVec.ofInt 64 (o.toInt * 64)) >>> 6) <<< 6) p.toNat d).past t))) ∧
  (∀ (s q v : State) (base ea : W64) (pol at_ : Nat) (lvl : Lvl) (sp : Spot), s.checkEa s.me base ea 64 64 pol = .ok sp →
    s.placeOf s.me sp 64 pol .read ea = .ok (.mem at_ lvl, q) → isKick (q.forward at_) = false →
    q.reachHome q.me (q.forward at_) ea = .ok v →
    s.prefetch base ea pol true = v ∧ (∀ c, (v.core c).l1 = (q.core c).l1) ∧ (∀ x, (v.die x).l2 = (q.die x).l2)) ∧
  (∀ (s : State) (pl : Place) (ea : W64) (size : Nat) (bs : List Byte) (add : Bool), s.tm.claims = [] →
    let e : StoreEnt := { strand := s.strand, place := pl, ea := ea, size := size, data := some bs, fromSdq := false, pc := s.st.pc,
                          mark := markOf s.st, id := s.tm.nextId, again := false, add := add }
    (s.enqueueStore pl ea size (some bs) add).tm.sq = s.tm.sq ++ [e] ∧
    SameMemory s (s.enqueueStore pl ea size (some bs) add))

/-- `STORE_PERFORM` and `LOAD_PERFORM` complete (R139, R140, R354): the store at the head of the queue is performed at its place, where it has
its data and no load that A issued before it waits, and a store that fails there leaves SERR and SERRA; the oldest load that nothing holds is
performed into `dq`, and one that fails there leaves a poison mark. That one that was saved with its team is performed at the place to which
its address is translated then is the model's choice (log 58), and so is that a load without a way is performed beyond the L1 where no lock
is to outlive it (log 69). -/
def Obligations.QueuedAccessesArePerformedInOrder : Prop :=
  ∀ (s u : State) (e : StoreEnt) (rest : List StoreEnt) (d : List Byte) (f : Flt) (q : DqEnt)
    (pl : Place) (ea : W64) (size mark pc id : Nat) (sg vec again : Bool) (loads : List LqEnt),
    let c := s.ev.core
    let t := s.team c
    (s.ev.n ≠ 1 → t.sq = e :: rest → e.data = some d → loadFirst t e = false →
      let v := s.setTeam c { t with sq := rest }
      let performed := (v.placeNow (s.who c) e.place e.ea e.size .write e.again).bind fun p => p.2.doStore (s.who c) p.1 d e.ea
      (e.again = false → performed = v.doStore (s.who c) e.place d e.ea) ∧
      (performed = .ok u → exec .storePerform s = .next u) ∧
      (performed = .error (.fault f) → exec .storePerform s =
        .next (let v' := v.markBad f.bad
          v'.setTeam c ((v'.team c).storeFailed e.strand e.pc f.code e.ea)))) ∧
    (t.lq = .load pl ea size sg vec mark pc id again :: loads →
      let v := s.setTeam c { t with lq := loads }
      let read := (v.placeNow (s.who c) pl ea size .read again).bind fun p => p.2.queuedDatum (s.who c) p.1 ea size sg vec mark
      (again = false → read = v.queuedDatum (s.who c) pl ea size sg vec mark) ∧
      (read = .ok (q, u) → exec .loadPerform s = .next (u.pushDq (s.who c) q)) ∧
      (read = .error (.fault f) → exec .loadPerform s =
        .next ((v.markBad f.bad).pushDq (s.who c)
          { data := .scalar 0, locks := [], poison := some ⟨f.code, f.addr, f.aux⟩, mark := mark })))

/-- `LDF`, `STF` and `FEFILL` complete (R146, R147): with the value of the word where the operation is performed, and held with a waiter
record where its word has not the state that it waits for. Bit D of `STF` has no effect, which is the model's choice (log 39). -/
def Obligations.FullEmptyWordsComplete : Prop :=
  ∀ (s u v w : State) (t : Tag) (d : Bool) (r b a : BitVec 6) (p : BitVec 2) (o : BitVec 7) (f : BitVec 3) (x y z : W64) (off : Nat),
    s.Issues t false → tagCA t = true → s.srcOk a = true →
    let ea : W64 := x + BitVec.ofInt 64 (o.toInt * 4)
    (s.destOk r = true → p.toNat < 2 → s.Reads1 a x u → s.feCheck x ea = .ok off →
      (¬(s.strand = .A ∧ r = 63 ∧ d = false) → s.room d r = .ok () → u.feOp ea off (some true) (p == 1) none = .ok (some y, v) →
        exec (.ldf t d r a p o) s = .next ((v.put d r y).past t)) ∧
      (s.strand = .A → r = 63 → d = false → dqCheck s.tm = .ok () → u.feOp ea off (some true) (p == 1) none = .ok (some y, v) →
        exec (.ldf t d r a p o) s =
          .next ((v.pushDq v.me { data := .scalar y, locks := [], poison := none, mark := markOf v.st }).past t)) ∧
      (¬(s.strand = .A ∧ r = 63 ∧ d = false) → s.room d r = .ok () → u.feOp ea off (some true) (p == 1) none = .ok (none, v) →
        s.feOp ea off (some true) (p == 1) none = .ok (none, w) →
        exec (.ldf t d r a p o) s = .next (w.noteHold (.longWait waitFe)))) ∧
    (s.srcOk r = true → p.toNat < 2 → s.Reads2 r a z x u → s.feCheck x ea = .ok off →
      let cond := if p = 0 then some false else none
      (u.feOp ea off cond false (some (z.setWidth 32)) = .ok (some y, v) → exec (.stf t d r a p o) s = .next (v.past t)) ∧
      (u.feOp ea off cond false (some (z.setWidth 32)) = .ok (none, v) → s.feOp ea off cond false (some (z.setWidth 32)) = .ok (none, w) →
        exec (.stf t d r a p o) s = .next (w.noteHold (.longWait waitFe)))) ∧
    (s.destOk r = true → s.srcOk b = true → s.room d r = .ok () → s.Reads2 a b x y u → f.toNat < 2 →
      cspPointer s.cur x = true → x.toNat % 4 = 0 → y.toNat ≠ 0 → y.toNat % 4 = 0 → y.toNat ≤ 65536 →
      s.rangeOk s.me x y.toNat = true → s.loadFree = .ok () → s.tm.sq = [] →
      u.released s.me = .ok v →
      let q := v.fillMarks (f == 1) (offOf x) 0 (y.toNat / 4)
      q.1.acquired s.me = .ok w → exec (.fefill t d r a b f) s = .next ((w.put d r (BitVec.ofNat 64 q.2)).past t))

/-- The atomics complete (R155, R157): the old value comes through the frame as a load gives it, and memory holds the new one. The new value is
what R155 gives for each FN. -/
def Obligations.AtomicsExchangeInOneStep : Prop :=
  (∀ (old : Nat) (y z : W64), old < 2 ^ 64 →
    let o : W64 := BitVec.ofNat 64 old
    atomNew (.amo 0) old y z = (o + y).toNat ∧ atomNew (.amo 1) old y z = (o &&& y).toNat ∧ atomNew (.amo 2) old y z = (o ||| y).toNat ∧
    atomNew (.amo 3) old y z = (o ^^^ y).toNat ∧ atomNew (.amo 4) old y z = (if o.toInt ≤ y.toInt then o else y).toNat ∧
    atomNew (.amo 5) old y z = (if o.toInt ≤ y.toInt then y else o).toNat ∧ atomNew (.amo 6) old y z = (if o ≤ y then o else y).toNat ∧
    atomNew (.amo 7) old y z = (if o ≤ y then y else o).toNat ∧ atomNew .cas old y z = (if o = z then y else o).toNat) ∧
  (∀ (old : Nat) (y z : W64), old < 2 ^ 32 →
    let o : W32 := BitVec.ofNat 32 old
    let b : W32 := y.setWidth 32
    let bf := fun (x y : BitVec 16) => BitVec.ofNat 16 (ffEncode fBF16 0 false (addN 0 (ffDecode fBF16 x.toNat) (ffDecode fBF16 y.toNat)))
    atomNew (.amow 0) old y z = (o + b).toNat ∧ atomNew (.amow 1) old y z = (o &&& b).toNat ∧ atomNew (.amow 2) old y z = (o ||| b).toNat ∧
    atomNew (.amow 3) old y z = (o ^^^ b).toNat ∧ atomNew (.amow 4) old y z = (if o.toInt ≤ b.toInt then o else b).toNat ∧
    atomNew (.amow 5) old y z = (if o.toInt ≤ b.toInt then b else o).toNat ∧ atomNew (.amow 6) old y z = (if o ≤ b then o else b).toNat ∧
    atomNew (.amow 7) old y z = (if o ≤ b then b else o).toNat ∧ atomNew .casw old y z = (if o = z.setWidth 32 then b else o).toNat ∧
    BitVec.ofNat 32 (atomNew (.amof 0) old y z) = r32 0 (addN 0 (f32 o) (f32 b)) ∧
    BitVec.ofNat 32 (atomNew (.amof 1) old y z) =
      bf (o.extractLsb' 16 16) (b.extractLsb' 16 16) ++ bf (o.extractLsb' 0 16) (b.extractLsb' 0 16) ∧
    BitVec.ofNat 32 (atomNew (.amof 2) old y z) = r32 0 (maxN (f32 o) (f32 b)) ∧
    BitVec.ofNat 32 (atomNew (.amof 3) old y z) = r32 0 (minN (f32 o) (f32 b))) ∧
  ∀ (s u q v w : State) (t : Tag) (d : Bool) (r a b : BitVec 6) (f : BitVec 3) (x y : W64) (pl : Place) (bs : List Byte),
    ∀ e ∈ ([(.amo f, d, .amo t d r a b f, true), (.amow f, d, .amow t d r a b f, true), (.cas, false, .cas t r a b, decide (r.toNat < 48)),
        (.casw, false, .casw t r a b, decide (r.toNat < 48)), (.amof f, d, .amof t d r a b f, decide (f.toNat < 4))] :
          List (AtomOp × Bool × Instr × Bool)),
      let n := atomSize e.1
      let expected : W64 := if r.toNat < 48 then s.reg r.toNat else 0
      let old := leNat bs
      let value : W64 := if n = 4 ∧ (∀ g, e.1 ≠ .amof g) then BitVec.ofInt 64 (sextNat 32 old) else BitVec.ofNat 64 old
      s.Issues t false → tagMem s.cls t = true → s.destOk r = true → s.srcOk a = true → s.srcOk b = true → e.2.2.2 = true →
      s.Reads2 a b x y u → s.checkSpace s.me x x 0 = .ok () → atomAllowed e.1 (tagNum x) = true → x.toNat % n = 0 →
      s.rangeOk s.me x n = true → boardFree s.tm x n = .ok () → u.placeOf s.me (spotOf s.me x) n 0 .both x = .ok (pl, q) →
      s.loadFree = .ok () → s.tm.sq = [] →
      q.doLoad s.me (atomPlace (spotOf s.me x) pl) n x = .ok (bs, v) →
      v.doStore s.me (atomPlace (spotOf s.me x) pl) (leBytes n (atomNew e.1 old y expected)) x = .ok w →
      (¬(s.strand = .A ∧ r = 63 ∧ e.2.1 = false) → s.room e.2.1 r = .ok () →
        exec e.2.2.1 s = .next ((w.put e.2.1 r value).past t)) ∧
      (s.strand = .A → r = 63 → e.2.1 = false → dqCheck s.tm = .ok () →
        exec e.2.2.1 s = .next ((w.pushDq s.me { data := .scalar value, locks := [], poison := none, mark := markOf w.st }).past t))

/-- The copies complete (R148, R153, R154): `CPY` takes the free entry of the scoreboard and gives its ticket, `CPYW` goes on once its
copies have ended, and `CPYS` gives a ticket's status.
`COPY_COMPLETE` and `COPY_FAULT_HOLD` complete (R150, R151): a copy whose every byte is performed ends, and one whose next word faults
is held with its record, its status holding the code and its suspension the place at which it resumes. -/
def Obligations.CopyWordsAndStepsComplete : Prop :=
  (∀ (s u : State) (t : Tag) (r a b : BitVec 6) (f : BitVec 3) (x y z : W64) (k : Nat),
    s.Issues t false → tagMem s.cls t = true → s.srcOk a = true →
    (s.srcOk r = true → s.srcOk b = true → f.toNat < 3 → s.Reads3 r a b x y z u → s.copyCheck x y z.toNat f.toNat = .ok () →
      s.copyFree x y z.toNat = .ok () → tfree s.tm.board 8 = some k →
      let ticket : W64 := BitVec.ofNat 64 (k + 65536 * u.tm.copySeq.toNat)
      let ent : CopyEnt := { seq := u.tm.copySeq, dst := x, src := y, len := z.toNat, fn := f.toNat, done := 0, st := .running,
                             strand := s.strand, pc := s.st.pc, handle := none, before := u.tm.nextId, ahead := [] }
      let v := u.setTm { u.tm with board := tset u.tm.board k ent, copySeq := u.tm.copySeq + 1, ends := u.tm.ends.filter (·.entry != k) }
      (z ≠ 0 → exec (.cpy t r a b f) s = .next ((v.pushLat ticket).past t)) ∧
      (z = 0 → exec (.cpy t r a b f) s = .next ((((v.completeCopy s.cur 0 k v.tm ent).getD v).pushLat ticket).past t))) ∧
    (s.Reads1 a x u → (s.tm.copyOf x = none → exec (.cpyw t a 0) s = .next (u.past t)) ∧
      (s.tm.copyOf x ≠ none → exec (.cpyw t a 0) s = .next (s.noteHold (.longWait waitCopy)))) ∧
    (s.tm.board = [] → exec (.cpyw t 0 1) s = .next (s.past t)) ∧
    (s.destOk r = true → s.room false r = .ok () → s.Reads1 a x u →
      exec (.cpys t r a) s = .next ((u.put false r (s.tm.copyStatus x)).past t))) ∧
  (∀ (s : State) (t : TeamSt) (ent : CopyEnt) (f : Flt),
    let c := s.ev.core
    let k := s.ev.n / 8
    let e := s.ev.n % 8
    s.teamN c k = some t → tget? t.board e = some ent → ent.st = .running →
    (ent.len ≤ ent.done → exec .copyComplete s = .next (match s.completeCopy c k e t ent with
      | some v => v
      | none => s.waited (s.flushHold (s.who c)))) ∧
    (ent.done < ent.len → s.moveWord (whoOf c t) ent = .error (.fault f) →
      exec .copyFaultHold s = .next ((s.markBad f.bad).holdCopy c k e t ent f)))

/-- `FENCE` and `XFENCE` complete once what they wait for is done (R158, R159, R357): a release of a scope beyond the core writes the L1's
dirty bytes back, an acquire of such a scope empties it. -/
def Obligations.FencesCompleteInOrder : Prop :=
  ∀ (s u v : State) (t : Tag) (k : BitVec 2) (z : BitVec 3) (a b : BitVec 6),
    let release := fun needed : Bool => if needed then s.released s.me else .ok s
    let acquire := fun (needed : Bool) (w : State) => if needed then w.acquired s.me else .ok w
    s.Issues t false → z.toNat < 5 →
    (loadsDone s.tm s.strand = true →
      (k = 0 → acquire (z != 0) s = .ok v → exec (.fence t k z) s = .next (v.past t)) ∧
      (k = 1 → storesDone s.tm s.strand = true → s.raiseSerr = .ok () → release (z != 0) = .ok v →
        exec (.fence t k z) s = .next (v.past t)) ∧
      (k = 2 → storesDone s.tm s.strand = true → s.raiseSerr = .ok () → release (z != 0) = .ok u → acquire (z != 0) u = .ok v →
        exec (.fence t k z) s = .next (v.past t))) ∧
    (a ≠ 0 → b ≠ 0 → (t ≠ .W → maskDone s.tm s.strand a = true) →
      (t = .W → s.allReached = true ∧
        (s.passedBy = true ∨ (maskDone s.tm .C a = true ∧ maskDone s.tm .A a = true ∧ maskDone s.tm .X a = true))) →
      release (a.getLsbD 0 || b.getLsbD 0) = .ok u → acquire (b.getLsbD 0) u = .ok v →
      exec (.xfence t a b z) s = .next (v.past t))

/-! ### Flocks and transfer phases (R161 to R168, R280 to R286) -/

/-- `FJOIN` and `FLEAVE` complete (R161): A and X pass them; C of a team without a flock becomes a member of the flock it names where the
home die is its own and the entry's fold is its fold, and leaves it again. A join at another die sends a message and is held, and
completes once that die has answered; a team of a firmware core meets `FLOCK` (R279). That a home die that no route leads to gives `FLOCK` is
the model's choice (log 64). -/
def Obligations.FlockJoinAndLeaveComplete : Prop :=
  ∀ (s u v : State) (a : BitVec 6) (n : BitVec 10) (x : W64) (i : TeamId) (id : Nat),
    s.Issues .W false →
    (s.strand ≠ .C → (n = 0 ∧ a = 0 ∨ n = 1) → exec (.fjoin a n) s = .next (s.past .W)) ∧
    (s.strand ≠ .C → exec .fleave s = .next (s.past .W)) ∧
    (s.strand = .C → s.tm.id = some i →
      ((n = 0 ∧ a = 0 ∧ u = s ∧ s.nodeFlock i = some id) ∨
        (n = 1 ∧ s.srcOk a = true ∧ s.Reads1 a x u ∧ id = (x.extractLsb' 0 16).toNat)) →
      s.tm.flock = none →
      (i.fw = true → exec (.fjoin a n) s = .next (s.faulted .FLOCK 0 0)) ∧
      (i.fw = false → s.tm.join = .idle → flockForm id = true → flockSite id = u.cur.site →
        u.flockJoin (flockSite id) (flockEntry id) { key := idKey i, site := flockSite id, node := idNode i } i.fold = some v →
        exec (.fjoin a n) s = .next ((v.setTm { v.tm with flock := some id }).past .W)) ∧
      (i.fw = false → s.tm.join = .idle → flockForm id = true → flockSite id ≠ s.cur.site → u.cur = s.cur →
        u.routed s.cur.site (flockSite id) = false → exec (.fjoin a n) s = .next (s.faulted .FLOCK 0 0)) ∧
      (i.fw = false → s.tm.join = .idle → flockForm id = true → flockSite id ≠ s.cur.site → u.cur = s.cur →
        (∀ q ∈ [s, u], q.routed s.cur.site (flockSite id) = true) →
        exec (.fjoin a n) s = .next (((s.setTm { s.tm with join := .asked }).sendFlock s.cur.site (flockSite id)
          (.join (flockEntry id) (idKey i) s.cur.site i.fold (idNode i))).noteHold .stall)) ∧
      (i.fw = false → s.tm.join = .joined → exec (.fjoin a n) s = .next ((u.setTm { u.tm with join := .idle, flock := some id }).past .W))) ∧
    (s.strand = .C → s.tm.flock ≠ none →
      let w := s.leaveFlock s.cur.site s.tm
      exec .fleave s = .next ((w.setTm { w.tm with flock := none }).past .W))

/-- `FBAR` and `FRED` complete (R163, R164): the team arrives, is held until the episode is complete, and then goes on with the bellwether
flag or with the result of the reduction.
The messages at a flock's home die complete (R280, R281, R283): the first is taken off, and a join of the entry's fold makes a member, a
leave removes it and frees the entry with its last member, and an arrival is recorded, a contribution of FN 3 in the contribution area first.
That a leave takes the member's arrival with it (log 63) and that answers go only where a route leads (log 64) are the model's choices.
An episode's results (R163, R164, R282): where every arrival is of one kind, the first arrival of a barrier alone receives 1, and a
reduction gives every member the wrapping sum, the signed least or the signed greatest value, or the sum of the contribution area. -/
def Obligations.FlockEpisodesAndMessagesComplete : Prop :=
  ((∀ (s u w : State) (d : Bool) (r a : BitVec 6) (f g : BitVec 3) (k : EpKind) (x v : W64) (id : Nat),
    (s.Issues .W false → s.tm.arrival ≠ .idle → s.strand ≠ .C → s.acquired s.me = .ok u →
      exec (.fbar a) s = .next ((if s.strand = .X then u.arrivalDone else u).past .W)) ∧
    (s.Issues .W false → s.strand = .C → s.destOk a = true → s.allReached = true → s.room false a = .ok () → s.tm.flock = some id →
      (s.tm.arrival = .complete k (some v) → s.acquired s.me = .ok u → exec (.fbar a) s = .next ((u.put false a v).past .W)) ∧
      (s.tm.arrival = .idle → s.tm.sq = [] → lqLoads s.tm = 0 → (s.tm.serr.getLsbD 31 = true → s.tm.serrStrand = .C) → s.raiseSerr = .ok () →
        s.released s.me = .ok u → u.arriveAt id .fbar 0 = .ok w → exec (.fbar a) s = .next (w.noteHold (.longWait waitFlock)))) ∧
    (s.Issues .C false → s.destOk r = true → s.srcOk a = true → f.toNat < 4 → s.room d r = .ok () → s.Reads1 a x u →
      s.tm.flock = some id →
      (s.tm.arrival = .idle → s.arriveAt id (.fred f) x = .ok w → exec (.fred d r a f) s = .next (w.noteHold (.longWait waitFlock))) ∧
      (s.tm.arrival = .complete (.fred g) (some v) → exec (.fred d r a f) s = .next ((u.arrivalDone.put d r v).past .C)))) ∧
  (∀ (s u : State) (n key site fold node : Nat) (k : EpKind) (v : W64) (rest : List FlockMsg) (e : FlockEnt),
    let t := s.dropFlockMsg s.ev.site
    t.flockAt s.ev.site n = some e →
    ((s.die s.ev.site).flockIn = .join n key site fold node :: rest →
      (e.fold = fold → (e.kind = some .xph → ∀ m ∈ e.members, m.site = site) →
        let q := t.setFlock s.ev.site n { e with members := e.members ++ [{ key := key, site := site, node := node }], had := true }
        exec .flockJoinMessage s = .next (if q.routed s.ev.site site = true
          then q.tellMember node key (fun t => { t with join := .joined }) (fun t => { t with join := .joined }) else q)) ∧
      (e.fold ≠ fold → exec .flockJoinMessage s = .next (if t.routed s.ev.site site = true
        then t.tellMember node key (fun t => { t with join := .refused }) (fun t => { t with join := .refused }) else t))) ∧
    ((s.die s.ev.site).flockIn = .leave n key node :: rest →
      let left := e.without node key
      let ms := e.members.filter fun m => !(m.node == node && m.key == key)
      let freed := t.setDie s.ev.site { t.die s.ev.site with flocks := tdel (t.die s.ev.site).flocks n }
      left.members = ms ∧ left.arrived = (e.arrived.filter fun a => !(a.node == node && a.key == key)) ∧
      (ms = [] → e.had = true →
        (e.area = none → exec .flockLeaveMessage s = .next freed) ∧
        (∀ pa pages nd, e.area = some (pa, pages) → e.node = some nd → exec .flockLeaveMessage s =
          .next (freed.setDrv (nd / 65536) ((freed.drv (nd / 65536)).givePages e.fold (pa / 65536) pages)))) ∧
      (ms ≠ [] → exec .flockLeaveMessage s =
        .next ((t.setFlock s.ev.site n left).closeEpisode s.ev.site n))) ∧
    ((s.die s.ev.site).flockIn = .arrive n key node k v :: rest →
      let a : ArriveRec := { key := key, node := node, kind := k, val := v }
      (k ≠ .fred 3 ∨ e.area = none ∨ e.node ≠ some node → t.contribute s.ev.site e a = .ok t) ∧
      (t.contribute s.ev.site e a = .ok u →
        exec .flockArrivalMessage s = .next ((u.setFlock s.ev.site n (e.arrive a)).closeEpisode s.ev.site n))))) ∧
  (∀ (e₀ : FlockEnt) (sum : W64) (base : Nat) (a b : ArriveRec) (l : List ArriveRec),
    let e := (b :: l).foldl FlockEnt.arrive e₀
    e₀.arrived = [] → e.agrees = true → a ∈ b :: l →
    e.arrived = b :: l ∧
    (a.kind = .fbar → e.result sum base a = some (if a.key = b.key ∧ a.node = b.node then 1 else 0)) ∧
    (a.kind = .fred 0 → e.result sum base a = some (BitVec.ofNat 64 (((b :: l).map fun c => c.val.toNat).sum))) ∧
    (a.kind = .fred 1 → ∃ v, e.result sum base a = some v ∧ (∀ c ∈ b :: l, v.toInt ≤ c.val.toInt) ∧ ∃ c ∈ b :: l, v = c.val) ∧
    (a.kind = .fred 2 → ∃ v, e.result sum base a = some v ∧ (∀ c ∈ b :: l, c.val.toInt ≤ v.toInt) ∧ ∃ c ∈ b :: l, v = c.val) ∧
    (a.kind = .fred 3 → e.result sum base a = some sum))

/-- `XPH`, `XMIT`, `MSEL` and `XEND` complete (R165 to R167): X's phase begins at its base, a drive puts its value on the chain of its
direction in the cycle it names, a capture reads the one value that stands at its strip in its cycle, and the phase ends once every member
has reached its end and the chains are quiet, with `XCOLLIDE` where the strip recorded a collision. On a die without strips `XPH` raises
`XPHASE` (R292). -/
def Obligations.TransferPhaseWordsComplete : Prop :=
  ∀ (s u w : State) (r a : BitVec 6) (i : BitVec 9) (c : BitVec 1) (x v : W64) (id : Nat) (p : Phase) (e : FlockEnt),
    (s.Issues .W s.xphReady → s.strand ≠ .X → exec .xph s = .next (s.past .W)) ∧
    (s.Issues .W s.xphReady → s.strand = .X → s.tm.flock = some id → stripsAt s.cur.site ≠ 0 →
      (s.tm.arrival = .complete .xph (some v) → s.tm.phase = some p → p.ended = false → s.arrivalDone.acquired s.me = .ok u →
        exec .xph s = .next (u.past .W)) ∧
      (s.tm.arrival = .idle → s.flockAt (flockSite id) (flockEntry id) = some e → (∀ m ∈ e.members, m.site = s.cur.site) →
        queuesDone s.tm = true → s.tm.scat = [] → s.released s.me = .ok u → u.arriveAt id .xph 0 = .ok w →
        exec .xph s = .next (w.noteHold (.longWait waitFlock)))) ∧
    (s.Issues .W s.xphReady → s.strand = .X → s.tm.flock = some id → stripsAt s.cur.site = 0 → exec .xph s = .next (s.faulted .XPHASE 0 0)) ∧
    (s.Issues .X true → s.tm.phase = some p → (∀ l, p.last = some l → l < i.toNat) →
      let t := p.base + i.toNat
      (a.toNat < 56 ∨ a = 62 → s.srcOk a = true → s.phaseTurn t 0 = true → s.src a = .ok (x, u) →
        let d := s.die s.cur.site
        exec (.xmit a i c) s = .next (((s.setDie s.cur.site { d with drives := d.drives ++
          [{ west := c == 1, strip := coreStrip s.cur, cycle := t, val := x }] }).phaseUsed i t).past .X)) ∧
      (s.destOk r = true → s.room false r = .ok () → s.phaseTurn t 1 = true →
        exec (.msel r i c) s = .next (((s.phaseUsed i t).put false r
          (slotVal (s.die s.cur.site).drives (c == 1) (coreStrip s.cur) t)).past .X))) ∧
    (s.Issues .W true → s.strand ≠ .X → exec .xend s = .next (s.past .W)) ∧
    (s.Issues .W true → s.strand = .X → s.tm.phase = some p →
      let out := s.setTm { s.tm with phase := none }
      let l := (s.die s.cur.site).drives
      let now := s.drivesGone
      (p.ended = true → exec .xend s = .next (out.past .W)) ∧
      (p.ended = false → s.allAtEnd p = true → s.chainsQuiet = true → collided l (coreStrip s.cur) p.base now = false →
        exec .xend s = .next (({ out with cyc := now } : State).past .W)) ∧
      (p.ended = false → s.allAtEnd p = true → s.chainsQuiet = true → stripsAt s.cur.site ≠ 0 → collided l (coreStrip s.cur) p.base now = true →
        exec .xend s = .next ((({ out with cyc := now } : State).past .W).takeFault s.st.pc (out.st.pc + 1) ⟨.XCOLLIDE, 0, 0, [], false, none⟩)))

/-! ### Brands, node words, signals and configuration (R169 to R177, R190 to R192) -/

/-- The brand words complete (R169 to R171, R384): the register's brand must pass check 1 and carry the word's right.
A register that is a view of a node slot (R169) gives a counted reference of its own, and its drop empties the slot (R386).
A word that uses a brand faults in the order of R169: `BRAND` where the register's brand fails check 1, or for `BGIVE`, `BDUP` and `BDROP` is
a view whose slot was emptied (R386), and `RIGHTS` where it lacks the word's right. -/
def Obligations.BrandWordsCompleteAndFaultInOrder : Prop :=
  (∀ (s u : State) (d : Bool) (r : BitVec 6) (a b : BitVec 4) (n : BitVec 3) (m : BitVec 6) (i : TeamId),
    let x := (s.tm.brand a).bits
    s.Issues .C false → s.brandOk s.tm.foldNo x = true →
    let nd := tget Node.reset (s.drv i.drv).nodes i.slot
    (s.destOk r = true → s.room d r = .ok () → s.tm.id = some i → ((brRights x).getLsbD 0 || (brRights x).getLsbD 1) = true →
      s.openWindow i x = .ok u →
      let v := u.setTm { u.tm with opened := if u.tm.opened.contains (brBuf x) then u.tm.opened else u.tm.opened ++ [brBuf x] }
      exec (.bopen d r a) s = .next ((v.put d r (BitVec.ofNat 64 (2 ^ 51 + (s.buf (brDrv x) (brIdx x)).pa))).past .C)) ∧
    (s.destOk r = true → s.room d r = .ok () →
      exec (.binfo d r a 0) s = .next ((s.put d r (BitVec.ofNat 64 (s.buf (brDrv x) (brIdx x)).len)).past .C) ∧
      exec (.binfo d r a 1) s = .next ((s.put d r ((brRights x).setWidth 64)).past .C) ∧
      exec (.binfo d r a 2) s = .next ((s.put d r ((bufId (brDrv x) (brIdx x)).setWidth 64)).past .C) ∧
      exec (.binfo d r a 3) s = .next ((s.put d r (BitVec.ofNat 64 (brGen x))).past .C)) ∧
    ((∀ v, (s.tm.brand a).view = some v → s.tm.id = some i ∧ nd.dropped.contains v = false) →
      (s.tm.id = some i → (brRights x).getLsbD 2 = true → tget 0 nd.slots (8 + n.toNat) = 0 →
        let given := s.setDrv i.drv { s.drv i.drv with
          nodes := tset (s.drv i.drv).nodes i.slot { nd with slots := tset nd.slots (8 + n.toNat) x } }
        exec (.bgive a n) s = .next (((if (s.tm.brand a).view = none then given
          else given.addRef (brDrv x) (brIdx x)).nullBrand a).past .C)) ∧
      ((brRights x).getLsbD 3 = true → (s.tm.brand b).bits = 0 →
        let y := s.makeBrand (brDrv x) (brIdx x) ((brRights x).setWidth 6 &&& m)
        let u := s.addRef (brDrv x) (brIdx x)
        exec (.bdup a b m) s = .next ((u.setTm (u.tm.setBrand b { bits := y, view := none })).past .C)) ∧
      ((brRights x).getLsbD 4 = true →
        ((s.tm.brand a).view = none → exec (.bdrop a) s = .next (((s.nullBrand a).dropBrand x).past .C)) ∧
        (∀ v, (s.tm.brand a).view = some v →
          let emptied := s.setDrv i.drv { s.drv i.drv with
            nodes := tset (s.drv i.drv).nodes i.slot { nd with slots := tdel nd.slots v, dropped := v :: nd.dropped } }
          exec (.bdrop a) s = .next (((emptied.nullBrand a).dropBrand x).past .C))))) ∧
  (∀ (s : State) (d : Bool) (r : BitVec 6) (a b : BitVec 4) (n f : BitVec 3) (m : BitVec 6) (i : TeamId),
    let x := (s.tm.brand a).bits
    s.Issues .C false → s.destOk r = true → s.room d r = .ok () → f.toNat < 4 →
    (s.brandOk s.tm.foldNo x = false →
      exec (.bopen d r a) s = .next (s.faulted .BRAND 0 0) ∧ exec (.binfo d r a f) s = .next (s.faulted .BRAND 0 0) ∧
      exec (.bgive a n) s = .next (s.faulted .BRAND 0 0) ∧ exec (.bdup a b m) s = .next (s.faulted .BRAND 0 0) ∧
      exec (.bdrop a) s = .next (s.faulted .BRAND 0 0)) ∧
    let nd := tget Node.reset (s.drv i.drv).nodes i.slot
    (s.brandOk s.tm.foldNo x = true → (brRights x).getLsbD 0 = false → (brRights x).getLsbD 1 = false →
      exec (.bopen d r a) s = .next (s.faulted .RIGHTS 0 0)) ∧
    (∀ v, s.brandOk s.tm.foldNo x = true → (s.tm.brand a).view = some v → s.tm.id = some i → nd.dropped.contains v = true →
      exec (.bgive a n) s = .next (s.faulted .BRAND 0 0) ∧ exec (.bdup a b m) s = .next (s.faulted .BRAND 0 0) ∧
      exec (.bdrop a) s = .next (s.faulted .BRAND 0 0)) ∧
    (s.brandOk s.tm.foldNo x = true → (∀ v, (s.tm.brand a).view = some v → s.tm.id = some i ∧ nd.dropped.contains v = false) →
      ((brRights x).getLsbD 2 = false → exec (.bgive a n) s = .next (s.faulted .RIGHTS 0 0)) ∧
      ((brRights x).getLsbD 3 = false → exec (.bdup a b m) s = .next (s.faulted .RIGHTS 0 0)) ∧
      ((brRights x).getLsbD 4 = false → exec (.bdrop a) s = .next (s.faulted .RIGHTS 0 0))))

/-- `NPARAM`, `INST`, `CFR` and `CFW` complete (R172, R174, R190): a configuration register reads as it is, a writable one takes the
operand, WAITTH clamped to 256 and WAITMAX, and a read-only one keeps its value. That bits above the fields of EPC, EVEC and PENDSEL are dropped
(log 53), what WAITTH is where WAITMAX is below 256 (log 79), and that the add of a `SIGNAL` waits its turn in the store queue (log 88) are the
model's choices.
`SIGNAL` completes (R173, R354): once the strand's stores are performed, the dirty lines are written back and the store enters the store
queue, and when it is performed there the value is stored at, or added to, the 8 bytes that the pointer names. -/
def Obligations.NodeAndConfigurationWordsComplete : Prop :=
  (∀ (s u : State) (t : Tag) (d : Bool) (r a : BitVec 6) (n : BitVec 10) (k : BitVec 9) (f : BitVec 3) (x : W64) (i : TeamId),
    s.Issues t false →
    (tagMem s.cls t = true → s.destOk r = true → s.room d r = .ok () → s.tm.id = some i →
      (k.toNat < 16 → exec (.nparam t d r k) s = .next ((s.put d r (s.nodeParam i k.toNat)).past t)) ∧
      exec (.inst t d r 0) s = .next ((s.put d r (BitVec.ofNat 64 i.inst)).past t) ∧
      exec (.inst t d r 1) s = .next ((s.put d r (BitVec.ofNat 64 i.cnt)).past t) ∧
      exec (.inst t d r 2) s = .next ((s.put d r (BitVec.ofNat 64 i.slot)).past t) ∧
      exec (.inst t d r 3) s = .next ((s.put d r i.lid).past t) ∧
      exec (.inst t d r 4) s = .next ((s.put d r (BitVec.ofNat 64 i.fold)).past t) ∧
      (f = 5 → ∃ v, exec (.inst t d r f) s = .next ((s.put d r v).past t) ∧ (s.nodeFlock i = none → v = 0xFFFFFFFFFFFFFFFF) ∧
        (∀ g, s.nodeFlock i = some g → v = BitVec.ofNat 64 g))) ∧
    (t ≠ .W → cfNamed n.toNat = true → (64 ≤ n.toNat → s.cls = .drover) →
      (s.destOk r = true → s.room false r = .ok () →
        exec (.cfr t r n) s = .next ((s.put false r (s.cfRead n.toNat)).past t)) ∧
      (s.srcOk a = true → s.Reads1 a x u →
        let c := u.core u.cur
        exec (.cfw t a n) s = .next ((if n = 17 then
            u.setTm { u.tm with waitth := BitVec.ofNat 64 (min (max x.toNat 256) c.waitmax.toNat) }
          else if n = 65 then u.setCore u.cur { c with epc := x &&& 0xFFFFFFFFFFFF }
          else if n = 67 then u.setCore u.cur { c with evec := x.setWidth 14 }
          else if n = 68 then u.setCore u.cur { c with pendsel := x.setWidth 32 &&& 0xFF } else u).past t))) ∧
    (t ≠ .W → cfNamed n.toNat = true → 64 ≤ n.toNat → s.cls ≠ .drover → s.destOk r = true → s.srcOk a = true →
      exec (.cfr t r n) s = .next (s.faulted .PRIV 0 0) ∧ exec (.cfw t a n) s = .next (s.faulted .PRIV 0 0))) ∧
  (∀ (s u w q : State) (a b : BitVec 6) (n : BitVec 10) (x p : W64) (sp : Spot) (pl : Place),
    s.Issues .C false → s.srcOk a = true → s.srcOk b = true → s.Reads2 a b x p u → strandStores s.tm s.strand = [] →
    s.raiseSerr = .ok () → (tagNum p = 0 ∨ tagNum p = 4) →
    u.released u.me = .ok w →
    let pol := if tagNum p = 0 then 3 else 0
    w.checkEa w.me p p 8 8 pol = .ok sp → boardFree w.tm p 8 = .ok () →
    ((n = 0 ∧ w.placeOf w.me sp 8 pol .write p = .ok (pl, q) ∨ n = 1 ∧ w.placeOf w.me sp 8 pol .both p = .ok (pl, q)) →
      exec (.signal a b n) s = .next ((q.enqueueStore pl p 8 (some (leBytes 8 x.toNat)) (n == 1)).past .C))) ∧
  (∀ (s v : State) (w : Who) (e : StoreEnt) (pl : Place) (x : W64) (old : Nat), e.again = false → e.place = pl →
    (e.add = false → s.doStore w pl (leBytes 8 x.toNat) e.ea = .ok v → s.performEnt w e (leBytes 8 x.toNat) = .ok v) ∧
    (e.add = true → s.doAtomic w pl (.amo 0) x 0 e.ea = .ok (old, v) → s.performEnt w e (leBytes 8 x.toNat) = .ok v))

/-- `HALT`, `TLBI` and `ERET` on a DROVER core (R175 to R177): each has its effect; on any other core each raises `PRIV`.
`TLBI_INVALIDATE_MESSAGE` and `TLBI_ACK` complete (R176, R304): a die whose translated accesses are performed drops the entries that its
first message that has reached it names, and the core that sent it counts the die's acknowledgement. That an acknowledgement without a route
is lost is the model's choice (log 64). -/
def Obligations.PrivilegedWordsComplete : Prop :=
  (∀ (s u : State) (a b : BitVec 6) (n : BitVec 10) (x y : W64),
    s.Issues .C false →
    (s.cls = .drover →
      (s.tm.sq = [] → exec .halt s = .next ((s.haltCore s.cur).past .C)) ∧
      (s.exa s.cur = true → exec .eret s = .next ((s.leaveException s.cur).retire false (s.leaveException s.cur).st.pc false)) ∧
      (s.exa s.cur = false → exec .eret s = .next (s.faulted .ILLEGAL 0 0)) ∧
      (s.tlbiOk a b n = true → s.Reads2 a b x y u →
        ((s.core s.cur).tlbi = some [] →
          exec (.tlbi a b n) s = .next ((u.setCore u.cur { u.core u.cur with tlbi := none }).past .C)) ∧
        ((s.core s.cur).tlbi = none →
          let sites := s.xlatSites (coreDrv s.cur)
          exec (.tlbi a b n) s = .next (((s.setCore s.cur { s.core s.cur with tlbi := some sites }).sendTlbi
            { kind := n.toNat, asid := fieldW x 10 0, va := fieldW y 51 0, by_ := some s.cur, from_ := s.cur.site, lost := false } sites).noteHold .stall)))) ∧
    (s.cls ≠ .drover →
      exec .halt s = .next (s.faulted .PRIV 0 0) ∧ exec .eret s = .next (s.faulted .PRIV 0 0) ∧
      (s.tlbiOk a b n = true → exec (.tlbi a b n) s = .next (s.faulted .PRIV 0 0)))) ∧
  (∀ (s : State) (m : TlbiMsg) (l : List Nat),
    let site := s.ev.site
    let u := s.settle (s.coresAt site)
    ((s.die site).tlbiIn.find? (fun m => !m.lost) = some m →
      let rest := (u.die site).tlbiIn.erase m
      ((∀ c ∈ s.coresAt site, u.settled m c = true) → exec .tlbiInvalidateMessage s =
        .next (u.setDie site { u.die site with
          tlb := (u.die site).tlb.filter fun e => !tlbiHits m e,
          tlbiIn := if u.routed site m.from_ = true then rest else { m with lost := true } :: rest })) ∧
      ((∃ c ∈ s.coresAt site, u.settled m c = false) → exec .tlbiInvalidateMessage s = .next u)) ∧
    ((s.core s.ev.core).tlbi = some l → site ∈ l → (∀ m ∈ (s.die site).tlbiIn, m.by_ ≠ some s.ev.core) →
      exec .tlbiAck s = .next (s.setCore s.ev.core { s.core s.ev.core with tlbi := some (l.filter (· != site)) })))


/-! ### Vector words (R193 to R226) -/

/-- The floating element words complete (R198, R199): each element of the result is the rounded result of the elements in its place, under
the entry that the slot selects (R87); an entry whose elements are not FP32, BF16 or FP16 raises `FMT` before anything is read, and a `VUNA` with
SB 7 to 63, as every one of these words with a selector that may not stand in its field, raises `ILLEGAL`. -/
def Obligations.VectorFloatWordsGiveTheirResults : Prop :=
  (∀ (s : State) (d : Bool) (r a b : BitVec 6) (k : BitVec 3), s.strand = .X →
    (∀ e ∈ ([.vadd d r a b k, .vsub d r a b k, .vmul d r a b k, .vmin d r a b k, .vmax d r a b k] : List Instr),
      (s.destOk r && s.srcOk a && s.srcOk b) = false → exec e s = .next (s.faulted .ILLEGAL 0 0)) ∧
    (∀ e ∈ ([.vfma d r a b k, .vfnma d r a b k] : List Instr),
      (decide (r.toNat < 48) && s.srcOk a && s.srcOk b) = false → exec e s = .next (s.faulted .ILLEGAL 0 0)) ∧
    ((s.destOk r && s.srcOk a && decide (b.toNat < 7)) = false → exec (.vuna d r a b k) s = .next (s.faulted .ILLEGAL 0 0)) ∧
    (∀ e ∈ ([.vrcp d r a k, .vrsq d r a k, .vexp2 d r a k, .vlog2 d r a k] : List Instr),
      (s.destOk r && s.srcOk a) = false → exec e s = .next (s.faulted .ILLEGAL 0 0))) ∧
  ∀ (s u : State) (d : Bool) (r a b : BitVec 6) (k : BitVec 3) (x y : List W32),
    let f := s.fmtEntry k.toNat
    let w := enBits f
    let num := decElem f
    s.Issues .X false → s.srcOk a = true →
    (∀ e ∈ ([(.vadd d r a b k, fun p q => addN (enRnd f) (num p) (num q)),
        (.vsub d r a b k, fun p q => addN (enRnd f) (num p) (num q).neg), (.vmul d r a b k, fun p q => mulN (num p) (num q)),
        (.vmin d r a b k, fun p q => minN (num p) (num q)), (.vmax d r a b k, fun p q => maxN (num p) (num q))] :
          List (Instr × (Nat → Nat → ExNum))),
      s.destOk r = true → s.srcOk b = true →
      (fmtFits f elFloat = true → s.Lanes2 a b x y u → s.room d r = .ok () →
        exec e.1 s = .next ((u.vput d r (List.zipWith (lane2 w fun p q => encF f (e.2 p q)) x y)).past .X)) ∧
      (fmtFits f elFloat = false → exec e.1 s = .next (s.faulted .FMT 0 0))) ∧
    (∀ e ∈ ([(.vfma d r a b k, fun p q => mulN (num p) (num q)), (.vfnma d r a b k, fun p q => (mulN (num p) (num q)).neg)] :
          List (Instr × (Nat → Nat → ExNum))),
      regOk r = true → s.srcOk b = true →
      (fmtFits f elFloat = true → s.Lanes2 a b x y u →
        exec e.1 s = .next ((u.vput d r
          (zip3 (lane3 w fun c p q => encF f (addN (enRnd f) (num c) (e.2 p q))) (s.vreg r.toNat) x y)).past .X)) ∧
      (fmtFits f elFloat = false → exec e.1 s = .next (s.faulted .FMT 0 0))) ∧
    (∀ e ∈ ([(.vuna d r a 0 k, fun p => ffEncode (enFmt f) 0 false (num p).abs), (.vuna d r a 1 k, fun p => ffEncode (enFmt f) 0 false (num p).neg),
        (.vuna d r a 2 k, fun p => ffEncode (enFmt f) 0 false (integral 3 (num p))),
        (.vuna d r a 3 k, fun p => ffEncode (enFmt f) 0 false (integral 2 (num p))),
        (.vuna d r a 4 k, fun p => ffEncode (enFmt f) 0 false (integral 0 (num p))),
        (.vuna d r a 5 k, fun p => ffEncode (enFmt f) 0 false (integral 1 (num p))), (.vuna d r a 6 k, fun p => encF f (sqrtN (num p))),
        (.vrcp d r a k, fun p => encF f (recipN (num p))), (.vrsq d r a k, fun p => encF f (rsqrtN (num p))),
        (.vexp2 d r a k, fun p => exp2F (enFmt f) (enRnd f) (enSat f) (num p)),
        (.vlog2 d r a k, fun p => log2F (enFmt f) (enRnd f) (enSat f) (num p))] : List (Instr × (Nat → Nat))),
      s.destOk r = true →
      (fmtFits f elFloat = true → s.Lanes1 a x u → s.room d r = .ok () →
        exec e.1 s = .next ((u.vput d r (x.map (lane1 w e.2))).past .X)) ∧
      (fmtFits f elFloat = false → exec e.1 s = .next (s.faulted .FMT 0 0)))

/-- The integer element words complete (R209, R210): each element of the result is the exact result of the elements in its place, wrapped
or saturated as the entry says. A `VIMNX` with SB 4 to 63, as every one of these words with a selector that may not stand in its field, raises
`ILLEGAL`.
An operation on packed elements puts the result for each place at that place (R193): element `i` of the packed result is the operation
on element `i` of each operand, within the width of an element. -/
def Obligations.VectorIntegerWordsGiveTheirResults : Prop :=
  (∀ (s : State) (d : Bool) (r a b : BitVec 6) (k : BitVec 3), s.strand = .X →
    (∀ e ∈ ([.viadd d r a b k, .visub d r a b k, .vimul d r a b k, .vshl d r a b k, .vshr d r a b k, .vsra d r a b k, .vand d r a b,
        .vor d r a b, .vxor d r a b] : List Instr),
      (s.destOk r && s.srcOk a && s.srcOk b) = false → exec e s = .next (s.faulted .ILLEGAL 0 0)) ∧
    ((decide (r.toNat < 48) && s.srcOk a && decide (b.toNat < 4)) = false → exec (.vimnx d r a b k) s = .next (s.faulted .ILLEGAL 0 0))) ∧
  (∀ (s u : State) (d : Bool) (r a b : BitVec 6) (k : BitVec 3) (x y : List W32),
    let f := s.fmtEntry k.toNat
    let w := enBits f
    let int := fun c : Nat => if enElem f = 8 then (c : Int) else sextNat w c
    s.Issues .X false → s.srcOk a = true →
    (∀ e ∈ ([(.viadd d r a b k, fun p q => putInt f (int p + int q)), (.visub d r a b k, fun p q => putInt f (int p - int q)),
        (.vimul d r a b k, fun p q => putInt f (int p * int q)), (.vshl d r a b k, fun p q => p * 2 ^ (q % w) % 2 ^ w),
        (.vshr d r a b k, fun p q => p / 2 ^ (q % w)),
        (.vsra d r a b k, fun p q => (Int.fdiv (sextNat w p) (2 ^ (q % w)) % 2 ^ w).toNat)] : List (Instr × (Nat → Nat → Nat))),
      s.destOk r = true → s.srcOk b = true →
      (fmtFits f elInt = true → s.Lanes2 a b x y u → s.room d r = .ok () →
        exec e.1 s = .next ((u.vput d r (List.zipWith (lane2 w e.2) x y)).past .X)) ∧
      (fmtFits f elInt = false → exec e.1 s = .next (s.faulted .FMT 0 0))) ∧
    (∀ e ∈ ([(.vand d r a b, fun p q => p &&& q), (.vor d r a b, fun p q => p ||| q), (.vxor d r a b, fun p q => p ^^^ q)] :
          List (Instr × (W32 → W32 → W32))),
      s.destOk r = true → s.srcOk b = true → s.Lanes2 a b x y u → s.room d r = .ok () →
        exec e.1 s = .next ((u.vput d r (List.zipWith e.2 x y)).past .X)) ∧
    (∀ e ∈ ([(.vimnx d r a 0 k, fun p q => if sextNat w p ≤ sextNat w q then p else q),
        (.vimnx d r a 1 k, fun p q => if sextNat w p ≤ sextNat w q then q else p), (.vimnx d r a 2 k, fun p q => min p q),
        (.vimnx d r a 3 k, fun p q => max p q)] : List (Instr × (Nat → Nat → Nat))),
      regOk r = true →
      (fmtFits f elInt = true → s.Lanes1 a x u → s.room d r = .ok () →
        exec e.1 s = .next ((u.vput d r (List.zipWith (lane2 w e.2) (s.vreg r.toNat) x)).past .X)) ∧
      (fmtFits f elInt = false → exec e.1 s = .next (s.faulted .FMT 0 0)))) ∧
  (∀ (w i : Nat) (f : Nat → Nat → Nat) (x y : W32), w ∈ [4, 8, 16, 32] → i < 32 / w →
    (lane2 w f x y).extractLsb' (i * w) w =
      BitVec.ofNat w (f (x.extractLsb' (i * w) w).toNat (y.extractLsb' (i * w) w).toNat))

/-- The words that convert, pack, scale, reduce and quantise complete (R202 to R206, R212, R224 to R226). A `VCVT` or `VUNPK` with SB 8 to 63, as
every one of these words with a selector that may not stand in its field, raises `ILLEGAL`. -/
def Obligations.VectorConversionWordsGiveTheirResults : Prop :=
  (∀ (s : State) (d : Bool) (r a b : BitVec 6) (k : BitVec 3), s.strand = .X →
    (∀ e ∈ ([.vdot d r a b k, .vscl2 d r a b k, .vqnt d r a b k, .vdqnt d r a b k, .vpack d r a b k] : List Instr),
      (s.destOk r && s.srcOk a && s.srcOk b) = false → exec e s = .next (s.faulted .ILLEGAL 0 0)) ∧
    ((decide (r.toNat < 48) && s.srcOk a && s.srcOk b) = false → exec (.vdota d r a b k) s = .next (s.faulted .ILLEGAL 0 0)) ∧
    (∀ e ∈ ([.vcvt d r a b k, .vunpk d r a b k] : List Instr),
      (s.destOk r && s.srcOk a && decide (b.toNat < 8)) = false → exec e s = .next (s.faulted .ILLEGAL 0 0)) ∧
    (∀ e ∈ ([.vrsum d r a k, .vrmax d r a k, .vscan d r a k] : List Instr),
      (s.destOk r && s.srcOk a) = false → exec e s = .next (s.faulted .ILLEGAL 0 0))) ∧
  ∀ (s u : State) (d : Bool) (r a b : BitVec 6) (k : BitVec 3) (x y : List W32),
    let f := s.fmtEntry k.toNat
    let w := enBits f
    let n := s.lanes
    let dots := dotLanes f (groupLanes f) x.length x y
    s.Issues .X false → s.srcOk a = true →
    (∀ e ∈ ([(.vdot d r a b k, fmtFits f elPacked, dots.map (encL f)),
        (.vscl2 d r a b k, enOk f && enScale f != 0,
          List.zipWith (fun p q => encL f (mulN (mulN (decScale f (q.toNat % 65536)) (decScale f (q.toNat / 65536))) (f32 p))) x y),
        (.vqnt d r a b k, quantFits f, packLanes w n
          (List.zipWith (fun p q => encElem f (enRnd f) (quotN (f32 p) (decScale f (q.toNat % 65536)))) x y)),
        (.vdqnt d r a b k, quantFits f,
          List.zipWith (fun c q => encL f (mulN (decElem f c) (decScale f (q.toNat % 65536)))) (allElems w x) y),
        (.vpack d r a b k, fmtFits f elPacked, packLanes w n ((x ++ y).map fun v => v.toNat % 2 ^ w))] : List (Instr × Bool × List W32)),
      s.destOk r = true → s.srcOk b = true →
      (e.2.1 = true → s.Lanes2 a b x y u → s.room d r = .ok () → exec e.1 s = .next ((u.vput d r e.2.2).past .X)) ∧
      (e.2.1 = false → exec e.1 s = .next (s.faulted .FMT 0 0))) ∧
    (regOk r = true → s.srcOk b = true →
      (fmtFits f elPacked = true → s.Lanes2 a b x y u → exec (.vdota d r a b k) s =
        .next ((u.vput d r (List.zipWith (fun c v => encL f (addN (enRnd f) (f32 c) v)) (s.vreg r.toNat) dots)).past .X)) ∧
      (fmtFits f elPacked = false → exec (.vdota d r a b k) s = .next (s.faulted .FMT 0 0))) ∧
    (∀ e ∈ ([(.vcvt d r a b k, decide (b.toNat < 8), enOk f && enOk (s.fmtEntry b.toNat),
          packLanes (enBits (s.fmtEntry b.toNat)) n ((allElems w x).map fun c =>
            encElem (s.fmtEntry b.toNat) (enRnd (s.fmtEntry b.toNat)) (decElem f c))),
        (.vunpk d r a b k, decide (b.toNat < 8), fmtFits f elPacked && decide (b.toNat < 32 / w),
          (((allElems w x).drop (b.toNat * n)).take n).map (widen f)),
        (.vrsum d r a k, true, fmtFits f elFP32,
          lane0 n ((treeFold (fun p q => encL f (addN (enRnd f) (f32 p) (f32 q))) 7 (s.maskLanes 0 x)).getD 0 0)),
        (.vrmax d r a k, true, fmtFits f elFP32, s.maxLanes f x),
        (.vscan d r a k, true, fmtFits f elFP32, match s.maskLanes 0 x with
          | [] => []
          | v :: t => encL f (f32 v) :: scanFrom f (encL f (f32 v)) t)] : List (Instr × Bool × Bool × List W32)),
      s.destOk r = true → e.2.1 = true →
      (e.2.2.1 = true → s.Lanes1 a x u → s.room d r = .ok () → exec e.1 s = .next ((u.vput d r e.2.2.2).past .X)) ∧
      (e.2.2.1 = false → exec e.1 s = .next (s.faulted .FMT 0 0)))

/-- The words that move lanes, compare and set masks complete (R194, R200, R201, R207, R208, R211, R213). Mask 7 as a destination, a `VMLOG` with
FS 7 or with an operand that its FS does not have, and a selector that may not stand in its field raise `ILLEGAL`. -/
def Obligations.VectorMovesAndMasksComplete : Prop :=
  (∀ (s : State) (d : Bool) (r a b : BitVec 6) (c m k : BitVec 3), s.strand = .X →
    ((m = 7 ∨ s.srcOk a = false ∨ s.srcOk b = false) →
      exec (.vcmp d c m a b k) s = .next (s.faulted .ILLEGAL 0 0) ∧ exec (.vicmp d c m a b k) s = .next (s.faulted .ILLEGAL 0 0)) ∧
    ((m = 7 ∨ k = 7 ∨ (k = 6 ∧ s.srcOk a = false) ∨ (k ≠ 6 ∧ 8 ≤ a.toNat) ∨ ((k = 5 ∨ k = 6) ∧ b ≠ 0) ∨ (k < 5 ∧ 8 ≤ b.toNat)) →
      exec (.vmlog d m a b k) s = .next (s.faulted .ILLEGAL 0 0)) ∧
    (∀ e ∈ ([(.vsel d r a b, true), (.vperm d r a b, true), (.vrot d r a b, true), (.vbcast d r a b, true), (.viota d r a b, true),
        (.vins d r a b, true), (.vext a b, false)] : List (Instr × Bool)),
      ((e.2 = true ∧ s.destOk r = false) ∨ s.srcOk a = false ∨ s.srcOk b = false) → exec e.1 s = .next (s.faulted .ILLEGAL 0 0)) ∧
    ((s.destOk r && s.srcOk a) = false → exec (.vmov d r a) s = .next (s.faulted .ILLEGAL 0 0))) ∧
  ∀ (s u v : State) (d : Bool) (r a b : BitVec 6) (c m k : BitVec 3) (x y : List W32) (z : W64),
    let n := s.lanes
    s.Issues .X false →
    (s.srcOk a = true → s.srcOk b = true → s.Lanes2 a b x y u →
      (∀ e ∈ ([(.vsel d r a b, List.zipWith (fun (p : Nat × W32) q => if s.laneOn p.1 then p.2 else q) (numbered x) y),
          (.vperm d r a b, y.map fun i => x.getD (i.toNat % n) 0),
          (.vrot d r a b, (List.range n).map fun i => x.getD ((i + (lanes64 y).toNat) % n) 0),
          (.vbcast d r a b, List.replicate n (x.getD ((lanes64 y).toNat % n) 0)),
          (.viota d r a b, (List.range n).map fun i => x.getD 0 0 + y.getD 0 0 * BitVec.ofNat 32 i)] : List (Instr × List W32)),
        s.destOk r = true → s.room d r = .ok () → exec e.1 s = .next ((u.vput d r e.2).past .X)) ∧
      (pushCheck s.tm .xc = .ok () → exec (.vext a b) s =
        .next ((u.setTm (u.tm.pushQ .xc ((x.getD ((lanes64 y).toNat % n) 0).setWidth 64))).past .X)) ∧
      (s.destOk r = true → s.room d r = .ok () → popCheck s.tm.cx.length 1 (qGone s.tm .cx) = .ok () → u.popNamed .cx = .ok (z, v) →
        exec (.vins d r a b) s = .next ((v.vput d r (lset x ((lanes64 y).toNat % n) (lo32 z))).past .X)) ∧
      (m ≠ 7 →
        (fmtFits (s.fmtEntry k.toNat) elFP32 = true →
          exec (.vcmp d c m a b k) s = .next ((u.putMask d m (List.zipWith (vcmpCond c) x y)).past .X)) ∧
        (fmtFits (s.fmtEntry k.toNat) elWord = true →
          exec (.vicmp d c m a b k) s = .next ((u.putMask d m (List.zipWith (vicmpCond c) x y)).past .X)))) ∧
    (s.srcOk a = true → s.Lanes1 a x u →
      (s.destOk r = true → s.room d r = .ok () → exec (.vmov d r a) s = .next ((u.vput d r x).past .X)) ∧
      (m ≠ 7 → exec (.vmlog d m a 0 6) s = .next ((u.putMask d m (x.map fun v => v != 0)).past .X))) ∧
    (m ≠ 7 → a.toNat < 8 →
      let bit := fun (q : BitVec 6) i => (s.mask (q.setWidth 3)).getLsbD i
      (∀ e ∈ ([(0, fun p q => p && q), (1, fun p q => p || q), (2, fun p q => p ^^ q), (3, fun p q => p && !q), (4, fun p q => p || !q)] :
            List (BitVec 3 × (Bool → Bool → Bool))), b.toNat < 8 →
        exec (.vmlog d m a b e.1) s = .next ((s.putMask d m ((List.range n).map fun i => e.2 (bit a i) (bit b i))).past .X)) ∧
      exec (.vmlog d m a 0 5) s = .next ((s.putMask d m ((List.range n).map fun i => !bit a i)).past .X)) ∧
    exec (.vmset m) s = .next ((s.setTm { s.tm with amask := m }).past .X)

/-- The vector memory words complete (R214 to R217): a whole vector is loaded or stored through the queues of A; a gather gives the words
that its active lanes read, and a scatter leaves a store for each active lane. -/
def Obligations.VectorMemoryWordsComplete : Prop :=
  ∀ (s u q v : State) (d : Bool) (r a b : BitVec 6) (p : BitVec 2) (o : BitVec 7) (g : W64) (pl : Place) (bs : List Byte)
    (x y l : List W32) (es : List StoreEnt),
    let n := 4 * Config.lanes (coreCls s.cur)
    let ea : W64 := g + BitVec.ofInt 64 (o.toInt * n)
    s.srcOk a = true →
    (s.Issues .A false → s.Reads1 a g u → vecSpace g = true →
      (u.access g ea n n p.toNat .read = .ok (pl, q) → q.orderFree pl = .ok () →
        (q.loadFree = .ok () → q.doLoad q.me pl n ea = .ok (bs, v) → exec (.ldv true a p o) s = .next (v.past .A)) ∧
        (dqCheck s.tm = .ok () → q.enqueueLoad pl ea n false true = .ok v → exec (.ldv false a p o) s = .next (v.past .A))) ∧
      (u.access g ea n n p.toNat .write = .ok (pl, q) → q.orderFree pl = .ok () →
        exec (.stv a p o) s = .next ((q.enqueueStore pl ea n none).past .A))) ∧
    (s.Issues .X false → s.srcOk b = true → s.Lanes2 a b x y u →
      (s.destOk r = true → s.room d r = .ok () →
        (u.gather (lanes64 x) false (numbered y) = .ok (l, v) → exec (.vgath d r a b) s = .next ((v.vput d r l).past .X)) ∧
        (u.gather (lanes64 x) true (numbered y) = .ok (l, v) → exec (.vgathx d r a b) s = .next ((v.vput d r l).past .X))) ∧
      (regOk r = true → u.scatter (lanes64 x) (s.vreg r.toNat) (numbered y) = .ok (es, v) →
        exec (.vscat r a b) s = .next ((v.setTm { v.tm with scat := v.tm.scat ++ es }).past .X)))

/-- The port words and the steps of the ports complete (R218 to R223): a port is set from its descriptor, runs from the start of its walk,
fetches ahead while its buffer has room, writes the entries that it has claimed and is done with the last, and is halted once none of them is
left to write. A walk of no operand is done as it starts, which is the model's choice (log 67). -/
def Obligations.StreamPortsComplete : Prop :=
  ∀ (s u : State) (p : BitVec 3) (a g r : BitVec 6) (m : BitVec 7) (b : W64) (l : List W32) (row left : Nat) (f : Flt)
    (rest : List Claim) (e : SdqEnt) (es : List SdqEnt),
    let q := s.tm.port p.toNat
    (s.Issues .A false → p.toNat < 6 →
      (s.srcOk a = true → s.Reads1 a b u → g.toNat ≤ 44 → g.toNat % 4 = 0 → m.toNat < 8 → (m.getLsbD 2 = true → p.toNat < 4) →
        hi32 (s.descr g 1) = 0 → hi32 (s.descr g 3) = 0 →
        (q.st ≠ .run → q.st ≠ .fault → q.wait = false →
          let q' : Port := { q with
            st := .set, base := b, n0 := (lo32 (s.descr g 0)).toNat, n1 := (hi32 (s.descr g 0)).toNat, n2 := (lo32 (s.descr g 1)).toNat,
            s0 := (lo32 (s.descr g 2)).toInt, s1 := (hi32 (s.descr g 2)).toInt, s2 := (lo32 (s.descr g 3)).toInt,
            rep := m.getLsbD 2, pol := (m.setWidth 2).toNat, pos := 0, csr := none, code := none, wait := false }
          exec (.pset p a g m) s = .next ((u.setTm (u.tm.setPort p.toNat q')).past .A)) ∧
        (q.st = .run ∨ q.st = .fault → exec (.pset p a g m) s =
          .next ((s.setTm (s.tm.setPort p.toNat { q with wait := true })).noteHold .stall))) ∧
      (q.st = .idle → exec (.pgo p) s = .next (s.faulted .QUEUE 0 0)) ∧
      (q.st = .set ∨ q.st = .done ∨ q.st = .halted →
        let row := match q.csr with | some c => c.i0 | none => 0
        let st : PortState := if portTotal q = 0 then .done else .run
        let claims := if 4 ≤ p.toNat ∧ portTotal q ≠ 0 then s.tm.claims ++ [.port p.toNat (portTotal q)] else s.tm.claims
        let t : TeamSt := { s.tm.setPort p.toNat { q with st := st, pos := 0, pc := s.st.pc, row := row } with claims := claims }
        exec (.pgo p) s = .next ((s.setTm (if s.tm.x.exited = true then t.failClaims else t)).past .A)) ∧
      (q.st = .run ∨ q.st = .fault → exec (.pgo p) s = .next (s.past .A)) ∧
      (q.st ≠ .run → q.st ≠ .fault → exec (.phalt p) s = .next (s.past .A)) ∧
      (q.st = .run ∨ q.st = .fault → filledFor p.toNat s.tm.claims s.tm.sdq.length = false → ∃ t : TeamSt, exec (.phalt p) s = .next ((s.setTm t).past .A) ∧
        (t.port p.toNat).st = .halted ∧ (t.port p.toNat).buf = [] ∧ ∀ k, k ≠ p.toNat → t.port k = s.tm.port k) ∧
      (s.destOk r = true → s.room false r = .ok () →
        exec (.pstat p r) s = .next ((s.put false r (portStatus p.toNat q)).past .A))) ∧
    (let c := s.ev.core
     let k := s.ev.n
     let h := (s.team c).port k
     let good : PortOp := { lanes := l, poison := none }
     let bad : PortOp := { lanes := [], poison := some ⟨f.code, f.addr, f.aux⟩ }
     let v := s.markBad f.bad
     k < 4 → h.st = .run → h.buf.length < 8 → h.pos < portTotal h → (s.core c).run = true →
      (s.portFetch c h = .ok (l, row, u) → exec .portOperandFetch s =
        .next (u.setTeam c ((u.team c).setPort k { portNext h with buf := h.buf ++ [good], row := row }))) ∧
      (s.portFetch c h = .error (.fault f) → exec .portOperandFetch s =
        .next (v.setTeam c ((v.team c).setPort k { h with st := .fault, buf := h.buf ++ [bad], code := some f.code })))) ∧
    (let c := s.ev.core
     let k := s.ev.n
     let h := (s.team c).port k
     let more := if left = 1 then rest else .port k (left - 1) :: rest
     (s.team c).claims = .port k left :: rest → left ≠ 0 → (s.team c).sdq = e :: es → s.portWrite c h e = .ok u →
      let h' := portNext { h with rep := false }
      let t : TeamSt := { (u.team c).setPort k (if left = 1 then { h' with st := .done, pos := portTotal h } else h') with sdq := es, claims := more }
      exec .writePortWrite s = .next (u.setTeam c t.feed))

/-! ### Class words of SPARSE, SORT and CUBE cores (R228 to R271) -/

/-- The words of SPARSE cores complete (R258 to R264): the searches of `MPATH`, the ports of a CSR walk, the segmented sums and the carry.
The words of SORT cores complete (R265 to R270): `SBIT` gives its 32 keys in order with equal keys kept in theirs and PERM naming the
source of each, `SMRG` merges, `STOPK` keeps the largest and `SPAY` moves payloads as PERM says. The address and the auxiliary word of the
`BOUNDS` of `CSRW` (log 68), and that an `MPATH` reads its words in one step (log 29), are the model's choices. -/
def Obligations.SparseAndSortWordsComplete : Prop :=
  (∀ (s u v : State) (d : Bool) (r a b g : BitVec 6) (k p : BitVec 3) (w : BitVec 1) (o : BitVec 2) (x y l : List W32) (c : W64),
    let f := s.fmtEntry k.toNat
    (s.Issues .X false → s.srcOk a = true → s.srcOk b = true → s.Lanes2 a b x y u →
      (regOk r = true →
        (u.pathLanes (lanes64 x) (y.getD 0 0).toNat (y.getD 1 0).toNat (numbered (s.vreg r.toNat)) = .ok (l, v) →
          exec (.mpath d r a b) s = .next ((v.vput d r l).past .X)) ∧
        (fmtFits f elFP32 = true →
          exec (.segsum d r a b k) s = .next ((u.vput d r (segFrom f ((s.vreg r.toNat).getD 0 0) true (List.zip x y))).past .X))) ∧
      (s.destOk r = true → s.room d r = .ok () →
        let row := y.getD 31 0 &&& 0x7FFFFFFF
        let carry := if (y.getD 31 0).getLsbD 31 = true then [0, row + 1] else [x.getD 31 0, row]
        exec (.segcar d r a b) s = .next ((u.vput d r (carry ++ List.replicate (s.lanes - 2) 0)).past .X))) ∧
    (s.Issues .A false → s.srcOk a = true → s.Reads1 a c u → g.toNat ≤ 44 → g.toNat % 4 = 0 →
      let rows := decide (w = 1)
      let j0 := (lo32 c).toNat
      let cnt := (hi32 c).toNat
      let m := (hi32 (s.descr g 3)).toNat
      let i0 := (lo32 (s.descr g 3)).toNat
      let n := if rows then 3 else 2
      p.toNat + n < 5 →
      (2 ^ 32 < j0 + cnt ∨ (rows = true ∧ (2 ^ 31 ≤ m ∨ m < i0)) → exec (.csrw p a g w o) s = .next (s.faulted .BOUNDS 0 0)) ∧
      (j0 + cnt ≤ 2 ^ 32 → (rows = true → m < 2 ^ 31 ∧ i0 ≤ m) → (∀ e < n, portHeld (s.tm.port (p.toNat + e)) = false) →
        ∃ t : TeamSt, exec (.csrw p a g w o) s = .next ((u.setTm t).past .A) ∧
          (∀ e < n, let q := t.port (p.toNat + e)
            let walk : Csr := { role := e, j0 := j0, cnt := cnt, cols := s.descr g 0, vals := s.descr g 1, ends := s.descr g 2, m := m, i0 := i0 }
            q.st = .set ∧ q.csr = some walk ∧ q.pos = 0 ∧ q.row = i0 ∧ q.pol = o.toNat ∧ q.rep = false) ∧
          (∀ e, (e < p.toNat ∨ p.toNat + n ≤ e) → t.port e = u.tm.port e)))) ∧
  (∀ (s u v : State) (d : Bool) (r a b : BitVec 6) (f : BitVec 1) (x y : List W32),
    s.Issues .X false →
    (s.destOk r = true → s.srcOk a = true → s.Lanes1 a x u → s.room d r = .ok () →
      exec (.skey d r a f) s = .next ((u.vput d r (x.map (if f = 1 then keyValue else sortKey))).past .X) ∧
      ∃ l : List (W32 × Nat),
        exec (.sbit d r a f) s =
          .next (((u.setPerm (l.map (·.2) ++ (List.range 32).map (· + 32))).vput d r (l.map (·.1))).past .X) ∧
        l.Perm x.zipIdx ∧
        l.Pairwise fun p q => (if f = 1 then q.1.toNat < p.1.toNat else p.1.toNat < q.1.toNat) ∨ (p.1 = q.1 ∧ p.2 < q.2)) ∧
    (s.destOk r = true → regOk a = true → s.srcOk b = true → r ≠ a → s.popsOk [b] = .ok () → s.room d r = .ok () →
      s.vsrc a = .ok (x, v) → v.vsrc b = .ok (y, u) →
      let l := mergeKeys (f == 1) x y 64 0 0
      exec (.smrg d r a b f) s = .next ((((u.setPerm (l.map (·.2))).vput d r ((l.take 32).map (·.1))).vput d a
        ((l.drop 32).map (·.1))).past .X)) ∧
    (regOk r = true → s.srcOk a = true → b ≠ 0 → b.toNat ≤ 32 → s.Lanes1 a x u →
      let k := b.toNat
      let l := (sortKeys true ((s.vreg r.toNat).zipIdx.take k ++ (x.zipIdx).map fun e => (e.1, e.2 + 32))).take k
      exec (.stopk d r a b) s = .next (((u.setPerm (l.map (·.2) ++ List.replicate (64 - k) 64)).vput d r
        (l.map (·.1) ++ List.replicate (32 - k) 0)).past .X)) ∧
    (s.destOk r = true → s.srcOk a = true → s.srcOk b = true → s.Lanes2 a b x y u → s.room d r = .ok () →
      exec (.spay d r a b f) s =
        .next ((u.vput d r ((List.range 32).map fun k => payAt x y (s.tm.permAt (32 * f.toNat + k)))).past .X)))

/-- A tile written whole shows at every place of its shape what was given for that place (R231, R232).
The tile words complete (R244, R245, R247, R248): the first tile takes, element by element, what the word makes of its operands. -/
def Obligations.TileWordsComplete : Prop :=
  (∀ (t : Tile) (f : Nat → Nat → W32) (r c : Nat), r < shRows t.shape → c < shCols t.shape →
    (t.fill f).at r c = f r c ∧ (t.fill f).shape = t.shape ∧ (t.fill f).poison = none) ∧
  (∀ (s u : State) (a b g : BitVec 7) (c : BitVec 6) (z : W64),
    let t := s.tm
    let f := s.fmtEntry (t.stage 8)
    let h := s.fmtEntry (t.stage 5)
    let o := t.tileOf a
    let y := t.tileOf b
    let type := fun e : BitVec 7 => shType (t.tileOf e).shape
    s.Issues .X false → tileDir a = 0 → tileDir b ≠ 3 → tileDir g ≠ 3 →
    (enOk h = true → enOk f = true → enBlk f = 0 → s.tilesFree [a, b] = .ok () → s.coversTile b o = true → type b = typeOf h →
      type a = typeOf f → y.poison = none →
      exec (.tcvt a b) s = .next ((s.putTile a (o.fill fun r c => code32 (encElem f (enRnd f) (t.eff b h r c)))).past .X)) ∧
    (∀ e ∈ ([(.teadd a b g, addN, (· + ·)), (.tesub a b g, fun m x y => addN m x y.neg, (· - ·)), (.temul a b g, fun _ => mulN, (· * ·)),
        (.temax a b g, fun _ => maxN, max)] : List (Instr × (Nat → ExNum → ExNum → ExNum) × (Int → Int → Int))),
      elTile f = true → s.tilesFree [a, b, g] = .ok () → s.coversTile b o = true → s.coversTile g o = true →
      type a = typeOf f → type b = typeOf f → type g = typeOf f → y.poison = none → (t.tileOf g).poison = none →
      exec e.1 s = .next ((s.putTile a (o.fill fun r c => tileOp f e.2.1 e.2.2 (t.effCode b r c) (t.effCode g r c))).past .X)) ∧
    (elTile f = true → s.srcOk c = true → s.Reads1 c z u → s.tilesFree [a, b] = .ok () → tileDir b ≠ 2 → fieldW z 1 0 ≠ 3 →
      let rows := if tileDir b = 1 then shCols y.shape else shRows y.shape
      rows ≤ shRows o.shape → t.ix1.toNat < shCols o.shape → type a = typeOf f → type b = typeOf f → y.poison = none →
      exec (.tred a b c) s = .next ((u.putTile a (o.fill fun r q =>
        if r < rows ∧ q = t.ix1.toNat then
          redLine (fieldW z 1 0) f ((List.range (effCols y.shape (tileDir b))).map fun q => t.effCode b r q)
        else o.at r q)).past .X)) ∧
    (s.tilesFree [a, b] = .ok () → type a = type b → enBlk (type a) = 0 → y.poison = none →
      let line := if tileDir b = 0 then t.ix0.toNat else if tileDir b = 1 then t.ix1.toNat else t.ix2.toNat
      line < (if tileDir b = 0 then shRows y.shape else shCols y.shape) →
      shCols o.shape ≤ (if tileDir b = 0 then shCols y.shape else shRows y.shape) →
      exec (.tbcast a b) s = .next ((s.putTile a (o.fill fun _ q =>
        if tileDir b = 0 then y.at line q else if tileDir b = 1 then y.at q line
        else y.at q ((q + line) % shCols y.shape))).past .X)))

/-- The lease, staging, bank and shape words complete (R233 to R236, R242, R243, R246). -/
def Obligations.CubeControlWordsComplete : Prop :=
  ∀ (s u : State) (f b : BitVec 6) (n : BitVec 16) (a : BitVec 7) (x : W64),
    s.Issues .X false →
    let k := s.core s.cur
    let t := s.tm
    (k.lease = .none → exec .clease s = .next ((s.setCore s.cur { k with lease := .want }).past .X)) ∧
    (k.lease ≠ .none → exec .clease s = .next (s.past .X)) ∧
    exec .crel s = .next ((s.passLease s.cur .none).past .X) ∧
    exec .cwait s = .next (s.past .X) ∧
    (stageOk f.toNat n.toNat = true →
      exec (.ccfg f n) s = .next ((s.setTm { t with staging := tset t.staging f.toNat n.toNat }).past .X)) ∧
    (stageOk f.toNat n.toNat = false → exec (.ccfg f n) s = .next (s.faulted .ILLEGAL 0 0)) ∧
    exec .accz s = .next ((s.setTm { t with bank := [], kind := .unset, fresh := true }).past .X) ∧
    (s.srcOk b = true → s.Reads1 b x u →
      exec (.tix b) s = .next ((u.setTm { u.tm with
        ix0 := x.extractLsb' 0 6, ix1 := x.extractLsb' 8 6, ix2 := x.extractLsb' 16 6 }).past .X)) ∧
    (tileDir a = 0 → s.tilesFree [a] = .ok () →
      exec (.tzero a) s = .next ((s.putTile a { (t.tileOf a) with elems := [], scales := [], poison := none }).past .X) ∧
      (s.srcOk b = true → s.Reads1 b x u →
        (shapeOk x = false → exec (.tshape a b) s = .next (s.faulted .SHAPE 0 0)) ∧
        (shapeOk x = true → (t.tileOf a).shape = x → exec (.tshape a b) s = .next (u.past .X)) ∧
        (shapeOk x = true → (t.tileOf a).shape ≠ x → exec (.tshape a b) s =
          .next ((u.putTile a { shape := x, elems := [], scales := [], poison := none }).past .X)))) ∧
    (let e := s.fmtEntry (t.stage 8)
     let o := t.tileOf a
     tileDir a < 2 → enOk e = true → enBlk e = 0 → s.tilesFree [a] = .ok () → s.atLeast a (t.stage 0) (t.stage 1) = true →
      shType o.shape = typeOf e →
      exec (.accst a) s = .next ((s.putTile a (o.fill fun r c =>
        let i := if tileDir a = 1 then c else r
        let j := if tileDir a = 1 then r else c
        if i < t.stage 0 ∧ j < t.stage 1 then code32 (encElem e (enRnd e) (t.bankVal i j)) else o.at r c)).past .X))

/-- `MMA` and `TRI` complete (R237 to R240) where the core holds a live lease: every bank element inside DIMI and DIMJ takes its slab of
DIMK terms, every other is unchanged, and the command is counted against the lease; without a lease each raises `LEASE`, and one issued in WANT, or under
a lease whose budget or time is used up, stalls (R235). -/
def Obligations.CubeCommandsUpdateTheBank : Prop :=
  ∀ (s : State) (a b g : BitVec 7) (e : Instr) (ops : List (BitVec 7)) (term : Nat → Nat → Nat → ExNum),
    let t := s.tm
    let fa := s.fmtEntry (t.stage 5)
    let fb := s.fmtEntry (t.stage 6)
    let fg := s.fmtEntry (t.stage 7)
    let fs := if e = .tri a b g then [fa, fb, fg] else [fa, fb]
    let k := cmdKind fs
    let sizes := if e = .tri a b g then (t.triMode && s.dimkOk fs && s.triSizes a b g && s.triBlocks a b g)
      else (s.dimkOk fs && s.atLeast a (t.stage 0) (t.stage 2) && s.atLeast b (t.stage 2) (t.stage 1)
        && s.blocksAlong a false && s.blocksAlong b true)
    s.Issues .X false → tileDir a ≠ 3 → tileDir b ≠ 3 → tileDir g ≠ 3 →
    (e = .mma a b ∧ ops = [a, b] ∧ term = (fun i j p => mulN (t.eff a fa i p) (t.eff b fb p j))) ∨
      (e = .tri a b g ∧ ops = [a, b, g] ∧ term = t.triTerm a b g fa fb fg) →
    fs.all slotOk = true →
    ((s.core s.cur).lease = .none → exec e s = .next (s.faulted .LEASE 0 0)) ∧
    ((s.core s.cur).lease = .want → exec e s = .next (s.noteHold .stall)) ∧
    ((s.core s.cur).lease = .held → leaseLive (s.core s.cur) s.cyc = false → exec e s = .next (s.noteHold .stall)) ∧
    ((s.core s.cur).lease = .held → leaseLive (s.core s.cur) s.cyc = true → s.tilesFree ops = .ok () → sizes = true →
      s.cmdChecks (List.zip ops fs) k = .ok () →
      ∃ v : TeamSt, exec e s = .next ((s.setTm v).spendLease.past .X) ∧ v.kind = k.bank ∧ v.fresh = false ∧ v.tiles = t.tiles ∧
        ∀ i j, i < 64 → j < 64 →
          let old := tget 0 t.bank (64 * i + j)
          tget 0 v.bank (64 * i + j) =
            if i < t.stage 0 ∧ j < t.stage 1 then
              stage2 k (t.stage 9 == 1 && t.fresh) old ((List.range (t.stage 2)).map (term i j))
            else old)

/-- Tile transfers and the steps of the lease complete (R235, R249 to R253): `TLD` and `TST` queue a transfer once every line of it has been
checked; a transfer takes effect after X has left its span, behind the transfers of its tile before it; and the free array goes to the first
core that wants it after the last holder. -/
def Obligations.TransfersAndLeaseStepsComplete : Prop :=
  ∀ (s u v w : State) (a : BitVec 7) (b g : BitVec 6) (x y : W64) (k : Nat) (e : Xfer) (l : List (List (Place × W64 × Nat))),
    (s.Issues .A false → tileDir a ≠ 3 → s.srcOk b = true → s.srcOk g = true → s.Reads2 b g x y u → s.tm.tq.length < 64 →
      layOk y = true → vecSpace x = true → u.checkSpace u.me x x 0 = .ok () → x.toNat % 4 = 0 → layPitch y % 4 = 0 →
      let q := fun store : Bool => ({ store := store, ta := a, base := x, lay := y, tag := s.tm.a.span, pc := s.st.pc, places := l } : Xfer)
      (u.checkLines u.me x y .read (List.range (layLines y)) = .ok (l, v) →
        exec (.tld a b g) s = .next ((v.setTm { v.tm with tq := v.tm.tq ++ [q false] }).past .A)) ∧
      (u.checkLines u.me x y .write (List.range (layLines y)) = .ok (l, v) →
        exec (.tst a b g) s = .next ((v.setTm { v.tm with tq := v.tm.tq ++ [q true] }).past .A))) ∧
    (let c := s.ev.core
     let t := s.team c
     t.tq[s.ev.n]? = some e → e.tag < t.x.span → (∀ y ∈ t.tq.take s.ev.n, tileNo y.ta ≠ tileNo e.ta) →
      (s.setTeam c { t with tq := t.tq.take s.ev.n ++ t.tq.drop (s.ev.n + 1) }).xferEffect c e = .ok w →
      exec .tileTransferEffect s = .next w) ∧
    (let site := s.ev.site
     let c : CoreId := ⟨site, k⟩
     Config.kindAt site = .cub →
      (k < 4 → (∀ j < 4, (s.core ⟨site, j⟩).lease ≠ .held) → (s.core c).lease = .want →
        (∀ j < 4, ((s.die site).lastHold + 1 + j) % 4 = k → ∀ i < j, (s.core ⟨site, ((s.die site).lastHold + 1 + i) % 4⟩).lease ≠ .want) →
        let z := s.setCore c { s.core c with lease := .held, leaseN := 0, leaseT := s.cyc, leaseU := s.cyc }
        exec .leaseGrant s = .next (z.setDie site { z.die site with lastHold := k })) ∧
      (s.leaseHolder site = some k →
        ((s.core c).leaseN ≥ 16 ∨ (s.core c).leaseT + 4096 ≤ s.cyc → exec .leaseBudgetExpiry s = .next (s.passLease c .want)) ∧
        ((s.core c).leaseU + 1024 ≤ s.cyc → exec .leaseIdleExpiry s = .next (s.passLease c .want))))

/-! ### The row engine (R325 to R341) -/

/-- `MROWZ`, `MROWC`, `MINV` and `MFILL` complete (R330 to R333, R335, R339): once their pages are translated and found free, each page is
treated at its home in ascending order; the lines of a zeroed page hold zero bytes, or on an encrypted stack the zero value (R332), and no
poison, and no byte of another page has changed. -/
def Obligations.RowWordsWithoutResultComplete : Prop :=
  ∀ (s u q q' v : State) (a b r : BitVec 6) (f : BitVec 3) (x y : W64) (l l' : List (W64 × Nat × Nat)) (pa n : Nat) (h : Nat × Nat),
    (s.Issues .X false → s.srcOk a = true → s.srcOk b = true → s.Reads2 a b x y u → u.rowSpace x = .ok () →
      (pageRange x y = .ok () →
        (u.rowPages x y.toNat .write = .ok (l, q) → needTier l = .ok () → q.needFree l = .ok () →
          q.eachPart State.zeroRow l = .ok v → exec (.mrowz a b) s = .next (v.past .X)) ∧
        (u.rowPages x y.toNat .mapped = .ok (l, q) → q.needFree l = .ok () → f.toNat < 2 →
          q.eachPart (State.invRow · (f == 0)) l = .ok v →
          exec (.minv a b f) s = .next (v.past .X))) ∧
      (regOk r = true →
        let z := s.reg r.toNat
        (u.rowSpace z = .ok () → pageRange z y = .ok () → pageRange x y = .ok () →
          overlaps z.toNat (y.toNat * 65536) x.toNat (y.toNat * 65536) = false →
          u.copyPages z x y.toNat = .ok (l, l', q') → needTier (l ++ l') = .ok () →
          q'.needFree (l ++ l') = .ok () → q'.copyRows l l' = .ok v → exec (.mrowc r a b) s = .next (v.past .X)) ∧
        (x.toNat % 8 = 0 → y.toNat % 8 = 0 → 1 ≤ y.toNat → y.toNat ≤ 2 ^ 32 →
          u.rowParts .write (rangeParts x y.toNat (y.toNat / 65536 + 2)) = .ok (l, q) → q.needFree l = .ok () →
          q.eachPart (fun s ea pa n => s.fillPart z ea pa n) l = .ok v →
          exec (.mfill r a b) s = .next (v.past .X)))) ∧
    (s.pageCopies s.me pa (f == 0) x = .ok () → s.atStack s.me pa x = .ok h → pa < farBase →
      s.invRow (f == 0) x pa n = .ok (if f = 0 then (s.backPage (pa / 65536)).dropPage (pa / 65536) else s.backPage (pa / 65536))) ∧
    (Memory.wf s.mem = true → pa < farBase → s.atStack s.me pa x = .ok h → s.zeroRow x pa n = .ok v →
      let page := s.homePage s.me (pa / 65536)
      (s.stackEnc h.1 = false → ∀ k, k / 65536 = page → cget v.mem k = 0) ∧
      (s.stackEnc h.1 = true → ∀ line, line / 1024 = page → tget 0 v.minor line = 0) ∧ (∀ k, k / 65536 ≠ page → cget v.mem k = cget s.mem k) ∧
      (∀ line, line / 1024 = page → tget false v.lineBad line = false))

/-- `MLOC`, `MCOMP`, `MEXPD`, `MSCRB`, `MRED`, `MSTAT` and `MMIG` complete (R334, R336 to R341): each gives its result word. The result of
`MLOC` outside every window and the address in that of an `MMIG` that moved nothing are free values, and that `MCOMP`, `MEXPD` and `MMIG`
need R on their page is the model's choice (logs 13 and 84). -/
def Obligations.RowWordsWithResultComplete : Prop :=
  ∀ (s u q v w : State) (d : Bool) (r a b : BitVec 6) (f : BitVec 3) (x y : W64) (l : List (W64 × Nat × Nat)) (h : Nat × Nat)
    (e : Nat × Nat) (bs : List Byte) (lf lf₀ : Nat × Nat × State) (m : Mig),
    s.Issues .X false → s.destOk r = true → s.room d r = .ok () →
    (f.toNat < 5 → exec (.mstat d r f) s = .next ((s.put d r (tget 0 s.tm.mstat f.toNat)).past .X)) ∧
    (s.srcOk a = true → s.Reads1 a x u → u.rowSpace x = .ok () →
      (u.rowParts .either [(x, 1)] = .ok (l, q) → q.needFree l = .ok () →
        let pa := (l.map (·.2.1)).headD 0
        (farBase ≤ pa → exec (.mloc d r a) s = .next ((q.put d r 0xC000000000000000).past .X)) ∧
        (∀ n lf, pa < farBase → q.homeOf q.me.c.site q.me.fold pa = some (n, lf) → q.atStack q.me pa x = .ok h →
          exec (.mloc d r a) s = .next ((q.put d r (locWord n (q.die h.1) lf x)).past .X)) ∧
        (pa < farBase → q.homeOf q.me.c.site q.me.fold pa = none →
          exec (.mloc d r a) s = .next ((q.freshWord.2.put d r q.freshWord.1).past .X))) ∧
      (pageRange x 1 = .ok () → u.rowPages x 1 .read = .ok (l, q) → needTier l = .ok () → q.needFree l = .ok () →
        let pa := (l.map (·.2.1)).headD 0
        q.atStack q.me pa x = .ok h → q.pageCopies q.me pa true x = .ok () →
        let c := q.compress q.me h.1 h.2 (pa / 65536)
        exec (.mcomp d r a) s = .next ((c.put d r (caveWord (frameSt (c.die h.1) h.2))).past .X))) ∧
    (s.srcOk a = true → s.srcOk b = true → s.Reads2 a b x y u → u.rowSpace x = .ok () →
      (pageRange x y = .ok () → u.rowPages x y.toNat .read = .ok (l, q) → needTier l = .ok () → q.needFree l = .ok () →
        (q.eachPart (fun s ea pa _ => s.rowReach pa ea) l = .ok v →
          exec (.mexpd d r a b) s = .next ((v.put d r (tget 0 v.tm.mstat 4 - tget 0 q.tm.mstat 4)).past .X)) ∧
        (q.scrubPages (0, 0) l = .ok (e, v) →
          exec (.mscrb d r a b) s = .next ((v.put d r (packW [(e.1, 0), (e.2, 32)])).past .X))) ∧
      (f.toNat < 4 → 1 ≤ y.toNat → y.toNat ≤ 2 ^ 20 → x.toNat % 4 = 0 →
        let size := if f = 2 then 2 else 4
        u.rowParts .read (rangeParts x (y.toNat * size) (y.toNat * size / 65536 + 2)) = .ok (l, q) → q.needFree l = .ok () →
        q.readHome l = .ok (bs, v) →
        exec (.mred d r a b f) s = .next ((v.put d r (redArray f.toNat (chunkNats size y.toNat bs))).past .X))) ∧
    (f.toNat < 2 → s.srcOk a = true → s.Reads1 a x u →
      let key := fun far => poolKey (s.me.fold.getD 0) far
      let mine := s.migrate.find? fun m => m.core == s.cur
      (mine = none → s.rowSpace x = .ok () → pageRange x 1 = .ok () → s.partOk x 65536 = true → s.leafOf s.me x = .ok lf₀ →
        lf₀.2.2.rowPages x 1 .read = .ok (l, q) → q.leafOf s.me x = .ok lf → lf.2.2.needFree l = .ok () →
        lf.2.2.twoWay s.cur.site migSite = true →
        let pa := (l.map (·.2.1)).headD 0
        let no := fun (k : Nat) (t : State) => ∀ z, t.freshWord.2.src a = .ok (x, z) →
          exec (.mmig d r a f) s =
            .next ((z.put d r ((t.freshWord.1 &&& 0xFFFFFFFFFFFF) ||| BitVec.ofNat 64 (k * 2 ^ 48))).past .X)
        ((farBase ≤ pa ↔ f = 0) → no 1 lf.2.2) ∧
        (¬(farBase ≤ pa ↔ f = 0) →
          (lf.2.2.popFrame s.me (key (f == 0)) x = .ok (none, v) → no 2 v) ∧
          (∀ new, lf.2.2.popFrame s.me (key (f == 0)) x = .ok (some new, v) → v.migStart s.me x lf.1 lf.2.1 pa new = .ok w →
            exec (.mmig d r a f) s = .next (w.noteHold .stall)))) ∧
      (mine = some m → (s.core s.cur).tlbi = none ∨ (s.core s.cur).tlbi = some [] → s.migEnd s.me (key (f != 0)) x m = .ok v →
        v.src a = .ok (x, w) → exec (.mmig d r a f) s = .next ((w.put d r (BitVec.ofNat 64 (m.new * 65536))).past .X)))

/-! ### DROVER words (R418 to R432) -/

/-- The DROVER words of one operand complete (R419, R422, R426 to R432): each has its effect and gives its value, or gives a failure code
in the top byte and has none. A `RESUME` of a team suspended at its drain point completes it at once (R145), and one of a team whose die is
no longer of its fold fails (R392).
`PRIO.age` and `FLKNEW.free` complete (R423, R430): a queue is moved up one class, at most to the highest; the flock that a handle names
is freed once it has no members.
An FN without a meaning, a nonzero operand field that has to be zero, and a selector that may not stand in its field raise `ILLEGAL` (R418).
The place at which `FLTPOP` writes is the model's choice (log 27). -/
def Obligations.FirmwareWordsOfOneOperandComplete : Prop :=
  (∀ (s u p w : State) (d b : Bool) (r a : BitVec 6) (f : BitVec 3) (x : W64) (pl : Place) (rec : Record) (rest : List Record),
    s.Issues .X false → s.destOk r = true → s.srcOk a = true → s.room d r = .ok () → s.Reads1 a x u →
    let v := s.myDrv
    let gives := fun (e : Instr) (y : W64) (t : State) => exec e s = .next ((t.put d r y).past .X)
    let fails := fun (e : Instr) (c : Nat) => gives e (BitVec.ofNat 64 (c * 2 ^ 56)) u
    -- `BFXM` and `BRFREE`
    (u.bufOf x = none → fails (.brfree d r a) 0x83 ∧ (f.toNat ∈ [1, 2, 3] → fails (.bfxm d r a f) 0x83)) ∧
    (∀ e k, u.bufOf x = some (e, k) →
      (f = 2 → gives (.bfxm d r a f) 0 (u.flushBuf e k)) ∧ (f = 1 ∨ f = 3 → gives (.bfxm d r a f) 0 (u.invBuf e k)) ∧
      (u.bufRunning (u.buf e k) = true → fails (.brfree d r a) 0x83) ∧
      (u.bufRunning (u.buf e k) = false → gives (.brfree d r a) 0 (u.freeBuf e k))) ∧
    -- `QMAP` and `QSAVE`
    (f.toNat < 2 → (63 < x.toNat ∨ (u.slot v x.toNat).st ≠ if f = 0 then SlotSt.loaded else SlotSt.serving) →
      fails (.qmap d r a f) 0x83) ∧
    (x.toNat ≤ 63 →
      ((u.slot v x.toNat).st = .loaded → gives (.qmap d r a 0) (BitVec.ofNat 64 (u.slot v x.toNat).qcb) (u.mapSlot v x.toNat)) ∧
      ((u.slot v x.toNat).st = .serving → gives (.qmap d r a 1) (BitVec.ofNat 64 (u.slot v x.toNat).qcb) (u.unmapSlot v x.toNat))) ∧
    (let h := s.slot v x.toNat
     (63 < x.toNat ∨ (h.st ≠ .loaded ∧ h.st ≠ .stopped) → fails (.qsave d r a) 0x83) ∧
     (x.toNat ≤ 63 → (h.st = .loaded ∨ h.st = .stopped) → u.behind v h.copy = .ok (b, p) →
      let t := p.saveSlot v x.toNat h.copy.part
      gives (.qsave d r a) (BitVec.ofNat 64 h.qcb) (if b = true then t.raisePend v h.qcb else t))) ∧
    -- `GDEC`
    (u.nodeOf x = none → fails (.gdec d r a) 0x84) ∧
    (∀ e k, u.nodeOf x = some (e, k) →
      ((u.node e k).st ≠ .waiting → fails (.gdec d r a) 0x83) ∧
      ((u.node e k).st = .waiting → gives (.gdec d r a) (BitVec.ofNat 64 ((u.node e k).pending - 1)) (u.gdecNode e k))) ∧
    -- `FLTPOP`
    (u.fwPlace x 32 .write = .ok (pl, p) →
      ((s.drv v).faultQ = [] → gives (.fltpop d r a) 0 u) ∧
      ((s.drv v).faultQ = rec :: rest → p.doStore s.me pl ((recordWords rec).flatMap fun w => leBytes 8 w.toNat) x = .ok w →
        gives (.fltpop d r a) (handleOf rec) (w.setDrv v { w.drv v with faultQ := rest }))) ∧
    -- `RESUME` and `KILL`
    ((u.drv v).liveHandle x = none → fails (.resume d r a) 0x87 ∧ fails (.kill d r a) 0x87) ∧
    (∀ e, (u.drv v).liveHandle x = some e →
      let h := tget Susp.none (u.drv v).susps e
      let fin := u.endSusp v e
      (h.mayResume = false → fails (.resume d r a) 0x87) ∧
      (h.copy = true → gives (.kill d r a) 0 (fin.onCopy v e (failCopy e)) ∧
        (h.mayResume = true → gives (.resume d r a) 0 (fin.onCopy v e (resumeCopy e)))) ∧
      (h.copy = false → ∀ n y, u.suspAway v e = some (n, y) → gives (.kill d r a) 0 (fin.killAway v n y) ∧
        (let stopped := drained y.team && !y.team.serr.getLsbD 31
         h.mayResume = true →
          (stopped = true → gives (.resume d r a) 0 (fin.endAway v n y false)) ∧
          (stopped = false → u.dieStays y = false → fails (.resume d r a) 0x83) ∧
          (stopped = false → u.dieStays y = true → gives (.resume d r a) 0 (fin.requeue v n y)))))) ∧
  (∀ (s : State) (d : Bool) (r a b : BitVec 6) (f : BitVec 3), s.strand = .X →
    (∀ e ∈ ([(.bfxm d r a f, f = 1 ∨ f = 2 ∨ f = 3), (.qmap d r a f, f < 2), (.flknew d r a b f, f = 0 ∨ f = 1 ∧ b = 0),
        (.prio d r a b f, f = 0 ∨ f = 1 ∧ b = 0), (.qsave d r a, True), (.gdec d r a, True), (.brfree d r a, True),
        (.fltpop d r a, True), (.resume d r a, True), (.kill d r a, True)] : List (Instr × Prop)),
      (s.destOk r = false ∨ s.srcOk a = false ∨ ¬e.2) → exec e.1 s = .next (s.faulted .ILLEGAL 0 0)) ∧
    (∀ w : W32, w.extractLsb' 22 8 ∈ ([0x84, 0x86, 0x89, 0x8B, 0x8C, 0x8D] : List (BitVec 8)) → w.extractLsb' 0 9 ≠ 0 →
      decode .drover w = none)) ∧
  (∀ (s u : State) (d : Bool) (r a : BitVec 6) (x : W64),
    s.Issues .X false → s.destOk r = true → s.srcOk a = true → s.room d r = .ok () → s.Reads1 a x u →
    let v := s.myDrv
    let gives := fun (e : Instr) (k : W64) (t : State) => exec e s = .next ((t.put d r k).past .X)
    let fails := fun (e : Instr) (c : Nat) => gives e (BitVec.ofNat 64 (c * 2 ^ 56)) u
    (let c := u.liveQ v x.toNat
     let t := u.qcb v x.toNat
     let t' := if t.st = 2 then u.setQcb v x.toNat { t with age := 0 } else u
     (4095 < x.toNat ∨ u.qcbCorrupt v c = true → fails (.prio d r a 0 1) 0x82) ∧
     (x.toNat ≤ 4095 → u.qcbCorrupt v c = false → gives (.prio d r a 0 1) (c.prio.setWidth 64)
      (t'.setLive v x.toNat { c with prio := if c.prio = 7 then 7 else c.prio + 1, age := 0 }))) ∧
    (let n := x.toNat
     (65535 < n ∨ flockForm n = false → fails (.flknew d r a 0 1) 0x87) ∧
     (n ≤ 65535 → flockForm n = true →
      (u.flockAt (flockSite n) (flockEntry n) = none → fails (.flknew d r a 0 1) 0x87) ∧
      (∀ e, u.flockAt (flockSite n) (flockEntry n) = some e →
        (e.members ≠ [] → fails (.flknew d r a 0 1) 0x83) ∧
        (e.members = [] → gives (.flknew d r a 0 1) 0 (u.freeFlock (flockSite n) (flockEntry n)) ∧
          (e.area = none → u.freeFlock (flockSite n) (flockEntry n) = u.setDie (flockSite n)
            { u.die (flockSite n) with flocks := tdel (u.die (flockSite n)).flocks (flockEntry n) }))))))

/-- The DROVER words of two operands complete (R419 to R426, R428, R430): each has its effect and gives its value, or gives a failure code
in the top byte and has none; a nonzero FN and a selector that may not stand in its field raise `ILLEGAL` (R418).
That `QLOAD` of a queue that is loaded in another slot gives `SLOT_BUSY` (log 86), which code `BRNEW` gives for a length or specification out
of range, a free value (log 13), the places at which `RFETCH` and `DISP` read and write (log 27), and that the limit of `SWAIT` is counted in
the time that has passed (log 21) are the model's choices. -/
def Obligations.FirmwareWordsOfTwoOperandsComplete : Prop :=
  (∀ (s : State) (d : Bool) (r a b : BitVec 6), s.strand = .X →
    (∀ e ∈ ([.rfetch d r a b, .swait d r a b, .disp d r a b, .qload d r a b, .glnch d r a b, .brnew d r a b] : List Instr),
      (s.destOk r = false ∨ s.srcOk a = false ∨ s.srcOk b = false) → exec e s = .next (s.faulted .ILLEGAL 0 0)) ∧
    (∀ w : W32, w.extractLsb' 22 8 ∈ ([0x80, 0x82, 0x83, 0x85, 0x87, 0x88] : List (BitVec 8)) → w.extractLsb' 0 3 ≠ 0 →
      decode .drover w = none)) ∧
  ∀ (s u p q q' w : State) (d : Bool) (r a b : BitVec 6) (x y z : W64) (pl : Place) (bs : List Byte),
    s.Issues .X false → s.destOk r = true → s.srcOk a = true → s.srcOk b = true → s.room d r = .ok () → s.Reads2 a b x y u →
    let v := s.myDrv
    let gives := fun (e : Instr) (k : W64) (t : State) => exec e s = .next ((t.put d r k).past .X)
    let fails := fun (e : Instr) (c : Nat) => gives e (BitVec.ofNat 64 (c * 2 ^ 56)) u
    -- `QLOAD`
    (let c := u.qcb v x.toNat
     let bad := 4095 < x.toNat ∨ u.qcbCorrupt v c = true ∨ c.st = 0
     let busy := 63 < y.toNat ∨ (u.slot v y.toNat).st ≠ .free ∨ c.st = 2 ∨ u.loaded v x.toNat = true
     let full := (u.fold v c.fold.toNat).hqShare v ≤ u.foldSlots v c.fold.toNat
     (bad → fails (.qload d r a b) 0x82) ∧ (¬bad → busy → fails (.qload d r a b) 0x83) ∧
     (¬bad → ¬busy → full → fails (.qload d r a b) 0x86) ∧
     (¬bad → ¬busy → ¬full →
      gives (.qload d r a b) 0 (u.setSlot v y.toNat { HwSlot.reset with st := .loaded, qcb := x.toNat, copy := c }))) ∧
    -- `PRIO`
    (let c := u.liveQ v x.toNat
     let t := u.qcb v x.toNat
     let t' := if t.st = 2 then u.setQcb v x.toNat { t with age := 0 } else u
     (4095 < x.toNat ∨ u.qcbCorrupt v c = true → fails (.prio d r a b 0) 0x82) ∧
     (x.toNat ≤ 4095 → u.qcbCorrupt v c = false →
      (7 < y.toNat → fails (.prio d r a b 0) 0x83) ∧
      (y.toNat ≤ 7 →
        gives (.prio d r a b 0) (c.prio.setWidth 64) (t'.setLive v x.toNat { c with prio := y.setWidth 3, age := 0 })))) ∧
    -- `FLKNEW`
    (let site := x.toNat
     let f := fieldW y 2 0
     (59 < site ∨ hasFlocks site = false ∨ (u.fold v f).sites.getLsbD site = false → fails (.flknew d r a b 0) 0x85) ∧
     (site ≤ 59 → hasFlocks site = true → (u.fold v f).sites.getLsbD site = true →
      (tfree (u.die site).flocks 256 = none → fails (.flknew d r a b 0) 0x86) ∧
      (∀ e, tfree (u.die site).flocks 256 = some e → gives (.flknew d r a b 0) (BitVec.ofNat 64 (site * 1024 + e))
        (u.setFlock site e (FlockEnt.fresh f none none))))) ∧
    -- `SWAIT`
    (let mask := x.toNat % 16 &&& 11
     (∀ k, (s.core s.cur).swait = some k →
      (k.woken = true ∨ swaitLate k s.runNs = true →
        gives (.swait d r a b) (s.causeWord k.mask (swaitLate k s.runNs)) (u.setSwait none)) ∧
      (k.woken = false → swaitLate k s.runNs = false → exec (.swait d r a b) s = .next (s.noteHold .stall))) ∧
     ((s.core s.cur).swait = none →
      (s.causes mask ≠ 0 ∨ (mask = 0 ∧ y = 0) → gives (.swait d r a b) (s.causeWord mask false) u) ∧
      (s.causes mask = 0 → ¬(mask = 0 ∧ y = 0) →
        let k : Swait := { start := s.runNs, mask := mask, limit := y.toNat, woken := false }
        exec (.swait d r a b) s = .next ((s.setSwait (some k)).noteHold .stall)))) ∧
    -- `RFETCH`
    (u.fwPlace y 64 .write = .ok (pl, p) →
      let c := u.liveQ v x.toNat
      (4095 < x.toNat ∨ u.qcbCorrupt v c = true → fails (.rfetch d r a b) 0x82) ∧
      (x.toNat ≤ 4095 → u.qcbCorrupt v c = false →
        (c.st ≠ 1 → fails (.rfetch d r a b) 0x83) ∧
        (c.st = 1 → p.askRead (s.queueWho v c) (packetAddr c) 4 4 = .ok (bs, q) →
          (leNat bs < 2 ^ 24 → gives (.rfetch d r a b) 0x00FFFFFFFFFFFFFF u) ∧
          (2 ^ 24 ≤ leNat bs → q.fetchPacket x.toNat c pl y = .ok (z, w) → gives (.rfetch d r a b) z w)))) ∧
    -- `DISP`
    (u.fwPlace x 64 .read = .ok (pl, p) → p.doLoad s.me pl 64 x = .ok (bs, q) →
      let c := s.liveQ v y.toNat
      let l := bytesLanes 16 bs
      (4095 < y.toNat → fails (.disp d r a b) 0x80 ∨ fails (.disp d r a b) 0x82) ∧
      (y.toNat ≤ 4095 → malformed c l = true → fails (.disp d r a b) 0x80) ∧
      (y.toNat ≤ 4095 → malformed c l = false → s.qcbCorrupt v c = true → fails (.disp d r a b) 0x82) ∧
      (y.toNat ≤ 4095 → malformed c l = false → s.qcbCorrupt v c = false → q.released s.me = .ok q' →
        (q'.dispatchImage y.toNat c l = .ok (.ok (z, w)) → gives (.disp d r a b) z w) ∧
        (∀ k, q'.dispatchImage y.toNat c l = .ok (.error k) → fails (.disp d r a b) k))) ∧
    -- `GLNCH`
    (s.atomFree = .ok () → u.released s.me = .ok q' →
      let req : LaunchReq := { LaunchReq.zero with gid := x.toNat, patch := y, asid := s.mgmt.fwasid }
      (∀ lid, q'.trigger v req = .ok (.ok lid, w) → gives (.glnch d r a b) (BitVec.ofNat 64 (lid % 2 ^ 55)) w) ∧
      (∀ k, q'.trigger v req = .ok (.error k, w) → fails (.glnch d r a b) (if k = 2 then 0x84 else 0x80))) ∧
    -- `BRNEW`
    (x = 0 ∨ 2 ^ 40 < x.toNat ∨ fieldW y 63 30 ≠ 0 →
      ∃ k ∈ [0x80, 0x82, 0x83, 0x84, 0x85, 0x86, 0x87], gives (.brnew d r a b) (BitVec.ofNat 64 (k * 2 ^ 56)) u.freshWord.2) ∧
    (1 ≤ x.toNat → x.toNat ≤ 2 ^ 40 → fieldW y 63 30 = 0 →
      let e := fieldW y 16 16
      let k := fieldW y 15 0
      let j := fieldW y 20 17
      let n := s.node e k
      let taken := (n.st ≠ .idle ∧ n.st ≠ .waiting) ∨ tget 0 n.slots j ≠ 0
      (n.used = false → fails (.brnew d r a b) 0x84) ∧ (n.used = true → taken → fails (.brnew d r a b) 0x83) ∧
      (n.used = true → ¬taken →
        (u.newBuf e k j x.toNat (fieldW y 29 27) ((y >>> 21).setWidth 6) = none → fails (.brnew d r a b) 0x86) ∧
        (u.newBuf e k j x.toNat (fieldW y 29 27) ((y >>> 21).setWidth 6) = some (z, w) → gives (.brnew d r a b) z w)))


/-! ### Steps that no word makes: strands, teams, nodes, graphs and queues -/

/-- The steps of a strand without a word of its own complete (R19, R122, R131, R278, R424): the end of a loop body, the release at a span
boundary, for which a turn of the strand is put on the agenda (log 1, the model's choice), and the waits that end as their word then does. -/
def Obligations.StrandStepsComplete : Prop :=
  ∀ (s u : State) (l : Loop) (n : Nat) (w : W32) (t : Tag) (d : Bool) (r a b : BitVec 6) (k : BitVec 10) (p : BitVec 2) (o : BitVec 7)
    (x : Swait),
    let c := s.ev.core
    let σ := s.evStrand
    let st := (s.team c).str σ
    (s.canIssue c σ = true →
      (endedLoop (s.text c) σ st = some l →
        exec .loopEnd s = .next ((s.turnOf c σ).passLoopEnd l) ∧
        (st.hold = .stall → slipFree (s.team c) σ = true → exec .slipRelease s = .next ((s.turnOf c σ).passLoopEnd l))) ∧
      (endedLoop (s.text c) σ st = none → st.hold = .stall → slipFree (s.team c) σ = true → s.fetch c σ = .word n w → wordTag w = .W →
        exec .slipRelease s = .next { s with agenda := .issue c σ :: s.agenda })) ∧
    (s.wordOf c σ = some (.waitt t a k, u) → u.st.waitV = true → u.st.waitT ≤ u.nsAt u.cur.site →
      ∃ v, exec (.waitt t a k) u = .next v ∧ exec .waittExpire s = .next v) ∧
    (∀ e ∈ [Instr.ldf t d r a p o, Instr.stf t d r a p o], s.wordOf c σ = some (e, u) →
      (u.myCluster.waiters.any fun x => u.mine x && x.polled) = true →
      ∃ v, exec e u = .next v ∧ exec .polledWaitRetry s = .next v) ∧
    (s.wordOf c .X = some (.swait d r a b, u) → (s.core c).swait = some x → swaitLate x s.runNs = true →
      ∃ v, exec (.swait d r a b) u = .next v ∧ exec .swaitTimeout s = .next v)

/-- The steps of teams complete (R38, R39, R132, R145, R179, R180, R184, R187): a plane that is loaded flips where the core has no active
team; a team completes at its drain point, is asked to leave, is saved, or is requeued; a DROVER core enters the handler that it was asked
for (R192); what a write-back or the save has to wait for is waited for. That the first of several conditions requeues a team (log 40), that
one that has ended goes once its copies have (log 10), and that the handler is entered in this step where it could not be at once (logs 1 and
58) are the model's choices. -/
def Obligations.TeamStepsComplete : Prop :=
  ∀ (s : State) (t : TeamSt) (l : Leave) (a : Away) (σ : Strand) (pc : Nat) (code : Code) (addr : W64),
    let c := s.ev.core
    let k := s.core c
    (k.shadow.st = .loading →
      exec .planeLoadComplete s = .next ((s.setCore c { k with shadow := { k.shadow with st := .ready } }).flip c)) ∧
    (k.shadow.st = .ready → exec .planeLoadComplete s = .next (s.flip c)) ∧
    (k.run = false → k.shadow.st = .ready → k.shadow.pre = none → k.shadow.team = some t →
      let k' := (s.flip c).core c
      k'.run = true ∧ k'.active.st = .active ∧ k'.active.text = k.shadow.text ∧ k'.shadow = Plane.reset ∧ k'.l1 = [] ∧
      k'.leave = (resumed t).2 ∧ (t.preNow = false → k'.leave = none) ∧ k'.waitmax = s.waitmaxOf t ∧ k'.lease = if t.leaseRq = true then .want else .none) ∧
    (k.run = true → k.leave = none → coreCls c ≠ .drover →
      (drained k.team = true → k.team.serr.getLsbD 31 = false → exec .teamComplete s = .next (s.orWaited (s.completeTeam c))) ∧
      (drained k.team = true → k.team.serr.getLsbD 31 = true →
        let r := s.record c (strandNum k.team.serrStrand) ((k.team.str k.team.serrStrand).pc - 1)
          ⟨(codeOf (bits k.team.serr.toNat 7 0)).getD .QUEUE, k.team.serra, k.team.serrPc, [], false, none⟩
        exec .teamComplete s = .next (s.orWaited ((s.setTeam c { k.team with serr := 0 }).leaveCore c (.fault r)))) ∧
      (begunExit k.team = false →
        (phaseHeld k.team = false → exec .preemptRequest s = .next (s.setCore c { k with leave := some .preempt, leaveAt := s.runNs })) ∧
        (phaseHeld k.team = true → exec .preemptRequest s = .next (s.setTeam c { k.team with preHeld := some .X })) ∧
        (k.waitAt ≠ none → k.team.waitth.toNat ≤ waitCount k s.cyc → phaseHeld k.team = false →
          exec .longWaitSwap s = .next (s.setCore c { k with leave := some .swap, leaveAt := s.runNs })) ∧
        (k.waitAt ≠ none → k.team.waitth.toNat ≤ waitCount k s.cyc → phaseHeld k.team = true →
          exec .longWaitSwap s = .next (s.setCore c { k with swapHeld := true }))) ∧
      (begunExit k.team = true → exec .preemptRequest s = .next s ∧ exec .longWaitSwap s = .next s)) ∧
    (k.leave = some (.entry σ pc code addr) →
      (s.canEnter c = true → exec .teamSaveComplete s = .next (s.enterException c σ pc code addr)) ∧
      (s.canEnter c = false → exec .teamSaveComplete s = .next (s.drainEntry c))) ∧
    (k.leave = some l → (∀ τ p e x, l ≠ .entry τ p e x) → coreCls c ≠ .drover → phaseGoesOn k = false →
      (saveReady ((s.drainTeam c).core c) = true → exec .teamSaveComplete s = .next ((s.drainTeam c).orWaited ((s.drainTeam c).leaveCore c l))) ∧
      (saveReady ((s.drainTeam c).core c) = false → exec .teamSaveComplete s = .next (s.drainTeam c))) ∧
    (s.awayAt s.ev.site s.ev.n = some a → a.handle = none →
      (a.dead = false → a.ready = false → (a.conds = [] ∨ ∃ t, WaitCond.time t ∈ a.conds ∧ t ≤ (s.nsAt a.from_.site).toNat) →
        exec .teamRequeue s = .next (s.requeue s.ev.site s.ev.n a)) ∧
      (a.dead = true → a.team.board = [] → exec .teamRequeue s = .next (s.dropAway s.ev.site s.ev.n)))

/-- The steps of nodes and launches complete (R372, R374, R375, R380, R388 to R391, R395): at a dispatch opportunity the heads of the ready
queues get their texts, and the first node that is considered is served; one of which nothing can be had holds back the nodes of its fold
alone, which is the model's choice (log 71, beside R396), as are the record of a node without a class (log 51, beside R372) and the count of the
100 µs of a gang launch in the time that has passed (log 21). -/
def Obligations.NodeAndLaunchStepsComplete : Prop :=
  ∀ (s u : State) (g : Graph) (l : Launch) (k time : Nat) (killed : Bool) (rest : List (Nat × Bool)) (later : List Launch) (e : Nat × Node),
    let d := s.ev.site
    let gi := s.ev.n
    (let v := s.chooseHeads d gi []
     let got := v.dispatchNext d e.1 (e.2.variant.getD false)
     (v.nextNode d gi [] = some e → (got = some u → exec .nodeDispatch s = .next u) ∧
       (got = none → exec .nodeDispatch s = .next (v.serveClass d gi 7 [e.2.fold]))) ∧
     (v.nextNode d gi [] = none → exec .nodeDispatch s = .next v)) ∧
    (s.readyNodes d gi = [e] → e.2.variant = none → s.foldOn d e.2.fold = true → s.chooseHeads d gi [] = s.chooseNode d e.1) ∧
    (s.chooseText d (s.node d k) = none → s.chooseNode d k = (s.raiseRecord d (s.noClass d k)).finishNode d k .failed) ∧
    (∀ x, s.chooseText d (s.node d k) = some x → s.chooseNode d k = s.setNode d k { s.node d k with variant := some x }) ∧
    ((s.drv d).doneQ = (k, killed) :: rest →
      let v := s.setDrv d { s.drv d with doneQ := rest }
      let n := v.node d k
      let m : Node := { n with compl := n.compl + 1, killed := n.killed || killed }
      (m.st = .running → m.count ≤ m.compl →
        exec .instanceComplete s = .next ((v.setNode d k m).finishNode d k (if m.killed = true then .failed else .done))) ∧
      (m.compl < m.count → exec .instanceComplete s = .next (v.setNode d k m))) ∧
    (∃ v, exec .ageingInterval s = .next v ∧ v = ((((s.ageNodes 0 s.evFold).ageFold 0 s.evFold).ageNodes 1 s.evFold).ageFold 1 s.evFold)) ∧
    (s.nextLaunch d gi = some (g, l) →
      (isGang g = false → l.req.time = none → exec .launchStart s = .next (s.startLaunch d gi)) ∧
      (isGang g = false → l.req.time = some time →
        (time ≤ (s.nsAt (Config.drvSite d)).toNat + 50000 → s.preplaceNext d g l.lid none = some u → exec .timedLaunchPreplace s = .next u) ∧
        (time ≤ (s.nsAt (Config.drvSite d)).toNat → exec .timedLaunchFire s = .next (s.fireLaunch d gi l.lid))) ∧
      (isGang g = true → l.commit = none →
        exec .timedLaunchPreplace s = .next (s.reserveStep d gi g l) ∧
        ((∀ f ∈ foldsOf g, f ∈ l.reserved) → s.runNs ≤ l.arrived + 100000 →
          exec .gangCommit s = .next (s.setLaunch d gi { l with commit := some (l.req.time.getD ((s.nsAt (Config.drvSite d)).toNat + 1000)) })) ∧
        (l.arrived + 100000 < s.runNs → s.rollBack d gi g l = .ok u → exec .gangRollbackTimeout s = .next u)) ∧
      (isGang g = true → l.commit = some time → time ≤ (s.nsAt (Config.drvSite d)).toNat → exec .gangStart s = .next (s.fireLaunch d gi l.lid))) ∧
    (s.graphAt d gi = some g → g.launches = l :: later → l.started = true → s.launchTeams d l.lid = false →
      (∀ n ∈ g.nodes, (s.node d n).st ∈ [NodeSt.done, NodeSt.failed, NodeSt.cancelled]) →
      s.endLaunch d gi (if ∀ n ∈ g.nodes, (s.node d n).st = .done then 0 else 1) = .ok u → exec .launchEnd s = .next u)

/-- The steps of graphs, triggers, queues and packets complete (R369 to R371, R388, R402, R405, R407, R411, R416): an upload is whole or
nothing of it stays, and is answered in `reply` (log 22); the packet of the chosen slot is served, each type by its own step. A request that
has to wait is asked for again, which is the model's choice (log 1, log 52). -/
def Obligations.GraphAndQueueStepsComplete : Prop :=
  ∀ (s u : State) (g : Graph) (l : List W64) (bs bs' : List Byte) (p q : State) (r : Record) (rest : List Record) (o : Except Nat Nat)
    (m : Nat) (pSig : W64),
    let d := s.ev.site
    let k := s.ev.n
    let v := s.slot d k
    let b := v.copy
    let w := s.queueWho d b
    (∀ x, s.upload d s.ev.bytes s.ev.list = .ok x → exec .graphUpload s = .next x) ∧
    (∀ x, s.upload d s.ev.bytes s.ev.list = .error (.answer x) → exec .graphUpload s = .next { s with reply := x }) ∧
    (∀ h, s.upload d s.ev.bytes s.ev.list = .error (.wait h) → exec .graphUpload s = .next ((s.waited h).askAgain .graphUpload)) ∧
    (s.graphAt d k = some g →
      (g.launches ≠ [] → exec .graphUnload s = .next (s.askAgain .graphUnload)) ∧
      (g.launches = [] →
        let y := s.endGraphBufs d g
        (y.graphUnmapped d g = false → exec .graphUnload s = .next (y.askAgain .graphUnload)) ∧
        (∀ h, y.graphUnmapped d g = true → y.returnTables d g = .error h → exec .graphUnload s = .next ((y.waited h).askAgain .graphUnload)) ∧
        (y.graphUnmapped d g = true → y.returnTables d g = .ok u →
          let x := g.bufs.foldl (fun y r => y.unloadBuf d r) (g.nodes.foldl (fun y n => y.dropSlots d n) u)
          let e := x.drv d
          exec .graphUnload s = .next (x.setDrv d { e with
            nodes := tfilter (fun n _ => !g.nodes.contains n) e.nodes, graphs := tdel e.graphs k, gmem := cclear e.gmem g.base g.size })))) ∧
    (s.triggerSignal d s.ev.launch = .ok (o, u) → exec .launchTrigger s = .next u) ∧
    (∀ h, s.triggerSignal d s.ev.launch = .error h → exec .launchTrigger s = .next ((s.waited h).keepAsk d s.ev.launch)) ∧
    exec .kick s = .next (s.kickQueue d k s.ev.fold) ∧
    (v.st = .serving → v.look = true → v.barrier = none → s.askRead w (packetAddr b) 4 4 = .ok (bs, p) →
      let w0 : W32 := BitVec.ofNat 32 (leNat bs)
      pktType w0 ≠ 0 → s.isChoice d k w0 = true → p.askRead w (packetAddr b + 4) 60 4 = .ok (bs', q) →
      q.servePacket d k (w0 :: bytesLanes 15 bs') = .ok u →
      (pktType w0 = 1 ∨ 7 ≤ pktType w0 → exec .packetLaunch s = .next u) ∧ (pktType w0 = 2 → exec .packetRelaunch s = .next u) ∧
      (pktType w0 = 6 → exec .packetTimedLaunch s = .next u) ∧ (pktType w0 = 3 → exec .packetBarrierAnd s = .next u) ∧
      (pktType w0 = 4 → exec .packetSignal s = .next u) ∧ (pktType w0 = 5 → exec .packetNop s = .next u)) ∧
    (v.st = .serving → v.barrier = some (l, pSig) → s.barrierMet w l 0 (fieldW b.part 4 1) = .ok (m, p) →
      (m ≠ 15 → exec .barrierAndRelease s = .next (p.setSlot d k { v with copy := { b with part := BitVec.ofNat 64 (1 + 2 * m) } })) ∧
      (m = 15 → p.barrierSignal d k pSig = .ok q → q.consumeSlot d k b = .ok u → exec .barrierAndRelease s = .next u)) ∧
    ((s.drv d).waitRec = r :: rest →
      let x := s.setDrv d { s.drv d with waitRec := rest, faultQ := (s.drv d).faultQ ++ [r] }
      (1024 ≤ (s.drv d).faultQ.length → exec .faultRecordEnqueue s = .next s) ∧
      ((s.drv d).faultQ = [] → exec .faultRecordEnqueue s = .next (x.wake d fun _ y => bit y.mask 1)) ∧
      ((s.drv d).faultQ ≠ [] → (s.drv d).faultQ.length < 1024 → exec .faultRecordEnqueue s = .next x))

/-! ### Steps of the memory system, of links, of the package and of the collective engines -/

/-- The steps of walks, slices and homes complete (R273, R293 to R303, R321 to R328, R351): each where what it asks for can be had; a slice
atomic and a line read answer with the data. The answers in `reply` are log 22, what a dry pool tells firmware is log 45, and the target
that a soft error names is log 30, all the model's own. -/
def Obligations.MemorySystemStepsComplete : Prop :=
  ∀ (s u : State) (l : Nat) (site cl word : Nat) (p : Piece) (bs : List Byte) (f : TlbEnt × State) (h : Nat × Nat) (old : Nat),
    let w := s.evWho
    let e := s.ev
    let d := s.die w.c.site
    ((d.tlb.any fun x => tlbHit x w.asid e.m) = true → exec .pageWalk s = .next s) ∧
    ((d.tlb.any fun x => tlbHit x w.asid e.m) = false → s.walk w (e.m % 2 ^ 52) (if e.flag = true then .write else .read) 0 = .ok f →
      exec .pageWalk s = .next f.2) ∧
    (hasL2 w.c.site = true →
      exec .l2Fill s = .next ((List.range 32).foldl (fun u k =>
        if e.word.getLsbD k = true then u.settled? ((u.l2Read w w.c.site (e.n * 32 + k) 0).map (·.2)) else u) s) ∧
      (e.flag = true → s.l2Own w w.c.site e.n false 0 = .ok u → exec .directoryRequest s = .next u) ∧
      (e.flag = false → s.l2Read w w.c.site e.n 0 = .ok (bs, u) → exec .directoryRequest s = .next u)) ∧
    (hasL2 w.c.site = false → s.reachHome w (e.n * 64) 0 = .ok u → u.reachCopies w e.n (u.holders e.n) 0 = .ok () → exec .directoryRequest s = .next (u.recallInv e.n)) ∧
    (e.n % atomSize e.op = 0 → s.doAtomic w (.mem e.n .l2) e.op e.word e.word2 0 = .ok (old, u) →
      exec .sliceAtomic s = .next { u with reply := .data (leBytes (atomSize e.op) old) }) ∧
    (e.bytes ≠ [] → e.m + e.bytes.length ≤ 64 → s.cohWrite w .home (e.n * 64 + e.m) e.bytes 0 = .ok u → exec .homeLineWrite s = .next u) ∧
    (s.cohRead w .home (e.n * 64) 64 0 = .ok (bs, u) → exec .homeLineRead s = .next { u with reply := .data bs }) ∧
    (s.atStack w (e.n * 65536) 0 = .ok h →
      ((expandFrame (s.die h.1) h.2).isNone = true → exec .pageExpansion s = .next (s.poolDry h.1)) ∧
      ((expandFrame (s.die h.1) h.2).isNone = false → s.makeResident w h.1 h.2 (e.n * 65536) 0 = .ok u → exec .pageExpansion s = .next u)) ∧
    (let ids := (((s.core e.core).l1).filter fun x => x.2.line == e.n && x.2.locks == 0).map (·.1)
     exec .l1Eviction s = .next (ids.foldl (fun u id => u.l1Leave (u.who e.core) id) s)) ∧
    (e.target = .line l → tget 0 s.latent l ≠ 2 →
      exec .softError s = .next { s with latent := tset s.latent l (if e.flag = true then 1 else 2) }) ∧
    (e.target = .cspWord site cl word → e.flag = false → 4 * word < Config.cspSize (Config.kindAt site) →
      exec .softError s = .next (s.setCluster site cl { s.cluster site cl with bad := tset (s.cluster site cl).bad word true })) ∧
    (e.target = .dspWord site word → e.flag = false → Config.kindAt site ≠ .cub → 4 * word < Config.dspSize (Config.kindAt site) →
      exec .softError s = .next (s.setDie site { s.die site with dspBad := tset (s.die site).dspBad word true })) ∧
    (e.target = .counter l → e.flag = false → exec .softError s = .next { s with treeBad := tset s.treeBad l true }) ∧
    (e.target = .l2Piece site l → e.flag = false → s.piece site l = some p →
      (p.dirty = true → exec .softError s = .next (s.setPiece site l { p with poison := true })) ∧
      (p.dirty = false → exec .softError s = .next (s.dropPiece site l)))

/-- The steps of CXL extents and of accesses that do not complete (R345 to R349, R455, R461): an extent is entered, asked for, swept and
removed, after which its range holds nothing. Of an access that does not complete, the step after the event is the move of the part of the
core that the event names, in which every CXL, HOST or REMOTE access fails, as the rule gives it, that would otherwise be made; the failing
of that access is what the event does. That the event puts that move on the agenda is log 1, with what it says of the access logs 5 and 6,
and the word that firmware is told with is log 45, all the model's own. -/
def Obligations.ExtentAndTimeoutStepsComplete : Prop :=
  ∀ (s v : State) (e x : Extent) (k pa m a : Nat) (w : Who) (off : Nat) (data : List Byte) (ea : W64),
    let site := s.ev.site
    let n := s.ev.n
    let o : State := { s with lapse := none }
    let late := fun (kind aux : Nat) => match moveStep s.lateMove { s.tick with lapse := some (kind, aux) } with
      | .next t => Host.Outcome.next { t with lapse := none }
      | r => r
    (x = { port := n, dpa := s.ev.m, base := s.ev.k, len := s.ev.list.getD 0 0, fold := s.ev.fold.getD 0 % 8, releasing := false,
           sweep := false, asked := 0, gone := false } → s.extentFits site x = true →
      exec .extentAdd s = .next (s.enterExtent site x) ∧
      (tfree (goneUnder x (s.die site).extents) 256 = some k → (s.enterExtent site x).extentAt site k = some x)) ∧
    (s.extentAt site n = some e →
      (e.releasing = false → 
        exec .extentReleaseRequest s = .next (s.setExtent site n { e with releasing := true, asked := s.runNs }).tellFirmware) ∧
      (e.releasing = true → e.sweep = false →
        exec .releaseSweep s = .next (s.setExtent site n { e with sweep := true }) ∧
        (e.asked + 10000000 ≤ s.runNs → exec .releaseSweepTimeout s = .next (s.setExtent site n { e with sweep := true }))) ∧
      (e.releasing = true → e.sweep = true →
        exec .releaseSweep s = .next (((s.rangePieces e.base e.len).foldl
          (fun u p => (u.pieceHome p.1 p.2).dropPiece p.1 p.2) s).removeExtent site n e)) ∧
      exec .extentForcedRemoval s =
        .next ((((s.rangePieces e.base e.len).foldl (fun u p => u.dropPiece p.1 p.2) s).clearExtent e).setExtent site n
          { e with gone := true, releasing := false, sweep := false })) ∧
    (∀ a, e.base ≤ a → a < e.base + e.len → cget (s.removeExtent site n e).mem a = 0) ∧
    (∀ a, Memory.wf s.mem = true → (a < e.base ∨ e.base + e.len ≤ a) → cget (s.removeExtent site n e).mem a = cget s.mem a) ∧
    (∃ t, exec .cxlTimeout s = .next t ∧ t = { s with agenda := .late 0 0 s.lateMove :: s.agenda } ∧ step t = late 0 0) ∧
    (let aux := if s.ev.flag = true then 1 else 2
     ∃ t, exec .hostAccessTimeout s = .next t ∧ t = { s with agenda := .late 1 aux s.lateMove :: s.agenda } ∧ step t = late 1 aux) ∧
    (let aux := if s.ev.k = 2 then 0 else if s.ev.flag = true then 1 else 2
     ∃ t, exec .remoteTimeout s = .next t ∧ t = { s with agenda := .late 2 aux s.lateMove :: s.agenda } ∧ step t = late 2 aux) ∧
    (s.lapse = some (0, a) → farBase ≤ pa → o.reachHome w pa ea = .ok v → s.reachHome w pa ea = flt .FAR_TIMEOUT ea a) ∧
    (s.lapse = some (1, a) → o.hostWay w ea = .ok () →
      s.doLoad w (.host off) m ea = flt .FAR_TIMEOUT ea a ∧ s.doStore w (.host off) data ea = flt .FAR_TIMEOUT ea a) ∧
    (s.lapse = some (2, 0) → o.peerWay w k ea = .ok () →
      s.doLoad w (.peer k off) m ea = flt .POISON ea 0 ∧ s.doStore w (.peer k off) data ea = flt .POISON ea 0) ∧
    (s.lapse = some (2, a) → a ≠ 0 → o.peerWay w k ea = .ok () →
      s.doLoad w (.peer k off) m ea = flt .FAR_TIMEOUT ea a ∧ s.doStore w (.peer k off) data ea = flt .FAR_TIMEOUT ea a)

/-- The steps of links, of the host and of peers complete (R306 to R312, R406, R411, R441, R448, R453 to R455, R458 to R461). That a peer's
request leaves on the lowest port of PORTS, the order of peer requests by an operand, both directions of a port failing at once, the two
stages of `LINK_DOWN_TIMEOUT`, the words that firmware and host are told with, the window that an operand names, the answers in `reply`, and
the operand that names the clusters whose network interface does not answer are the model's own (logs 9, 22, 23, 45, 49 and 65). -/
def Obligations.LinkHostAndPeerStepsComplete : Prop :=
  ∀ (s : State) (p t : Nat) (r : List Byte × State),
    let site := s.ev.site
    let n := s.ev.n
    let l := s.link site n
    let u := s.give site n s.ev.list
    ((u.link site n).maySend = true → exec .flitSlot s = .next (u.flitSlot site n)) ∧
    ((u.link site n).maySend = false → exec .flitSlot s = .next u) ∧
    (∀ q c, q.dst = some c → c ∈ s.ev.list →
      ((s.toCluster site q).cluster site c).inbox = (s.cluster site c).inbox ++ [(q, s.runNs)]) ∧
    (∀ e, otherEnd site n = some e → exec .flitGroupReceive s = .next ((s.interfacesAnswer e.1).receive site n s.ev.flag)) ∧
    (otherEnd site n = none → exec .flitGroupReceive s = .next (s.receive site n s.ev.flag)) ∧
    (l.replayRq = some p → l.down = none → l.replays < 8 →
      let more := l.sentGrp.dropWhile fun g => g.seq != p
      exec .linkReplay s = .next (s.setLink site n { l with wire := l.wire ++ more, replayRq := none })) ∧
    (l.down = none → (s.ev.flag = true ∨ 8 ≤ l.replays) →
      exec .linkRetryFail s = .next (s.bothWays site n fun x => x.fail s.runNs)) ∧
    (l.down = some t →
      (s.heldDown site n = false →
        exec .linkRetrainComplete s = .next ((s.bothWays site n fun x => { x with down := none, told := false }).resendBoth site n)) ∧
      (s.heldDown site n = true → exec .linkRetrainComplete s = .next s) ∧
      (t + 1000000 ≤ s.runNs →
        (l.told = false → exec .linkDownTimeout s =
          .next ((s.bothWays site n fun x => { x with told := true }).pruneRoutes).tellFirmware.retireIsolated) ∧
        (l.told = true → exec .linkDownTimeout s = .next ((s.rerouteBoth site n).resendBoth site n)))) ∧
    (s.ev.fold = none → s.hostUp = true →
      let pa := s.aperture n
      let size := reqSize s.ev.req
      ((∃ k ∈ linesOf pa size, s.openFold (k * 64) = none) → exec .hostApertureAccess s = .next { s with reply := .refused }) ∧
      (n + size ≤ 2 ^ 36 → (∀ k ∈ linesOf pa size, s.openFold (k * 64) ≠ none) →
        (∀ op x y, s.ev.req = .atomic op x y → pcieAtomic op = true ∧ n % atomSize op = 0) →
        performReq s.ev.req s (fun u k => u.homeBytes pa k (k / 64 + 2)) (fun u d => u.homePut pa d (d.length / 64 + 2)) = .ok r →
        exec .hostApertureAccess s = .next { r.2 with reply := .data r.1 })) ∧
    (∀ k m, s.ev.fold = some k → s.ev.req = .read m → exec .hostApertureAccess s = .next (s.hostRead k n m)) ∧
    exec .hostPortLinkDown s = .next { s with mgmt := { s.mgmt with hostUp := tset s.mgmt.hostUp (site % 2) false } } ∧
    (s.siteStatus s.timeDrv (Config.drvSite (site % 2)) ≠ 3 →
      exec .hostPortLinkUp s = .next { s with mgmt := { s.mgmt with hostUp := tset s.mgmt.hostUp (site % 2) true } }) ∧
    (let f := s.evFold
     let fab := site % 2
     let pl : Place := .mem (s.exportPa fab f s.ev.k) .home
     let w := peerWho fab f
     let ok := s.peerAccepts fab n s.ev.m f s.ev.k (reqSize s.ev.req)
     let key := peerKey s.ev
     let due := tget 0 s.peerNext key
     (peerNum s.ev < due → exec .peerRequestReceive s = .next s) ∧
     (due < peerNum s.ev → exec .peerRequestReceive s = .next (s.askAgain .peerRequestReceive)) ∧
     (peerNum s.ev = due → ok = false →
      exec .peerRequestReceive s = .next { s with reply := .refused, peerNext := tset s.peerNext key (due + 1) }) ∧
     (peerNum s.ev = due → ok = true → performReq s.ev.req s (fun u n => u.doLoad w pl n 0) (fun u d => u.doStore w pl d 0) = .ok r →
      exec .peerRequestReceive s = .next { r.2 with reply := .data r.1, peerNext := tset r.2.peerNext key (due + 1) })) ∧
    (let fab := Config.fabSite (site % 2)
     let q := newPacket s.ev.m s.evFold (s.ev.k + 1) 60 64 fab none none (some n)
     let out := lowPort (fieldW (tget 0 (s.die fab).peers n) 47 32)
     q.wf = true → n ≠ (s.die fab).pkgid.toNat →
      (out = none → exec .peerRequestForward s = .next s) ∧
      (out = some p → Config.fabSite (p / 8) = fab →
        exec .peerRequestForward s = .next (s.setLink fab (16 + p % 8) ((s.link fab (16 + p % 8)).giveLast q))) ∧
      (out = some p → Config.fabSite (p / 8) ≠ fab → s.portTo fab (Config.fabSite (p / 8)) = some t →
        exec .peerRequestForward s = .next (s.setLink fab t ((s.link fab t).giveLast { q with to_ := Config.fabSite (p / 8) })))) ∧
    (s.ev.fold = none → regAccess n s.ev.m = true → ∀ u, s.mmioWrite (site % 2) n (leBytes s.ev.m s.ev.word.toNat) = some u →
      exec .registerWrite s = .next u) ∧
    (s.ev.fold = some 1 → s.hostUp = true → exec .registerWrite s = .next (s.doorbell n s.ev.word)) ∧
    (s.ev.fold = some 2 → exec .registerWrite s = .next (s.mgmtWrite n s.ev.word)) ∧
    (s.ev.fold = some 3 → n + s.ev.bytes.length ≤ 0xC000 →
      exec .registerWrite s = .next { s with mgmt := { s.mgmt with fwlog := cwrite s.mgmt.fwlog n s.ev.bytes } })

/-- Resets, boot and the services of the management function complete (R288 to R291, R433 to R446, R448 to R450). A cluster reset asks every
resident team to leave with `RESET`, and then leaves the cores at their reset state (R289); a fold reset ends the launches of the fold with
their status, clears LOCK and keeps every other field of the descriptor (R445); a package reset leaves every core, die and drover at its
reset values, and the retirement record and the ports of the host as they are (R446).
That steps 3 to 5 and step 6 of a cluster reset are two takes of one step is log 25, its 40 µs deadline in the time that has passed logs 10 and
21, that a core out of service stays so log 20, the fold reset in one step and the status of a gang launch not committed log 11, the ROM's first
step log 16, the watchdog that starts anew at a release and what an entry beyond the body does log 17, attestation in every state but brownout
log 18, the results of RSTREQ log 19, the operands of a degradation and of a retirement log 20, the bytes of digest and signature log 41, and the
word that the host or firmware is told with log 45, all the model's own. -/
def Obligations.ResetAndBootStepsComplete : Prop :=
  ∀ (s : State) (t : Nat),
    let e := s.ev
    let m := s.mgmt
    let w := e.word.toNat
    exec .clusterReset s = .next (s.clusterReset e.site e.n) ∧
    (∀ site cl : Nat, cl < clustersOf site →
      (s.inReset site cl = true → s.clusterReset site cl = s) ∧
      (s.inReset site cl = false →
        let u := s.clusterReset site cl
        (u.cluster site cl).reset = some s.runNs ∧
        ∀ c ∈ clusterIds site cl, (u.core c).shadow.st = .empty ∧ (u.core c).run = (s.core c).run ∧
          ((s.core c).run = true → (u.core c).leave =
            some (match (s.core c).leave with | some (.fault r) => .fault r | _ => .reset))) ∧
      (let u := s.clusterClear site cl
       (u.cluster site cl).waiters = [] ∧ (u.cluster site cl).clearing = true ∧ (u.cluster site cl).inbox = [] ∧
       ∀ c ∈ clusterIds site cl, (u.core c).run = false ∧ (u.core c).team = TeamSt.reset ∧ (u.core c).l1 = [] ∧ (u.core c).lease = .none ∧
        (u.core c).shadow = Plane.reset ∧ (u.core c).active = Plane.reset)) ∧
    ((s.cluster e.site e.n).reset = some t →
      ((s.cluster e.site e.n).clearing = false → t + 40000 ≤ s.runNs →
        exec .clusterResetSaveDeadline s = .next (s.clusterClear e.site e.n)) ∧
      ((s.cluster e.site e.n).clearing = false → s.runNs < t + 40000 → exec .clusterResetSaveDeadline s = .next s) ∧
      ((s.cluster e.site e.n).clearing = true → exec .clusterResetSaveDeadline s =
        .next (s.setCluster e.site e.n { s.cluster e.site e.n with reset := none, clearing := false }))) ∧
    exec .foldReset s = .next (s.foldReset s.evFold) ∧
    (∀ f : Nat,
      let l := s.foldLaunches f
      let v := (l.foldl (fun u x => u.unplace x.1 x.2.2.1.lid) (s.signalAll l)).endTeams (endsWith f l)
      let u := s.foldReset f
      u = ((((((v.foldTables f 0).foldTables f 1).freeFlocks f).foldClusters f).foldMemory f).unlockFold f 0).unlockFold f 1 ∧
      (∀ d gi g x, d < 2 → (gi, g) ∈ (s.drv d).graphs → bit g.mask f = true → x ∈ g.launches →
        (d, gi, x, if isGang g = true ∧ x.commit = none then 4 else 5) ∈ l) ∧
      (∀ d, d < 2 → u.fold d f = { v.fold d f with lock := false }) ∧
      (∀ d gi g, d < 2 → (gi, g) ∈ (u.drv d).graphs → bit g.mask f = true → g.launches = [])) ∧
    exec .packageReset s = .next (s.restarted m.brownout) ∧
    (∀ (b : Bool) (c : CoreId) (x d : Nat),
      let u := s.restarted b
      u.core c = CoreSt.reset ∧ u.die x = { Die.reset with links := (u.die x).links } ∧ u.drv d = Drover.reset ∧ u.mem = [] ∧
      u.mgmt.record = m.record ∧ u.mgmt.hostUp = m.hostUp ∧ u.mgmt.toRetire = m.toRetire ∧ u.mgmt.staging = [] ∧ u.mgmt.apbase = 0) ∧
    (s.rstActs 1 = true →
      let site := bits w 15 10
      let cl := bits w 9 6
      (s.siteLive site = false ∨ clustersOf site ≤ cl → exec .rstreqCluster s = .next (s.rstResult 1 1)) ∧
      (s.siteLive site = true → cl < clustersOf site →
        (s.inReset site cl = true → exec .rstreqCluster s = .next (s.rstResult 1 2)) ∧
        (s.inReset site cl = false → exec .rstreqCluster s = .next ((s.clusterReset site cl).rstResult 1 0)))) ∧
    (s.rstActs 2 = true → exec .rstreqFold s = .next ((s.foldReset (bits w 5 3)).rstResult 2 0)) ∧
    (s.rstActs 3 = true → exec .rstreqPackage s = .next (s.restarted false)) ∧
    (s.rstActs 4 = true → Config.kindAt (bits w 15 10) = .drv → s.siteLive (bits w 15 10) = true →
      let k := bits w 9 6
      let d := Config.siteDrv (bits w 15 10)
      let c : CoreId := ⟨bits w 15 10, k⟩
      let v := if (s.core c).halted = true then s.setCore c { s.core c with halted := false } else s
      exec .rstreqRelease s = .next ((v.setDrv d { v.drv d with fwkick := tset (v.drv d).fwkick k s.runNs }).rstResult 4 0)) ∧
    (let r := s.rom
     let f := imageFault r.mgmt.staging
     (r.mgmt.phase ≠ 5 → r.mgmt.brownout = false → e.n + e.bytes.length ≤ stagingSize →
      exec .bootStagingWrite s = .next { r with mgmt := { r.mgmt with staging := cwrite r.mgmt.staging e.n e.bytes } }) ∧
     (r.mgmt.phase = 1 →
      (f ≠ 0 → exec .bootgo s = .next { r with mgmt := { r.mgmt with bootstat := BitVec.ofNat 8 f, staging := [] } }) ∧
      (f = 0 → (∃ x < 60, e.list.contains x ≠ r.mgmt.expected.contains x) →
        exec .bootgo s = .next { r with mgmt := { r.mgmt with phase := 5, bootstat := 6 } }) ∧
      (f = 0 → (∀ x < 60, e.list.contains x = r.mgmt.expected.contains x) → (∀ x ∈ e.list, x < 60) →
        let b : State := { r with mgmt := { r.mgmt.takeImage with phase := 4, fwasid := e.n % 2048 } }
        let entry := bootNat r.mgmt.staging 0x14 4
        exec .bootgo s = .next (if (bootNat r.mgmt.staging 8 8 + 3) / 4 ≤ entry then b.romTables.retireAsked.tellHost 0 else b.romTables.retireAsked.startFw 0 0 entry)))) ∧
    (s.starterRuns = true → s.siteLive (Config.drvSite (e.site % 2)) = true →
      (e.m < m.fwwords → exec .firmwareCoreStart s = .next (s.startFw (e.site % 2) e.n e.m)) ∧
      (m.fwwords ≤ e.m → exec .firmwareCoreStart s = .next s.tellFirmware)) ∧
    (s.starterRuns = false → exec .firmwareCoreStart s = .next s) ∧
    (m.brownout = false →
      let body := leBytes 32 e.nonce.toNat ++ leBytes 64 m.digest.toNat ++ leBytes 4 m.secver.toNat ++ leBytes 4 0 ++
        leBytes 64 (sha512 s.discBytes).toNat ++ leBytes 64 (sha512 m.recordBytes).toNat ++ leBytes 8 (s.nsAt (Config.drvSite 0)).toNat
      exec .attestationRequest s =
        .next { s with mgmt := { m with report := some (body ++ leBytes 64 (deviceSign (sha512 body)).toNat) } }) ∧
    (let d := e.site % 2
     let v := s.drv d
     exec .mailboxMessage s = .next ((s.setDrv d { v with mbox := v.mbox ++ [e.word] }).wake d fun _ x => v.mbox.isEmpty && bit x.mask 3)) ∧
    (s.siteStatus s.timeDrv e.site = 1 ∨ s.siteStatus s.timeDrv e.site = 2 →
      e.n < bits (tget 0 (s.drv s.timeDrv).disc e.site).toNat 47 32 → exec .dieDegrade s =
        .next (((e.list.flatMap fun cl => clusterIds e.site cl).foldl (fun u c => u.setCore c { u.core c with service := false }) s).setDisc
          e.site fun x => setField (setField x 48 8 2) 32 16 e.n)) ∧
    (e.site < 60 → Config.kindAt e.site ≠ .none → m.retired e.site = false →
      (s.reasonHolds e.site e.n = true ∨ (e.site, e.n) ∈ m.toRetire →
        (m.phase = 4 → exec .dieRetirement s = .next (s.retireDie e.site e.n)) ∧
        (m.phase ≠ 4 → exec .dieRetirement s =
          .next (let u := s.setDisc e.site fun x => setField x 48 8 3; { u with mgmt := u.mgmt.askRetire e.site e.n }))))

/-- Watchdogs, heat, power, the error log and device time complete (R342, R343, R447, R451, R452, R470 to R473, R491). Strand 3, the PC of C and
no node in records of watchdogs are log 9, that a watched firmware core is halted and the host told is log 17 with log 45, and that `TMSET`
keeps the fraction, that `PTM_EXCHANGE` needs the link, the unit of PTP stamps, and the time that limits are counted in are log 21, all the
model's own. -/
def Obligations.WatchdogPowerAndTimeStepsComplete : Prop :=
  ∀ (s : State) (g : Graph) (l : Launch) (later : List Launch) (d gi t : Nat),
    let e := s.ev
    let m := s.mgmt
    let dv := e.site % 2
    (let k := s.core e.core
     k.run = true → coreCls e.core ≠ .drover → k.leave = none → k.lastIss + 2 ^ 26 ≤ s.cyc →
      exec .coreWatchdog s = .next (s.asyncFault e.core (.fault (s.record e.core 3 k.team.c.pc ⟨.WATCHDOG, 0, 1, [], false, none⟩)))) ∧
    (let c : CoreId := ⟨Config.drvSite dv, e.n % 16⟩
     (s.core c).run = true → (s.core c).halted = false → tget 0 (s.drv dv).fwkick (e.n % 16) + 100000000 ≤ s.runNs →
      exec .firmwareWatchdog s = .next ((s.haltCore c).tellHost dv)) ∧
    exec .fwkick s = .next (s.setDrv dv { s.drv dv with fwkick := tset (s.drv dv).fwkick (e.n % 16) s.runNs }) ∧
    (let n := s.node dv e.n
     let lim := fieldW (tget 0 (s.drv dv).wdcfg n.fold) 31 0
     n.used = true → (n.st = .ready ∨ n.st = .running) → lim ≠ 0 → n.readyNs + 1000 * lim ≤ s.runNs →
      let u := (s.killNode dv e.n).finishNode dv e.n .failed
      exec .nodeDeadline s = .next (u.setDrv dv { u.drv dv with doneQ := (u.drv dv).doneQ.filter fun x => x.1 != e.n })) ∧
    (e.n < clustersOf e.site → s.inReset e.site e.n = false → s.clusterLate e.site e.n = true →
      ∃ r : Record, exec .clusterWatchdog s = .next ((s.clusterReset e.site e.n).raiseRecord s.timeDrv r) ∧
        r.code = .WATCHDOG ∧ r.strand = 3 ∧ r.site = e.site ∧ r.aux = 3 ∧ r.node = 0xFFFFFFFF ∧ r.handle = none) ∧
    (graphOf e.n = some (d, gi) → s.graphAt d gi = some g → g.launches = l :: later → l.started = true →
      exec .foldWatchdog s = .next (((foldsOf g).filter fun f =>
        let lim := fieldW (tget 0 (s.drv d).wdcfg f) 63 32
        lim != 0 && decide (l.startAt + 1000000 * lim ≤ s.runNs)).foldl (fun u f => u.foldReset f) s)) ∧
    (let x := s.die e.site
     let hot := if 115 * 16 < e.temp then some (x.hotAt.getD s.runNs) else none
     let u := s.setDie e.site { x with temp := e.temp, volt := BitVec.ofNat 16 e.k, hotAt := hot }
     exec .thermalThrottle s = .next { u with mgmt := { u.mgmt with therm := u.dies.any fun y => decide (105 * 16 < y.2.temp) } }) ∧
    ((s.die e.site).hotAt = some t → t + 1000000 ≤ s.runNs → s.mayRetire e.site = true →
      (m.phase = 4 → exec .thermalRetire s = .next (s.retireDie e.site 3)) ∧
      (m.phase ≠ 4 → exec .thermalRetire s = .next
        (let u := s.setDisc e.site fun x => setField x 48 8 3; { u with mgmt := u.mgmt.askRetire e.site 3 }))) ∧
    exec .powerBrownout s = .next (s.restarted true) ∧
    (m.brownout = true → exec .powerRecover s = .next (s.restarted false)) ∧
    exec .powerCapping s = .next { s with mgmt := { m with cap := e.flag } } ∧
    (Config.kindAt e.site = .mem → e.word.getLsbD 0 = true → exec .elogclr s = .next (s.setDie e.site { s.die e.site with elog := [] })) ∧
    exec .tmslew s = .next { s with mgmt := { m with slew := e.word.toInt * 65536, slewRem := 0 } } ∧
    (s.noFold = true → exec .tmset s = .next { s with ns := e.word }) ∧
    (s.noFold = false → exec .tmset s = .next s) ∧
    (e.n ≤ 15 →
      let site := Config.fabSite (e.n / 8)
      let q := tget [] (s.die site).ptp (e.n % 8)
      let stamp := (BitVec.ofNat 16 e.m, BitVec.ofNat 4 e.k, s.countAt site)
      (q.length < 64 → exec .ptpEventTimestamp s =
        .next ((s.setDie site { s.die site with ptp := tset (s.die site).ptp (e.n % 8) (q ++ [stamp]) }).timeSeen 1)) ∧
      (64 ≤ q.length → exec .ptpEventTimestamp s =
        .next ((s.setDie site { s.die site with ptpOvf := tset (s.die site).ptpOvf (e.n % 8) true }).timeSeen 1))) ∧
    (tget true m.hostUp dv = true → exec .ptmExchange s = .next (s.timeSeen 2)) ∧
    (m.timeSrc ≠ 0 → m.srcAt + 2000000000 ≤ s.runNs → exec .timeSourceLoss s = .next { s with mgmt := { m with timeHold := true } })

/-- The steps of the collective engines complete (R462 to R468): a descriptor is taken, a member's inputs are read, what its peers send is
taken in, the result is written and signalled, the descriptor then cleared and the read index published, and a collective without a response
ends with status 2. What peers send is in operands of the steps (log 6), RANKS that cannot be read count as the source (log 66), and the 10 ms of
a wait are counted from the descriptor's start or, once a member's own result has gone up, from then (log 87), all the model's own. -/
def Obligations.CollectiveStepsComplete : Prop :=
  ∀ (s u v x y : State) (k k' : Coll) (b : List Byte) (inputs : List ExNum) (ranks : List Nat) (q : Qcb) (st : Nat),
    let fab := s.ev.site
    let ring := s.ev.n
    let w := s.engineWho fab ring
    let g := s.group fab k.desc
    exec .collectiveKick s = .next (s.takeDesc fab ring) ∧
    (tget? s.colls (ringKey fab ring) = some k →
      (k.started = false → k.status = none →
        (s.collInputs w k.desc = .ok (inputs, u) →
          (k' = { k with own := inputs.map (collForm k.desc), started := true } →
            (dType k.desc = 1 → exec .allReduce s = .next (u.setColl fab ring (k'.settle g))) ∧
            (dType k.desc = 2 → exec .reduceScatter s = .next (u.setColl fab ring (k'.settle g)))) ∧
          (u.readRanks w g = .ok (ranks, v) → dType k.desc = 3 →
            let mine := packElems (enBits (pw k.desc 2)) (inputs.map fun z => encElem (pw k.desc 2) (dRnd k.desc) z)
            k' = { k with ranks := ranks, parts := tset k.parts (ranks.getD (grp g 53 42) 0) mine, started := true } →
            exec .allGather s = .next (v.setColl fab ring (k'.settle g)))) ∧
        (dType k.desc = 4 → grp g 53 42 ≠ (pw k.desc 3).toNat →
          exec .collectiveBroadcast s = .next (s.setColl fab ring (({ k with started := true } : Coll).settle g))) ∧
        (dType k.desc = 4 → grp g 53 42 = (pw k.desc 3).toNat →
          s.collRead w (pw64 k.desc 4) (dCount k.desc * enBits (pw k.desc 1) / 8) = .ok (b, u) →
          k' = { k with final := some ((List.range (dCount k.desc)).map fun e =>
            .code (BitVec.ofNat 32 (elemAt b (enBits (pw k.desc 1)) e))), started := true } →
          exec .collectiveBroadcast s = .next (u.setColl fab ring (k'.settle g))) ∧
        (dType k.desc = 5 →
          exec .collectiveBarrier s = .next (s.setColl fab ring (({ k with started := true } : Coll).settle g)))) ∧
      (let w' := u.engineWho fab ring
       u.collSignal w' k.desc st = .ok v → v.consumeAs w' (v.ring fab ring) = .ok (q, x, none) →
        y = (({ x with colls := tdel x.colls (ringKey fab ring) } : State).setRdidx fab ring q.rdidx).takeDesc fab ring →
        (k.status = none → k.started = true → st = 0 → k.output g = some b →
          (b ≠ [] → s.collWrite w (pw64 k.desc 6) b = .ok u → exec .collectiveComplete s = .next y) ∧
          (b = [] → u = s → exec .collectiveComplete s = .next y)) ∧
        (k.status = some st → u = s → exec .collectiveComplete s = .next y)) ∧
      (k.status = none → k.started = true → k.output g = none → k.since + 10000000 ≤ s.runNs →
        exec .collectiveTimeout s = .next (s.setColl fab ring { k with status := some 2 }))) ∧
    (let site := Config.fabSite (fab % 2)
     let d := s.die site
     let n := s.ev.n % 256
     let h := tget 0 d.groups n
     (tget 0 d.collSeq n ≤ s.ev.m → exec .collectivePartialReceive s =
       .next (s.setDie site { d with collIn := d.collIn ++ [(n, s.ev.m, s.ev.part)] })) ∧
     (s.ev.m < tget 0 d.collSeq n → tget? s.colls (ringKey fab (grp h 62 57)) = some k → dGroup k.desc = n → k.idx = s.ev.m →
       k.status = none → k' = (k.receive h s.ev.part).settle h →
       exec .collectivePartialReceive s = .next (s.setColl fab (grp h 62 57)
         { k' with since := if k'.up.isSome && k.up.isNone then s.runNs else k.since })))
end

