-- ==== Sys2Proof/Laws/State.lean ====
section
/-! SUPPORT. What each update of the state changes and what it leaves: tables, then one lemma a field for the updates that every
meaning is written with. -/

namespace Sys2Proof.Machine

/-! ### Tables -/

@[simp] theorem tget_tset_self {α : Type} (d v : α) (t : Tab α) (k : Nat) : tget d (tset t k v) k = v := by
  induction t with
  | nil => simp [tset, tget]
  | cons e t ih =>
    obtain ⟨i, w⟩ := e
    unfold tset
    split
    · simp [tget]
    · split
      · simp [tget]
      · rename_i h1 h2
        simp [tget, ih, Ne.symm h2]

theorem tget_tset_ne {α : Type} (d v : α) (t : Tab α) {k j : Nat} (h : j ≠ k) : tget d (tset t k v) j = tget d t j := by
  induction t with
  | nil => simp [tset, tget, Ne.symm h]
  | cons e t ih =>
    obtain ⟨i, w⟩ := e
    unfold tset
    split
    · simp [tget, Ne.symm h]
    · split
      · rename_i h1 h2
        subst h2
        simp [tget, Ne.symm h]
      · simp [tget, ih]

@[simp] theorem tset_tset {α : Type} (t : Tab α) (k : Nat) (v w : α) : tset (tset t k v) k w = tset t k w := by
  induction t with
  | nil => simp [tset]
  | cons e t ih =>
    obtain ⟨i, x⟩ := e
    by_cases h1 : k < i
    · simp [tset, h1]
    · by_cases h2 : k = i
      · simp [tset, h2]
      · simp [tset, h1, h2, ih]

/-! ### Cores, dies, drovers -/

@[simp] theorem setCore_dies (s : State) (c : CoreId) (v : CoreSt) : (s.setCore c v).dies = s.dies := rfl
@[simp] theorem setCore_drovers (s : State) (c : CoreId) (v : CoreSt) : (s.setCore c v).drovers = s.drovers := rfl
@[simp] theorem setCore_mgmt (s : State) (c : CoreId) (v : CoreSt) : (s.setCore c v).mgmt = s.mgmt := rfl
@[simp] theorem setCore_colls (s : State) (c : CoreId) (v : CoreSt) : (s.setCore c v).colls = s.colls := rfl
@[simp] theorem setCore_mem (s : State) (c : CoreId) (v : CoreSt) : (s.setCore c v).mem = s.mem := rfl
@[simp] theorem setCore_lineBad (s : State) (c : CoreId) (v : CoreSt) : (s.setCore c v).lineBad = s.lineBad := rfl
@[simp] theorem setCore_lineKey (s : State) (c : CoreId) (v : CoreSt) : (s.setCore c v).lineKey = s.lineKey := rfl
@[simp] theorem setCore_treeBad (s : State) (c : CoreId) (v : CoreSt) : (s.setCore c v).treeBad = s.treeBad := rfl
@[simp] theorem setCore_minor (s : State) (c : CoreId) (v : CoreSt) : (s.setCore c v).minor = s.minor := rfl
@[simp] theorem setCore_major (s : State) (c : CoreId) (v : CoreSt) : (s.setCore c v).major = s.major := rfl
@[simp] theorem setCore_latent (s : State) (c : CoreId) (v : CoreSt) : (s.setCore c v).latent = s.latent := rfl
@[simp] theorem setCore_hostMem (s : State) (c : CoreId) (v : CoreSt) : (s.setCore c v).hostMem = s.hostMem := rfl
@[simp] theorem setCore_peerMem (s : State) (c : CoreId) (v : CoreSt) : (s.setCore c v).peerMem = s.peerMem := rfl
@[simp] theorem setCore_peerNext (s : State) (c : CoreId) (v : CoreSt) : (s.setCore c v).peerNext = s.peerNext := rfl
@[simp] theorem setCore_lapse (s : State) (c : CoreId) (v : CoreSt) : (s.setCore c v).lapse = s.lapse := rfl
@[simp] theorem setCore_migrate (s : State) (c : CoreId) (v : CoreSt) : (s.setCore c v).migrate = s.migrate := rfl
@[simp] theorem setCore_reply (s : State) (c : CoreId) (v : CoreSt) : (s.setCore c v).reply = s.reply := rfl
@[simp] theorem setCore_cyc (s : State) (c : CoreId) (v : CoreSt) : (s.setCore c v).cyc = s.cyc := rfl
@[simp] theorem setCore_ns (s : State) (c : CoreId) (v : CoreSt) : (s.setCore c v).ns = s.ns := rfl
@[simp] theorem setCore_frac (s : State) (c : CoreId) (v : CoreSt) : (s.setCore c v).frac = s.frac := rfl
@[simp] theorem setCore_up (s : State) (c : CoreId) (v : CoreSt) : (s.setCore c v).up = s.up := rfl
@[simp] theorem setCore_ticks (s : State) (c : CoreId) (v : CoreSt) : (s.setCore c v).ticks = s.ticks := rfl
@[simp] theorem setCore_freeCtr (s : State) (c : CoreId) (v : CoreSt) : (s.setCore c v).freeCtr = s.freeCtr := rfl
@[simp] theorem setCore_ev (s : State) (c : CoreId) (v : CoreSt) : (s.setCore c v).ev = s.ev := rfl
@[simp] theorem setCore_agenda (s : State) (c : CoreId) (v : CoreSt) : (s.setCore c v).agenda = s.agenda := rfl
@[simp] theorem setCore_waits (s : State) (c : CoreId) (v : CoreSt) : (s.setCore c v).waits = s.waits := rfl
@[simp] theorem setCore_cur (s : State) (c : CoreId) (v : CoreSt) : (s.setCore c v).cur = s.cur := rfl
@[simp] theorem setCore_strand (s : State) (c : CoreId) (v : CoreSt) : (s.setCore c v).strand = s.strand := rfl
@[simp] theorem setCore_turn (s : State) (c : CoreId) (v : CoreSt) : (s.setCore c v).turn = s.turn := rfl

@[simp] theorem setDie_cores (s : State) (n : Nat) (v : Die) : (s.setDie n v).cores = s.cores := rfl
@[simp] theorem setDie_drovers (s : State) (n : Nat) (v : Die) : (s.setDie n v).drovers = s.drovers := rfl
@[simp] theorem setDie_mgmt (s : State) (n : Nat) (v : Die) : (s.setDie n v).mgmt = s.mgmt := rfl
@[simp] theorem setDie_colls (s : State) (n : Nat) (v : Die) : (s.setDie n v).colls = s.colls := rfl
@[simp] theorem setDie_mem (s : State) (n : Nat) (v : Die) : (s.setDie n v).mem = s.mem := rfl
@[simp] theorem setDie_lineBad (s : State) (n : Nat) (v : Die) : (s.setDie n v).lineBad = s.lineBad := rfl
@[simp] theorem setDie_lineKey (s : State) (n : Nat) (v : Die) : (s.setDie n v).lineKey = s.lineKey := rfl
@[simp] theorem setDie_treeBad (s : State) (n : Nat) (v : Die) : (s.setDie n v).treeBad = s.treeBad := rfl
@[simp] theorem setDie_minor (s : State) (n : Nat) (v : Die) : (s.setDie n v).minor = s.minor := rfl
@[simp] theorem setDie_major (s : State) (n : Nat) (v : Die) : (s.setDie n v).major = s.major := rfl
@[simp] theorem setDie_latent (s : State) (n : Nat) (v : Die) : (s.setDie n v).latent = s.latent := rfl
@[simp] theorem setDie_hostMem (s : State) (n : Nat) (v : Die) : (s.setDie n v).hostMem = s.hostMem := rfl
@[simp] theorem setDie_peerMem (s : State) (n : Nat) (v : Die) : (s.setDie n v).peerMem = s.peerMem := rfl
@[simp] theorem setDie_peerNext (s : State) (n : Nat) (v : Die) : (s.setDie n v).peerNext = s.peerNext := rfl
@[simp] theorem setDie_lapse (s : State) (n : Nat) (v : Die) : (s.setDie n v).lapse = s.lapse := rfl
@[simp] theorem setDie_migrate (s : State) (n : Nat) (v : Die) : (s.setDie n v).migrate = s.migrate := rfl
@[simp] theorem setDie_reply (s : State) (n : Nat) (v : Die) : (s.setDie n v).reply = s.reply := rfl
@[simp] theorem setDie_cyc (s : State) (n : Nat) (v : Die) : (s.setDie n v).cyc = s.cyc := rfl
@[simp] theorem setDie_ns (s : State) (n : Nat) (v : Die) : (s.setDie n v).ns = s.ns := rfl
@[simp] theorem setDie_frac (s : State) (n : Nat) (v : Die) : (s.setDie n v).frac = s.frac := rfl
@[simp] theorem setDie_up (s : State) (n : Nat) (v : Die) : (s.setDie n v).up = s.up := rfl
@[simp] theorem setDie_ticks (s : State) (n : Nat) (v : Die) : (s.setDie n v).ticks = s.ticks := rfl
@[simp] theorem setDie_freeCtr (s : State) (n : Nat) (v : Die) : (s.setDie n v).freeCtr = s.freeCtr := rfl
@[simp] theorem setDie_ev (s : State) (n : Nat) (v : Die) : (s.setDie n v).ev = s.ev := rfl
@[simp] theorem setDie_agenda (s : State) (n : Nat) (v : Die) : (s.setDie n v).agenda = s.agenda := rfl
@[simp] theorem setDie_waits (s : State) (n : Nat) (v : Die) : (s.setDie n v).waits = s.waits := rfl
@[simp] theorem setDie_cur (s : State) (n : Nat) (v : Die) : (s.setDie n v).cur = s.cur := rfl
@[simp] theorem setDie_strand (s : State) (n : Nat) (v : Die) : (s.setDie n v).strand = s.strand := rfl
@[simp] theorem setDie_turn (s : State) (n : Nat) (v : Die) : (s.setDie n v).turn = s.turn := rfl

@[simp] theorem setDrv_cores (s : State) (n : Nat) (v : Drover) : (s.setDrv n v).cores = s.cores := rfl
@[simp] theorem setDrv_dies (s : State) (n : Nat) (v : Drover) : (s.setDrv n v).dies = s.dies := rfl
@[simp] theorem setDrv_mgmt (s : State) (n : Nat) (v : Drover) : (s.setDrv n v).mgmt = s.mgmt := rfl
@[simp] theorem setDrv_colls (s : State) (n : Nat) (v : Drover) : (s.setDrv n v).colls = s.colls := rfl
@[simp] theorem setDrv_mem (s : State) (n : Nat) (v : Drover) : (s.setDrv n v).mem = s.mem := rfl
@[simp] theorem setDrv_lineBad (s : State) (n : Nat) (v : Drover) : (s.setDrv n v).lineBad = s.lineBad := rfl
@[simp] theorem setDrv_lineKey (s : State) (n : Nat) (v : Drover) : (s.setDrv n v).lineKey = s.lineKey := rfl
@[simp] theorem setDrv_treeBad (s : State) (n : Nat) (v : Drover) : (s.setDrv n v).treeBad = s.treeBad := rfl
@[simp] theorem setDrv_minor (s : State) (n : Nat) (v : Drover) : (s.setDrv n v).minor = s.minor := rfl
@[simp] theorem setDrv_major (s : State) (n : Nat) (v : Drover) : (s.setDrv n v).major = s.major := rfl
@[simp] theorem setDrv_latent (s : State) (n : Nat) (v : Drover) : (s.setDrv n v).latent = s.latent := rfl
@[simp] theorem setDrv_hostMem (s : State) (n : Nat) (v : Drover) : (s.setDrv n v).hostMem = s.hostMem := rfl
@[simp] theorem setDrv_peerMem (s : State) (n : Nat) (v : Drover) : (s.setDrv n v).peerMem = s.peerMem := rfl
@[simp] theorem setDrv_peerNext (s : State) (n : Nat) (v : Drover) : (s.setDrv n v).peerNext = s.peerNext := rfl
@[simp] theorem setDrv_lapse (s : State) (n : Nat) (v : Drover) : (s.setDrv n v).lapse = s.lapse := rfl
@[simp] theorem setDrv_migrate (s : State) (n : Nat) (v : Drover) : (s.setDrv n v).migrate = s.migrate := rfl
@[simp] theorem setDrv_reply (s : State) (n : Nat) (v : Drover) : (s.setDrv n v).reply = s.reply := rfl
@[simp] theorem setDrv_cyc (s : State) (n : Nat) (v : Drover) : (s.setDrv n v).cyc = s.cyc := rfl
@[simp] theorem setDrv_ns (s : State) (n : Nat) (v : Drover) : (s.setDrv n v).ns = s.ns := rfl
@[simp] theorem setDrv_frac (s : State) (n : Nat) (v : Drover) : (s.setDrv n v).frac = s.frac := rfl
@[simp] theorem setDrv_up (s : State) (n : Nat) (v : Drover) : (s.setDrv n v).up = s.up := rfl
@[simp] theorem setDrv_ticks (s : State) (n : Nat) (v : Drover) : (s.setDrv n v).ticks = s.ticks := rfl
@[simp] theorem setDrv_freeCtr (s : State) (n : Nat) (v : Drover) : (s.setDrv n v).freeCtr = s.freeCtr := rfl
@[simp] theorem setDrv_ev (s : State) (n : Nat) (v : Drover) : (s.setDrv n v).ev = s.ev := rfl
@[simp] theorem setDrv_agenda (s : State) (n : Nat) (v : Drover) : (s.setDrv n v).agenda = s.agenda := rfl
@[simp] theorem setDrv_waits (s : State) (n : Nat) (v : Drover) : (s.setDrv n v).waits = s.waits := rfl
@[simp] theorem setDrv_cur (s : State) (n : Nat) (v : Drover) : (s.setDrv n v).cur = s.cur := rfl
@[simp] theorem setDrv_strand (s : State) (n : Nat) (v : Drover) : (s.setDrv n v).strand = s.strand := rfl
@[simp] theorem setDrv_turn (s : State) (n : Nat) (v : Drover) : (s.setDrv n v).turn = s.turn := rfl

@[simp] theorem core_setCore (s : State) (c : CoreId) (v : CoreSt) : (s.setCore c v).core c = v := tget_tset_self ..
theorem core_setCore_ne (s : State) (v : CoreSt) {c d : CoreId} (h : coreKey d ≠ coreKey c) : (s.setCore c v).core d = s.core d :=
  tget_tset_ne _ _ _ h
@[simp] theorem core_setDie (s : State) (n : Nat) (v : Die) (c : CoreId) : (s.setDie n v).core c = s.core c := rfl
@[simp] theorem core_setDrv (s : State) (n : Nat) (v : Drover) (c : CoreId) : (s.setDrv n v).core c = s.core c := rfl
@[simp] theorem die_setDie (s : State) (n : Nat) (v : Die) : (s.setDie n v).die n = v := tget_tset_self ..
theorem die_setDie_ne (s : State) (v : Die) {n m : Nat} (h : m ≠ n) : (s.setDie n v).die m = s.die m := tget_tset_ne _ _ _ h
@[simp] theorem die_setCore (s : State) (c : CoreId) (v : CoreSt) (n : Nat) : (s.setCore c v).die n = s.die n := rfl
@[simp] theorem die_setDrv (s : State) (n m : Nat) (v : Drover) : (s.setDrv n v).die m = s.die m := rfl
@[simp] theorem drv_setDrv (s : State) (n : Nat) (v : Drover) : (s.setDrv n v).drv n = v := tget_tset_self ..
theorem drv_setDrv_ne (s : State) (v : Drover) {n m : Nat} (h : m ≠ n) : (s.setDrv n v).drv m = s.drv m := tget_tset_ne _ _ _ h
@[simp] theorem drv_setCore (s : State) (c : CoreId) (v : CoreSt) (n : Nat) : (s.setCore c v).drv n = s.drv n := rfl
@[simp] theorem drv_setDie (s : State) (n m : Nat) (v : Die) : (s.setDie n v).drv m = s.drv m := rfl
@[simp] theorem setCore_setCore (s : State) (c : CoreId) (v w : CoreSt) : (s.setCore c v).setCore c w = s.setCore c w := by
  simp [State.setCore]

/-! ### The team and the strand whose turn it is -/

@[simp] theorem str_setStr (t : TeamSt) (σ : Strand) (v : StrandSt) : (t.setStr σ v).str σ = v := by cases σ <;> rfl
theorem str_setStr_ne (t : TeamSt) (v : StrandSt) {σ τ : Strand} (h : τ ≠ σ) : (t.setStr σ v).str τ = t.str τ := by
  cases σ <;> cases τ <;> first | rfl | exact absurd rfl h
@[simp] theorem team_setTeam (s : State) (c : CoreId) (t : TeamSt) : (s.setTeam c t).team c = t := by
  simp [State.setTeam, State.team]
@[simp] theorem tm_setTm (s : State) (t : TeamSt) : (s.setTm t).tm = t := by simp [State.setTm, State.tm, State.setTeam, State.team]
@[simp] theorem st_setSt (s : State) (v : StrandSt) : (s.setSt v).st = v := by
  simp [State.setSt, State.st, State.setTm, State.tm, State.setTeam, State.team]
@[simp] theorem core_setTeam (s : State) (c : CoreId) (t : TeamSt) : (s.setTeam c t).core c = { s.core c with team := t } := by
  simp [State.setTeam]
@[simp] theorem core_setTm (s : State) (t : TeamSt) : (s.setTm t).core s.cur = { s.core s.cur with team := t } := by
  simp [State.setTm]
theorem core_setTm_ne (s : State) (t : TeamSt) {c : CoreId} (h : coreKey c ≠ coreKey s.cur) : (s.setTm t).core c = s.core c :=
  core_setCore_ne _ _ h
@[simp] theorem tm_setSt (s : State) (v : StrandSt) : (s.setSt v).tm = s.tm.setStr s.strand v := by simp [State.setSt]
@[simp] theorem setTm_setTm (s : State) (t u : TeamSt) : ((s.setTm t).setTm u) = s.setTm u := by
  simp [State.setTm, State.setTeam]

@[simp] theorem setTeam_dies (s : State) (c : CoreId) (v : TeamSt) : (s.setTeam c v).dies = s.dies := rfl
@[simp] theorem setTeam_drovers (s : State) (c : CoreId) (v : TeamSt) : (s.setTeam c v).drovers = s.drovers := rfl
@[simp] theorem setTeam_mgmt (s : State) (c : CoreId) (v : TeamSt) : (s.setTeam c v).mgmt = s.mgmt := rfl
@[simp] theorem setTeam_colls (s : State) (c : CoreId) (v : TeamSt) : (s.setTeam c v).colls = s.colls := rfl
@[simp] theorem setTeam_mem (s : State) (c : CoreId) (v : TeamSt) : (s.setTeam c v).mem = s.mem := rfl
@[simp] theorem setTeam_lineBad (s : State) (c : CoreId) (v : TeamSt) : (s.setTeam c v).lineBad = s.lineBad := rfl
@[simp] theorem setTeam_lineKey (s : State) (c : CoreId) (v : TeamSt) : (s.setTeam c v).lineKey = s.lineKey := rfl
@[simp] theorem setTeam_treeBad (s : State) (c : CoreId) (v : TeamSt) : (s.setTeam c v).treeBad = s.treeBad := rfl
@[simp] theorem setTeam_minor (s : State) (c : CoreId) (v : TeamSt) : (s.setTeam c v).minor = s.minor := rfl
@[simp] theorem setTeam_major (s : State) (c : CoreId) (v : TeamSt) : (s.setTeam c v).major = s.major := rfl
@[simp] theorem setTeam_latent (s : State) (c : CoreId) (v : TeamSt) : (s.setTeam c v).latent = s.latent := rfl
@[simp] theorem setTeam_hostMem (s : State) (c : CoreId) (v : TeamSt) : (s.setTeam c v).hostMem = s.hostMem := rfl
@[simp] theorem setTeam_peerMem (s : State) (c : CoreId) (v : TeamSt) : (s.setTeam c v).peerMem = s.peerMem := rfl
@[simp] theorem setTeam_peerNext (s : State) (c : CoreId) (v : TeamSt) : (s.setTeam c v).peerNext = s.peerNext := rfl
@[simp] theorem setTeam_lapse (s : State) (c : CoreId) (v : TeamSt) : (s.setTeam c v).lapse = s.lapse := rfl
@[simp] theorem setTeam_migrate (s : State) (c : CoreId) (v : TeamSt) : (s.setTeam c v).migrate = s.migrate := rfl
@[simp] theorem setTeam_reply (s : State) (c : CoreId) (v : TeamSt) : (s.setTeam c v).reply = s.reply := rfl
@[simp] theorem setTeam_cyc (s : State) (c : CoreId) (v : TeamSt) : (s.setTeam c v).cyc = s.cyc := rfl
@[simp] theorem setTeam_ns (s : State) (c : CoreId) (v : TeamSt) : (s.setTeam c v).ns = s.ns := rfl
@[simp] theorem setTeam_frac (s : State) (c : CoreId) (v : TeamSt) : (s.setTeam c v).frac = s.frac := rfl
@[simp] theorem setTeam_up (s : State) (c : CoreId) (v : TeamSt) : (s.setTeam c v).up = s.up := rfl
@[simp] theorem setTeam_ticks (s : State) (c : CoreId) (v : TeamSt) : (s.setTeam c v).ticks = s.ticks := rfl
@[simp] theorem setTeam_freeCtr (s : State) (c : CoreId) (v : TeamSt) : (s.setTeam c v).freeCtr = s.freeCtr := rfl
@[simp] theorem setTeam_ev (s : State) (c : CoreId) (v : TeamSt) : (s.setTeam c v).ev = s.ev := rfl
@[simp] theorem setTeam_agenda (s : State) (c : CoreId) (v : TeamSt) : (s.setTeam c v).agenda = s.agenda := rfl
@[simp] theorem setTeam_waits (s : State) (c : CoreId) (v : TeamSt) : (s.setTeam c v).waits = s.waits := rfl
@[simp] theorem setTeam_cur (s : State) (c : CoreId) (v : TeamSt) : (s.setTeam c v).cur = s.cur := rfl
@[simp] theorem setTeam_strand (s : State) (c : CoreId) (v : TeamSt) : (s.setTeam c v).strand = s.strand := rfl
@[simp] theorem setTeam_turn (s : State) (c : CoreId) (v : TeamSt) : (s.setTeam c v).turn = s.turn := rfl

@[simp] theorem setTm_dies (s : State) (v : TeamSt) : (s.setTm v).dies = s.dies := rfl
@[simp] theorem setTm_drovers (s : State) (v : TeamSt) : (s.setTm v).drovers = s.drovers := rfl
@[simp] theorem setTm_mgmt (s : State) (v : TeamSt) : (s.setTm v).mgmt = s.mgmt := rfl
@[simp] theorem setTm_colls (s : State) (v : TeamSt) : (s.setTm v).colls = s.colls := rfl
@[simp] theorem setTm_mem (s : State) (v : TeamSt) : (s.setTm v).mem = s.mem := rfl
@[simp] theorem setTm_lineBad (s : State) (v : TeamSt) : (s.setTm v).lineBad = s.lineBad := rfl
@[simp] theorem setTm_lineKey (s : State) (v : TeamSt) : (s.setTm v).lineKey = s.lineKey := rfl
@[simp] theorem setTm_treeBad (s : State) (v : TeamSt) : (s.setTm v).treeBad = s.treeBad := rfl
@[simp] theorem setTm_minor (s : State) (v : TeamSt) : (s.setTm v).minor = s.minor := rfl
@[simp] theorem setTm_major (s : State) (v : TeamSt) : (s.setTm v).major = s.major := rfl
@[simp] theorem setTm_latent (s : State) (v : TeamSt) : (s.setTm v).latent = s.latent := rfl
@[simp] theorem setTm_hostMem (s : State) (v : TeamSt) : (s.setTm v).hostMem = s.hostMem := rfl
@[simp] theorem setTm_peerMem (s : State) (v : TeamSt) : (s.setTm v).peerMem = s.peerMem := rfl
@[simp] theorem setTm_peerNext (s : State) (v : TeamSt) : (s.setTm v).peerNext = s.peerNext := rfl
@[simp] theorem setTm_lapse (s : State) (v : TeamSt) : (s.setTm v).lapse = s.lapse := rfl
@[simp] theorem setTm_migrate (s : State) (v : TeamSt) : (s.setTm v).migrate = s.migrate := rfl
@[simp] theorem setTm_reply (s : State) (v : TeamSt) : (s.setTm v).reply = s.reply := rfl
@[simp] theorem setTm_cyc (s : State) (v : TeamSt) : (s.setTm v).cyc = s.cyc := rfl
@[simp] theorem setTm_ns (s : State) (v : TeamSt) : (s.setTm v).ns = s.ns := rfl
@[simp] theorem setTm_frac (s : State) (v : TeamSt) : (s.setTm v).frac = s.frac := rfl
@[simp] theorem setTm_up (s : State) (v : TeamSt) : (s.setTm v).up = s.up := rfl
@[simp] theorem setTm_ticks (s : State) (v : TeamSt) : (s.setTm v).ticks = s.ticks := rfl
@[simp] theorem setTm_freeCtr (s : State) (v : TeamSt) : (s.setTm v).freeCtr = s.freeCtr := rfl
@[simp] theorem setTm_ev (s : State) (v : TeamSt) : (s.setTm v).ev = s.ev := rfl
@[simp] theorem setTm_agenda (s : State) (v : TeamSt) : (s.setTm v).agenda = s.agenda := rfl
@[simp] theorem setTm_waits (s : State) (v : TeamSt) : (s.setTm v).waits = s.waits := rfl
@[simp] theorem setTm_cur (s : State) (v : TeamSt) : (s.setTm v).cur = s.cur := rfl
@[simp] theorem setTm_strand (s : State) (v : TeamSt) : (s.setTm v).strand = s.strand := rfl
@[simp] theorem setTm_turn (s : State) (v : TeamSt) : (s.setTm v).turn = s.turn := rfl

@[simp] theorem setSt_dies (s : State) (v : StrandSt) : (s.setSt v).dies = s.dies := rfl
@[simp] theorem setSt_drovers (s : State) (v : StrandSt) : (s.setSt v).drovers = s.drovers := rfl
@[simp] theorem setSt_mgmt (s : State) (v : StrandSt) : (s.setSt v).mgmt = s.mgmt := rfl
@[simp] theorem setSt_colls (s : State) (v : StrandSt) : (s.setSt v).colls = s.colls := rfl
@[simp] theorem setSt_mem (s : State) (v : StrandSt) : (s.setSt v).mem = s.mem := rfl
@[simp] theorem setSt_lineBad (s : State) (v : StrandSt) : (s.setSt v).lineBad = s.lineBad := rfl
@[simp] theorem setSt_lineKey (s : State) (v : StrandSt) : (s.setSt v).lineKey = s.lineKey := rfl
@[simp] theorem setSt_treeBad (s : State) (v : StrandSt) : (s.setSt v).treeBad = s.treeBad := rfl
@[simp] theorem setSt_minor (s : State) (v : StrandSt) : (s.setSt v).minor = s.minor := rfl
@[simp] theorem setSt_major (s : State) (v : StrandSt) : (s.setSt v).major = s.major := rfl
@[simp] theorem setSt_latent (s : State) (v : StrandSt) : (s.setSt v).latent = s.latent := rfl
@[simp] theorem setSt_hostMem (s : State) (v : StrandSt) : (s.setSt v).hostMem = s.hostMem := rfl
@[simp] theorem setSt_peerMem (s : State) (v : StrandSt) : (s.setSt v).peerMem = s.peerMem := rfl
@[simp] theorem setSt_peerNext (s : State) (v : StrandSt) : (s.setSt v).peerNext = s.peerNext := rfl
@[simp] theorem setSt_lapse (s : State) (v : StrandSt) : (s.setSt v).lapse = s.lapse := rfl
@[simp] theorem setSt_migrate (s : State) (v : StrandSt) : (s.setSt v).migrate = s.migrate := rfl
@[simp] theorem setSt_reply (s : State) (v : StrandSt) : (s.setSt v).reply = s.reply := rfl
@[simp] theorem setSt_cyc (s : State) (v : StrandSt) : (s.setSt v).cyc = s.cyc := rfl
@[simp] theorem setSt_ns (s : State) (v : StrandSt) : (s.setSt v).ns = s.ns := rfl
@[simp] theorem setSt_frac (s : State) (v : StrandSt) : (s.setSt v).frac = s.frac := rfl
@[simp] theorem setSt_up (s : State) (v : StrandSt) : (s.setSt v).up = s.up := rfl
@[simp] theorem setSt_ticks (s : State) (v : StrandSt) : (s.setSt v).ticks = s.ticks := rfl
@[simp] theorem setSt_freeCtr (s : State) (v : StrandSt) : (s.setSt v).freeCtr = s.freeCtr := rfl
@[simp] theorem setSt_ev (s : State) (v : StrandSt) : (s.setSt v).ev = s.ev := rfl
@[simp] theorem setSt_agenda (s : State) (v : StrandSt) : (s.setSt v).agenda = s.agenda := rfl
@[simp] theorem setSt_waits (s : State) (v : StrandSt) : (s.setSt v).waits = s.waits := rfl
@[simp] theorem setSt_cur (s : State) (v : StrandSt) : (s.setSt v).cur = s.cur := rfl
@[simp] theorem setSt_strand (s : State) (v : StrandSt) : (s.setSt v).strand = s.strand := rfl
@[simp] theorem setSt_turn (s : State) (v : StrandSt) : (s.setSt v).turn = s.turn := rfl

@[simp] theorem setStr_id (t : TeamSt) (σ : Strand) (v : StrandSt) : (t.setStr σ v).id = t.id := by cases σ <;> rfl
@[simp] theorem setStr_brands (t : TeamSt) (σ : Strand) (v : StrandSt) : (t.setStr σ v).brands = t.brands := by cases σ <;> rfl
@[simp] theorem setStr_opened (t : TeamSt) (σ : Strand) (v : StrandSt) : (t.setStr σ v).opened = t.opened := by cases σ <;> rfl
@[simp] theorem setStr_ca (t : TeamSt) (σ : Strand) (v : StrandSt) : (t.setStr σ v).ca = t.ca := by cases σ <;> rfl
@[simp] theorem setStr_cx (t : TeamSt) (σ : Strand) (v : StrandSt) : (t.setStr σ v).cx = t.cx := by cases σ <;> rfl
@[simp] theorem setStr_xc (t : TeamSt) (σ : Strand) (v : StrandSt) : (t.setStr σ v).xc = t.xc := by cases σ <;> rfl
@[simp] theorem setStr_ac (t : TeamSt) (σ : Strand) (v : StrandSt) : (t.setStr σ v).ac = t.ac := by cases σ <;> rfl
@[simp] theorem setStr_dq (t : TeamSt) (σ : Strand) (v : StrandSt) : (t.setStr σ v).dq = t.dq := by cases σ <;> rfl
@[simp] theorem setStr_sdq (t : TeamSt) (σ : Strand) (v : StrandSt) : (t.setStr σ v).sdq = t.sdq := by cases σ <;> rfl
@[simp] theorem setStr_bq (t : TeamSt) (σ : Strand) (v : StrandSt) : (t.setStr σ v).bq = t.bq := by cases σ <;> rfl
@[simp] theorem setStr_lq (t : TeamSt) (σ : Strand) (v : StrandSt) : (t.setStr σ v).lq = t.lq := by cases σ <;> rfl
@[simp] theorem setStr_sq (t : TeamSt) (σ : Strand) (v : StrandSt) : (t.setStr σ v).sq = t.sq := by cases σ <;> rfl
@[simp] theorem setStr_scat (t : TeamSt) (σ : Strand) (v : StrandSt) : (t.setStr σ v).scat = t.scat := by cases σ <;> rfl
@[simp] theorem setStr_claims (t : TeamSt) (σ : Strand) (v : StrandSt) : (t.setStr σ v).claims = t.claims := by cases σ <;> rfl
@[simp] theorem setStr_nextId (t : TeamSt) (σ : Strand) (v : StrandSt) : (t.setStr σ v).nextId = t.nextId := by cases σ <;> rfl
@[simp] theorem setStr_slip (t : TeamSt) (σ : Strand) (v : StrandSt) : (t.setStr σ v).slip = t.slip := by cases σ <;> rfl
@[simp] theorem setStr_fmtctl (t : TeamSt) (σ : Strand) (v : StrandSt) : (t.setStr σ v).fmtctl = t.fmtctl := by cases σ <;> rfl
@[simp] theorem setStr_locsz (t : TeamSt) (σ : Strand) (v : StrandSt) : (t.setStr σ v).locsz = t.locsz := by cases σ <;> rfl
@[simp] theorem setStr_waitth (t : TeamSt) (σ : Strand) (v : StrandSt) : (t.setStr σ v).waitth = t.waitth := by cases σ <;> rfl
@[simp] theorem setStr_serr (t : TeamSt) (σ : Strand) (v : StrandSt) : (t.setStr σ v).serr = t.serr := by cases σ <;> rfl
@[simp] theorem setStr_serra (t : TeamSt) (σ : Strand) (v : StrandSt) : (t.setStr σ v).serra = t.serra := by cases σ <;> rfl
@[simp] theorem setStr_serrStrand (t : TeamSt) (σ : Strand) (v : StrandSt) : (t.setStr σ v).serrStrand = t.serrStrand := by cases σ <;> rfl
@[simp] theorem setStr_serrPc (t : TeamSt) (σ : Strand) (v : StrandSt) : (t.setStr σ v).serrPc = t.serrPc := by cases σ <;> rfl
@[simp] theorem setStr_board (t : TeamSt) (σ : Strand) (v : StrandSt) : (t.setStr σ v).board = t.board := by cases σ <;> rfl
@[simp] theorem setStr_ends (t : TeamSt) (σ : Strand) (v : StrandSt) : (t.setStr σ v).ends = t.ends := by cases σ <;> rfl
@[simp] theorem setStr_tickets (t : TeamSt) (σ : Strand) (v : StrandSt) : (t.setStr σ v).tickets = t.tickets := by cases σ <;> rfl
@[simp] theorem setStr_copySeq (t : TeamSt) (σ : Strand) (v : StrandSt) : (t.setStr σ v).copySeq = t.copySeq := by cases σ <;> rfl
@[simp] theorem setStr_runCyc (t : TeamSt) (σ : Strand) (v : StrandSt) : (t.setStr σ v).runCyc = t.runCyc := by cases σ <;> rfl
@[simp] theorem setStr_flock (t : TeamSt) (σ : Strand) (v : StrandSt) : (t.setStr σ v).flock = t.flock := by cases σ <;> rfl
@[simp] theorem setStr_join (t : TeamSt) (σ : Strand) (v : StrandSt) : (t.setStr σ v).join = t.join := by cases σ <;> rfl
@[simp] theorem setStr_arrival (t : TeamSt) (σ : Strand) (v : StrandSt) : (t.setStr σ v).arrival = t.arrival := by cases σ <;> rfl
@[simp] theorem setStr_phase (t : TeamSt) (σ : Strand) (v : StrandSt) : (t.setStr σ v).phase = t.phase := by cases σ <;> rfl
@[simp] theorem setStr_vregs (t : TeamSt) (σ : Strand) (v : StrandSt) : (t.setStr σ v).vregs = t.vregs := by cases σ <;> rfl
@[simp] theorem setStr_vlat (t : TeamSt) (σ : Strand) (v : StrandSt) : (t.setStr σ v).vlat = t.vlat := by cases σ <;> rfl
@[simp] theorem setStr_masks (t : TeamSt) (σ : Strand) (v : StrandSt) : (t.setStr σ v).masks = t.masks := by cases σ <;> rfl
@[simp] theorem setStr_amask (t : TeamSt) (σ : Strand) (v : StrandSt) : (t.setStr σ v).amask = t.amask := by cases σ <;> rfl
@[simp] theorem setStr_ports (t : TeamSt) (σ : Strand) (v : StrandSt) : (t.setStr σ v).ports = t.ports := by cases σ <;> rfl
@[simp] theorem setStr_perm (t : TeamSt) (σ : Strand) (v : StrandSt) : (t.setStr σ v).perm = t.perm := by cases σ <;> rfl
@[simp] theorem setStr_tiles (t : TeamSt) (σ : Strand) (v : StrandSt) : (t.setStr σ v).tiles = t.tiles := by cases σ <;> rfl
@[simp] theorem setStr_ix0 (t : TeamSt) (σ : Strand) (v : StrandSt) : (t.setStr σ v).ix0 = t.ix0 := by cases σ <;> rfl
@[simp] theorem setStr_ix1 (t : TeamSt) (σ : Strand) (v : StrandSt) : (t.setStr σ v).ix1 = t.ix1 := by cases σ <;> rfl
@[simp] theorem setStr_ix2 (t : TeamSt) (σ : Strand) (v : StrandSt) : (t.setStr σ v).ix2 = t.ix2 := by cases σ <;> rfl
@[simp] theorem setStr_staging (t : TeamSt) (σ : Strand) (v : StrandSt) : (t.setStr σ v).staging = t.staging := by cases σ <;> rfl
@[simp] theorem setStr_bank (t : TeamSt) (σ : Strand) (v : StrandSt) : (t.setStr σ v).bank = t.bank := by cases σ <;> rfl
@[simp] theorem setStr_kind (t : TeamSt) (σ : Strand) (v : StrandSt) : (t.setStr σ v).kind = t.kind := by cases σ <;> rfl
@[simp] theorem setStr_fresh (t : TeamSt) (σ : Strand) (v : StrandSt) : (t.setStr σ v).fresh = t.fresh := by cases σ <;> rfl
@[simp] theorem setStr_leaseRq (t : TeamSt) (σ : Strand) (v : StrandSt) : (t.setStr σ v).leaseRq = t.leaseRq := by cases σ <;> rfl
@[simp] theorem setStr_tq (t : TeamSt) (σ : Strand) (v : StrandSt) : (t.setStr σ v).tq = t.tq := by cases σ <;> rfl
@[simp] theorem setStr_mstat (t : TeamSt) (σ : Strand) (v : StrandSt) : (t.setStr σ v).mstat = t.mstat := by cases σ <;> rfl
@[simp] theorem setStr_preHeld (t : TeamSt) (σ : Strand) (v : StrandSt) : (t.setStr σ v).preHeld = t.preHeld := by cases σ <;> rfl
@[simp] theorem setStr_xpandOut (t : TeamSt) (σ : Strand) (v : StrandSt) : (t.setStr σ v).xpandOut = t.xpandOut := by cases σ <;> rfl
@[simp] theorem setStr_preNow (t : TeamSt) (σ : Strand) (v : StrandSt) : (t.setStr σ v).preNow = t.preNow := by cases σ <;> rfl
@[simp] theorem setStr_raised (t : TeamSt) (σ : Strand) (v : StrandSt) : (t.setStr σ v).raised = t.raised := by cases σ <;> rfl
@[simp] theorem setStr_order (t : TeamSt) (σ : Strand) (v : StrandSt) : (t.setStr σ v).order = t.order := by cases σ <;> rfl

/-! ### Requests that wait, and messages to firmware -/

@[simp] theorem putOff_waits (s : State) (m : Sched) : (s.putOff m).waits = s.waits ++ [(s.turn + 24, m)] := rfl
@[simp] theorem putOff_cores (s : State) (m : Sched) : (s.putOff m).cores = s.cores := rfl
@[simp] theorem putOff_dies (s : State) (m : Sched) : (s.putOff m).dies = s.dies := rfl
@[simp] theorem putOff_drovers (s : State) (m : Sched) : (s.putOff m).drovers = s.drovers := rfl
@[simp] theorem putOff_mgmt (s : State) (m : Sched) : (s.putOff m).mgmt = s.mgmt := rfl
@[simp] theorem putOff_colls (s : State) (m : Sched) : (s.putOff m).colls = s.colls := rfl
@[simp] theorem putOff_mem (s : State) (m : Sched) : (s.putOff m).mem = s.mem := rfl
@[simp] theorem putOff_lineBad (s : State) (m : Sched) : (s.putOff m).lineBad = s.lineBad := rfl
@[simp] theorem putOff_lineKey (s : State) (m : Sched) : (s.putOff m).lineKey = s.lineKey := rfl
@[simp] theorem putOff_treeBad (s : State) (m : Sched) : (s.putOff m).treeBad = s.treeBad := rfl
@[simp] theorem putOff_minor (s : State) (m : Sched) : (s.putOff m).minor = s.minor := rfl
@[simp] theorem putOff_major (s : State) (m : Sched) : (s.putOff m).major = s.major := rfl
@[simp] theorem putOff_latent (s : State) (m : Sched) : (s.putOff m).latent = s.latent := rfl
@[simp] theorem putOff_hostMem (s : State) (m : Sched) : (s.putOff m).hostMem = s.hostMem := rfl
@[simp] theorem putOff_peerMem (s : State) (m : Sched) : (s.putOff m).peerMem = s.peerMem := rfl
@[simp] theorem putOff_peerNext (s : State) (m : Sched) : (s.putOff m).peerNext = s.peerNext := rfl
@[simp] theorem putOff_lapse (s : State) (m : Sched) : (s.putOff m).lapse = s.lapse := rfl
@[simp] theorem putOff_migrate (s : State) (m : Sched) : (s.putOff m).migrate = s.migrate := rfl
@[simp] theorem putOff_reply (s : State) (m : Sched) : (s.putOff m).reply = s.reply := rfl
@[simp] theorem putOff_cyc (s : State) (m : Sched) : (s.putOff m).cyc = s.cyc := rfl
@[simp] theorem putOff_ns (s : State) (m : Sched) : (s.putOff m).ns = s.ns := rfl
@[simp] theorem putOff_frac (s : State) (m : Sched) : (s.putOff m).frac = s.frac := rfl
@[simp] theorem putOff_up (s : State) (m : Sched) : (s.putOff m).up = s.up := rfl
@[simp] theorem putOff_ticks (s : State) (m : Sched) : (s.putOff m).ticks = s.ticks := rfl
@[simp] theorem putOff_freeCtr (s : State) (m : Sched) : (s.putOff m).freeCtr = s.freeCtr := rfl
@[simp] theorem putOff_ev (s : State) (m : Sched) : (s.putOff m).ev = s.ev := rfl
@[simp] theorem putOff_agenda (s : State) (m : Sched) : (s.putOff m).agenda = s.agenda := rfl
@[simp] theorem putOff_cur (s : State) (m : Sched) : (s.putOff m).cur = s.cur := rfl
@[simp] theorem putOff_strand (s : State) (m : Sched) : (s.putOff m).strand = s.strand := rfl
@[simp] theorem putOff_turn (s : State) (m : Sched) : (s.putOff m).turn = s.turn := rfl
@[simp] theorem orWaited_ok (s u : State) : s.orWaited (.ok u) = u := rfl
@[simp] theorem orWaited_error (s : State) (h : Hold) : s.orWaited (.error h) = s.waited h := rfl
@[simp] theorem waited_stall (s : State) : s.waited .stall = s := rfl
@[simp] theorem waited_dry (s : State) (n : Nat) : s.waited (.dry n) = s.poolDry n := rfl
@[simp] theorem freshWord_word (s : State) : s.freshWord.1 = Config.freeWord s.freeCtr := rfl
@[simp] theorem freshWord_state (s : State) : s.freshWord.2 = { s with freeCtr := s.freeCtr + 1 } := rfl

end Sys2Proof.Machine
end

