-- ==== Sys2Proof/Laws/Issue.lean ====
section
/-! SUPPORT. What the issue of a word comes to (R36, R53): one lemma for each way in which a word can end. -/

namespace Sys2Proof.Machine

/-- A word that passes the checks of its head is given to its body. -/
theorem issue_body {s : State} {h : Head} {body : State → Iss Done} (hi : s.Issues h.tag h.phase) (hl : h.legal = true)
    (hp : h.priv = true → s.cls = .drover) :
    s.issue h body = match body s with
      | .ok d => match d.held with
        | some k => d.s.noteHold k
        | none => match d.trap with
          | none => d.s.retire (h.tag == .W) d.pc d.flow
          | some f => (d.s.retire (h.tag == .W) d.pc d.flow).takeFault s.st.pc d.pc f
      | .error (.stall k) => s.noteHold k
      | .error (.fault f) => s.takeFault s.st.pc s.st.pc f := by
  obtain ⟨h1, h2, h3⟩ := hi
  unfold State.issue
  simp only [h1, hl, Bool.not_true, Bool.false_eq_true, if_false]
  refine (if_neg ?_).trans ((if_neg ?_).trans ((if_neg ?_).trans rfl))
  · intro h; simp at h; exact absurd (h2 h.1) (by simp [h.2])
  · intro h; simp at h; exact absurd (hp h.1) (by simp [h.2])
  · intro h; simp at h; exact absurd (h3 h.1.1 h.1.2) (by simp [h.2])

/-- A word that ends retires. -/
theorem run_ok {s : State} {h : Head} {body : State → Iss Done} {d : Done} (hi : s.Issues h.tag h.phase) (hl : h.legal = true)
    (hp : h.priv = true → s.cls = .drover) (hb : body s = .ok d) (hh : d.held = none) (ht : d.trap = none) :
    s.run h body = .next (d.s.retire (h.tag == .W) d.pc d.flow) := by
  simp [State.run, issue_body hi hl hp, hb, hh, ht]

/-- A word that retires and then faults. -/
theorem run_trap {s : State} {h : Head} {body : State → Iss Done} {d : Done} {f : Flt} (hi : s.Issues h.tag h.phase)
    (hl : h.legal = true) (hp : h.priv = true → s.cls = .drover) (hb : body s = .ok d) (hh : d.held = none) (ht : d.trap = some f) :
    s.run h body = .next ((d.s.retire (h.tag == .W) d.pc d.flow).takeFault s.st.pc d.pc f) := by
  simp [State.run, issue_body hi hl hp, hb, hh, ht]

/-- A word that has begun a wait. -/
theorem run_held {s : State} {h : Head} {body : State → Iss Done} {d : Done} {k : Hold} (hi : s.Issues h.tag h.phase)
    (hl : h.legal = true) (hp : h.priv = true → s.cls = .drover) (hb : body s = .ok d) (hh : d.held = some k) :
    s.run h body = .next (d.s.noteHold k) := by
  simp [State.run, issue_body hi hl hp, hb, hh]

/-- A word that is held. -/
theorem run_stall {s : State} {h : Head} {body : State → Iss Done} {k : Hold} (hi : s.Issues h.tag h.phase)
    (hl : h.legal = true) (hp : h.priv = true → s.cls = .drover) (hb : body s = .error (.stall k)) :
    s.run h body = .next (s.noteHold k) := by
  simp [State.run, issue_body hi hl hp, hb]

/-- A word that faults. -/
theorem run_fault {s : State} {h : Head} {body : State → Iss Done} {f : Flt} (hi : s.Issues h.tag h.phase)
    (hl : h.legal = true) (hp : h.priv = true → s.cls = .drover) (hb : body s = .error (.fault f)) :
    s.run h body = .next (s.takeFault s.st.pc s.st.pc f) := by
  simp [State.run, issue_body hi hl hp, hb]

/-- A word that its head does not allow raises `ILLEGAL`. -/
theorem run_illegal {s : State} {h : Head} {body : State → Iss Done} (ht : tagRuns h.tag s.strand = true)
    (hw : h.tag = .W → slipFree s.tm s.strand = true) (hl : h.legal = false) :
    s.run h body = .next (s.faulted .ILLEGAL 0 0) := by
  unfold State.run State.issue State.faulted
  simp only [ht, hl, Bool.not_true, Bool.not_false, Bool.false_eq_true, if_false, if_true]
  rw [if_neg]
  intro h; simp at h; exact absurd (hw h.1) (by simp [h.2])

/-- A privileged word on a core that is not a DROVER core raises `PRIV`. -/
theorem run_priv {s : State} {h : Head} {body : State → Iss Done} (ht : tagRuns h.tag s.strand = true)
    (hw : h.tag = .W → slipFree s.tm s.strand = true) (hl : h.legal = true) (hp : h.priv = true) (hc : s.cls ≠ .drover) :
    s.run h body = .next (s.faulted .PRIV 0 0) := by
  unfold State.run State.issue State.faulted
  simp only [ht, hl, hp, Bool.not_true, Bool.false_eq_true, if_false]
  rw [if_neg, if_pos]
  · simp [hc]
  · intro h; simp at h; exact absurd (hw h.1) (by simp [h.2])

/-- X in a transfer phase meets a word that is not for it: what check 5 of R53 finds stands before `XPHASE`. -/
theorem run_xphase {s : State} {h : Head} {body : State → Iss Done} (ht : tagRuns h.tag s.strand = true)
    (hw : h.tag = .W → slipFree s.tm s.strand = true) (hl : h.legal = true) (hp : h.priv = false) (hx : s.strand = .X)
    (hph : inPhase s.tm = true) (hq : h.phase = false) :
    s.run h body = .next (s.takeFault s.st.pc s.st.pc (h.target.getD ⟨.XPHASE, 0, 0, [], false, none⟩)) := by
  unfold State.run State.issue
  simp only [ht, hl, hp, hq, hph, Bool.not_true, Bool.false_eq_true, if_false, Bool.false_and, Bool.not_false, Bool.and_true]
  rw [if_neg, if_pos]
  · simp [hx]
  · intro h; simp at h; exact absurd (hw h.1) (by simp [h.2])

/-- A word of another strand is passed over. -/
theorem run_other {s : State} {h : Head} {body : State → Iss Done} (ht : tagRuns h.tag s.strand = false) :
    s.run h body = .next (s.setSt { s.st with pc := s.st.pc + 1, org := some s.st.pc }) := by
  simp [State.run, State.issue, ht]

/-- A W-tagged word whose span boundary slip does not free holds its strand. -/
theorem run_slip {s : State} {h : Head} {body : State → Iss Done} (ht : tagRuns h.tag s.strand = true) (hw : h.tag = .W)
    (hs : slipFree s.tm s.strand = false) : s.run h body = .next (s.noteHold .stall) := by
  rw [hw] at ht
  simp [State.run, State.issue, hw, hs, ht]

end Sys2Proof.Machine
end

