-- ==== Sys2Proof/Laws/Memory.lean ====
section
/-! SUPPORT. The operations on cells keep their canonical form, and a byte reads as it was written last. -/

namespace Sys2Proof.Machine

/-- A lower bound may be lowered. -/
theorem cellsFrom_mono {m : List Host.Cell} {b c : Nat} (h : cellsFrom c m = true) (hbc : b ≤ c) : cellsFrom b m = true := by
  cases m with
  | nil => rfl
  | cons e t => simp [cellsFrom] at h ⊢; exact ⟨⟨by omega, h.1.2⟩, h.2⟩

/-- Below its bound a canonical list reads as the empty byte. -/
theorem cget_below {m : List Host.Cell} {b a : Nat} (h : cellsFrom b m = true) (ha : a < b) : cget m a = emptyByte := by
  cases m with
  | nil => rfl
  | cons e t =>
    simp [cellsFrom] at h
    have h1 : ¬ e.1 = a := by omega
    have h2 : a < e.1 := by omega
    simp [cget, h1, h2]

/-- A byte written keeps the form. -/
theorem cellsFrom_cset {m : List Host.Cell} {b a : Nat} {v : Byte} (h : cellsFrom b m = true) (ha : b ≤ a) :
    cellsFrom b (cset m a v) = true := by
  induction m generalizing b with
  | nil => by_cases hv : v = emptyByte <;> simp [cset, cellsFrom, hv, ha]
  | cons e t ih =>
    obtain ⟨i, w⟩ := e
    simp [cellsFrom] at h
    unfold cset
    by_cases h1 : a < i
    · by_cases hv : v = emptyByte
      · simp [h1, hv, cellsFrom, h]
      · simp only [h1, if_true, hv, if_false]
        simp [cellsFrom, hv, ha, h] <;> omega
    · by_cases h2 : a = i
      · subst h2
        by_cases hv : v = emptyByte
        · simp only [h1, if_false, hv, if_true]; exact cellsFrom_mono h.2 (by omega)
        · simp [cellsFrom, hv, ha, h]
      · simp only [h1, h2, if_false]
        simp only [cellsFrom, Bool.and_eq_true, decide_eq_true_eq]
        exact ⟨⟨h.1.1, h.1.2⟩, ih h.2 (by omega)⟩

/-- `cset` keeps the canonical form. -/
theorem wf_cset {m : List Host.Cell} (a : Nat) (v : Byte) (h : Memory.wf m = true) : Memory.wf (cset m a v) = true :=
  cellsFrom_cset h (Nat.zero_le a)

/-- `cwrite` keeps the canonical form. -/
theorem wf_cwrite {m : List Host.Cell} (a : Nat) (d : List Byte) (h : Memory.wf m = true) : Memory.wf (cwrite m a d) = true := by
  induction d generalizing m a with
  | nil => exact h
  | cons x t ih => exact ih (a + 1) (wf_cset a x h)

/-- Taking cells away keeps the form. -/
theorem cellsFrom_filter {m : List Host.Cell} {b : Nat} (p : Host.Cell → Bool) (h : cellsFrom b m = true) :
    cellsFrom b (m.filter p) = true := by
  induction m generalizing b with
  | nil => rfl
  | cons e t ih =>
    simp [cellsFrom] at h
    by_cases hp : p e = true
    · simp only [List.filter_cons, hp, if_true, cellsFrom, Bool.and_eq_true, decide_eq_true_eq]
      exact ⟨⟨h.1.1, h.1.2⟩, ih h.2⟩
    · simp only [List.filter_cons, hp, Bool.false_eq_true, if_false]
      exact ih (cellsFrom_mono h.2 (by omega))

/-- `cclear` keeps the canonical form. -/
theorem wf_cclear {m : List Host.Cell} (a n : Nat) (h : Memory.wf m = true) : Memory.wf (cclear m a n) = true :=
  cellsFrom_filter _ h

/-- A byte reads as it was written, and every other byte as before. -/
theorem cget_cset_from {m : List Host.Cell} {b a : Nat} {v : Byte} (h : cellsFrom b m = true) (k : Nat) :
    cget (cset m a v) k = if k = a then v else cget m k := by
  induction m generalizing b with
  | nil =>
    by_cases hv : v = emptyByte
    · simp [cset, cget, hv]
    · by_cases hk : a = k
      · subst hk; simp [cset, cget, hv]
      · have hk' : ¬ k = a := fun e => hk e.symm
        simp [cset, cget, hv, hk, hk']
  | cons e t ih =>
    obtain ⟨i, w⟩ := e
    simp [cellsFrom] at h
    have hbelow : ∀ j, j < i + 1 → cget t j = emptyByte := fun j hj => cget_below h.2 hj
    unfold cset
    by_cases h1 : a < i
    · by_cases hv : v = emptyByte
      · simp only [h1, if_true, hv]
        by_cases hk : k = a
        · subst hk
          have h3 : ¬ i = k := by omega
          simp [cget, h3, h1]
        · simp [hk]
      · simp only [h1, if_true, hv, if_false]
        by_cases hk : k = a
        · subst hk; simp [cget]
        · have h4 : ¬ a = k := fun e => hk e.symm
          by_cases h5 : k < a
          · have h6 : ¬ i = k := by omega
            have h7 : k < i := by omega
            simp [cget, hk, h4, h5, h6, h7]
          · simp [cget, hk, h4, h5]
    · by_cases h2 : a = i
      · subst h2
        by_cases hv : v = emptyByte
        · simp only [h1, if_false, hv, if_true]
          by_cases hk : k = a
          · subst hk; simp [hbelow k (by omega)]
          · have h4 : ¬ a = k := fun e => hk e.symm
            by_cases h5 : k < a
            · simp [cget, hk, h4, h5, hbelow k (by omega)]
            · simp [cget, hk, h4, h5]
        · simp only [h1, if_false, hv, if_true]
          by_cases hk : k = a
          · subst hk; simp [cget]
          · have h4 : ¬ a = k := fun e => hk e.symm
            simp [cget, hk, h4]
      · simp only [h1, h2, if_false]
        by_cases h5 : i = k
        · subst h5
          have h6 : ¬ i = a := fun e => h2 e.symm
          simp [cget, h6]
        · by_cases h7 : k < i
          · have h6 : ¬ k = a := by omega
            simp [cget, h5, h7, h6]
          · simp only [cget, h5, h7, if_false]
            exact ih h.2

/-- `cget` after `cset`. -/
theorem cget_cset {m : List Host.Cell} (a : Nat) (v : Byte) (k : Nat) (h : Memory.wf m = true) :
    cget (cset m a v) k = if k = a then v else cget m k := cget_cset_from h k

end Sys2Proof.Machine
end

