-- ==== Sys2Proof/Laws/Operands.lean ====
section
/-! SUPPORT. What the frames of R99 come to where the operands are there and the result has room. -/

namespace Sys2Proof.Machine

theorem frameK_ok {s u : State} {d : Bool} {r a b : BitVec 6} {x y : W64} {f : W64 → W64 → W64} (h : s.Reads2 a b x y u)
    (hr : s.room d r = .ok ()) : s.frameK d r a b f = .ok (u.put d r (f x y)).goOn := by
  obtain ⟨h1, v, h2, h3⟩ := h
  simp [State.frameK, h1, h2, h3, hr, bind, Except.bind]

theorem frameI_ok {s u : State} {d : Bool} {r a : BitVec 6} {x : W64} {f : W64 → W64} (h : s.Reads1 a x u)
    (hr : s.room d r = .ok ()) : s.frameI d r a f = .ok (u.put d r (f x)).goOn := by
  obtain ⟨h1, h2⟩ := h
  simp [State.frameI, h1, h2, hr, bind, Except.bind]

theorem frameD_ok {s u : State} {d : Bool} {r a b : BitVec 6} {x y : W64} {f : W64 → W64 → W64 → W64} (h : s.Reads2 a b x y u) :
    s.frameD d r a b f = .ok (u.put d r (f (s.reg r.toNat) x y)).goOn := by
  obtain ⟨h1, v, h2, h3⟩ := h
  simp [State.frameD, h1, h2, h3, bind, Except.bind]

theorem frameP_ok {s u : State} {d : Bool} {p : BitVec 3} {a b : BitVec 6} {x y : W64} {f : W64 → W64 → Bool} (h : s.Reads2 a b x y u) :
    s.frameP d p a b f = .ok ((if d then u else u.setPred p.toNat (f x y)).pushLat (b2w (f x y))).goOn := by
  obtain ⟨h1, v, h2, h3⟩ := h
  simp [State.frameP, h1, h2, h3, bind, Except.bind]

theorem frameV_ok {s : State} {d : Bool} {r : BitVec 6} {v : W64} (hr : s.room d r = .ok ()) :
    s.frameV d r v = .ok (s.put d r v).goOn := by
  simp [State.frameV, hr, bind, Except.bind]

/-- A register has room whatever the queues hold. -/
theorem room_reg (s : State) (d : Bool) {r : BitVec 6} (h : r.toNat < 48) : s.room d r = .ok () := by
  have : (r.toNat != 63) = true := by simp; omega
  simp [State.room, this]

/-- A word that goes on ends past itself. -/
theorem run_past {s u : State} {h : Head} {body : State → Iss Done} (hi : s.Issues h.tag h.phase) (hl : h.legal = true)
    (hp : h.priv = true → s.cls = .drover) (hb : body s = .ok u.goOn) : s.run h body = .next (u.past h.tag) :=
  run_ok hi hl hp hb rfl rfl

/-! The shapes of the vector half (R196): with the format that they need they give their lanes, and without it they raise `FMT`. -/

theorem vec1_ok {s u : State} {d : Bool} {r a : BitVec 6} {x : List W32} {f : List W32 → List W32} (h : s.Lanes1 a x u)
    (hr : s.room d r = .ok ()) : s.vec1 d r a true f = .ok (u.vput d r (f x)).goOn := by
  obtain ⟨h1, h2⟩ := h
  simp [State.vec1, need, h1, h2, hr, bind, Except.bind]

theorem vec2_ok {s u : State} {d : Bool} {r a b : BitVec 6} {x y : List W32} {f : List W32 → List W32 → List W32}
    (h : s.Lanes2 a b x y u) (hr : s.room d r = .ok ()) : s.vec2 d r a b true f = .ok (u.vput d r (f x y)).goOn := by
  obtain ⟨h1, v, h2, h3⟩ := h
  simp [State.vec2, need, h1, h2, h3, hr, bind, Except.bind]

theorem vec3_ok {s u : State} {d : Bool} {r a b : BitVec 6} {x y : List W32} {f : List W32 → List W32 → List W32 → List W32}
    (h : s.Lanes2 a b x y u) : s.vec3 d r a b true f = .ok (u.vput d r (f (s.vreg r.toNat) x y)).goOn := by
  obtain ⟨h1, v, h2, h3⟩ := h
  simp [State.vec3, need, h1, h2, h3, bind, Except.bind]

theorem vecMask_ok {s u : State} {d : Bool} {m : BitVec 3} {a b : BitVec 6} {x y : List W32} {f : W32 → W32 → Bool}
    (h : s.Lanes2 a b x y u) : s.vecMask d m a b true f = .ok (u.putMask d m (List.zipWith f x y)).goOn := by
  obtain ⟨h1, v, h2, h3⟩ := h
  simp [State.vecMask, need, h1, h2, h3, bind, Except.bind]

theorem vec1_fmt (s : State) (d : Bool) (r a : BitVec 6) (f : List W32 → List W32) :
    s.vec1 d r a false f = .error (.fault ⟨.FMT, 0, 0, [], false, none⟩) := rfl

theorem vec2_fmt (s : State) (d : Bool) (r a b : BitVec 6) (f : List W32 → List W32 → List W32) :
    s.vec2 d r a b false f = .error (.fault ⟨.FMT, 0, 0, [], false, none⟩) := rfl

theorem vec3_fmt (s : State) (d : Bool) (r a b : BitVec 6) (f : List W32 → List W32 → List W32 → List W32) :
    s.vec3 d r a b false f = .error (.fault ⟨.FMT, 0, 0, [], false, none⟩) := rfl

theorem vecMask_fmt (s : State) (d : Bool) (m : BitVec 3) (a b : BitVec 6) (f : W32 → W32 → Bool) :
    s.vecMask d m a b false f = .error (.fault ⟨.FMT, 0, 0, [], false, none⟩) := rfl

end Sys2Proof.Machine
end

