-- ==== Sys2Proof/Tests/Slice0.lean ====
section
/-! SUPPORT. The model's own tests: words written out from the encodings of the spec, terms that are not well-formed, single steps whose
results the spec states, and for every statement a state and operands that meet its hypotheses. -/

namespace Sys2Proof.Tests

open Sys2Proof.Machine

/-! ### Encodings: words written out from the spec's tables -/

/-- The words of the worked encodings and of the format tables of each chapter. -/
theorem test_decode_common :
    decode .vec 0x05C10003 = some (.li .C 1 3) ∧ decode .vec 0x50DF8602 = some (.ldd .A false 63 3 0 2) ∧
    decode .vec 0x52FF8401 = some (.std .A true 63 2 0 1) ∧ decode .vec 0x14020A31 = some (.cpy .C 4 5 6 1) ∧
    decode .vec 0x15008418 = some (.amo .C false 1 2 3 0) ∧ decode .vec 0xD640000B = some (.fence .W 1 3) ∧
    decode .vec 0x16840401 = some (.xfence .C 4 1 1) ∧ decode .vec 0xD8830000 = some (.fbar 3) ∧
    decode .vec 0x1A800401 = some (.bdup 0 1 1) ∧ decode .vec 0xCF800000 = some .exit ∧ decode .vec 0xD9000000 = some .xph ∧
    decode .vec 0xD9C00000 = some .xend ∧ decode .vec 0x99440004 = some (.xmit 4 2 0) ∧ decode .vec 0x99850017 = some (.msel 5 11 1) := by
  decide

theorem test_decode_private :
    decode .cube 0xA0830001 = some (.ccfg 3 1) ∧ decode .cube 0xA2023000 = some (.tshape 4 48) ∧
    decode .cube 0x62420110 = some (.tld 4 1 8) ∧ decode .cube 0xA0C20C10 = some (.tri 4 12 8) ∧
    decode .mem 0xA0000A30 = some (.mrowz 5 6) ∧ decode .mem 0xA0420A30 = some (.mrowc 4 5 6) ∧
    decode .mem 0xA0838A00 = some (.mloc false 7 5) ∧ decode .mem 0xA2048A31 = some (.mred false 9 5 6 1) ∧
    decode .mem 0xA2840001 = some (.mstat false 8 1) ∧ decode .drover 0xA0810A30 = some (.swait false 2 5 6) ∧
    decode .drover 0xA1008600 = some (.qsave false 1 3) ∧ decode .drover 0xA1408818 = some (.qload false 1 4 3) ∧
    decode .drover 0xA2C39000 = some (.fltpop false 7 8) ∧ decode .drover 0xA3008E00 = some (.resume false 1 7) ∧
    decode .drover 0xA3808601 = some (.qmap false 1 3 1) ∧ decode .drover 0xA3C08801 = some (.prio false 1 4 0 1) := by decide

/-- Words that R53 refuses: an opcode that no half assigns, a tag that the opcode does not allow, and a field that must be zero. -/
theorem test_decode_refuses :
    decode .vec 0xFFFFFFFF = none ∧ decode .vec 0x0F800000 = none ∧ decode .drover 0xF0000000 = none ∧ decode .vec 0x01800001 = none ∧
    decode .vec 0x00000001 = none ∧ decode .mem 0xA2C00000 = none := by decide

/-! ### Terms that are not well-formed -/

/-- A scalar FP32 word and a full/empty word have no X or W form, and `FMTC` no C or A form (R48). -/
theorem test_ill_formed :
    WellFormed (.fadd .X false 1 2 3 0) = false ∧ WellFormed (.fmul .W false 1 2 3 0) = false ∧ WellFormed (.ffma .X false 1 2 3 0) = false ∧
    WellFormed (.fmnx .X false 1 2 3 0) = false ∧ WellFormed (.fcmp .W false 1 2 3 0) = false ∧ WellFormed (.fcvt .X false 1 2 0) = false ∧
    WellFormed (.fmtc .C 0) = false ∧ WellFormed (.fmtc .A 0) = false ∧ WellFormed (.ldf .X false 1 2 0 0) = false ∧
    WellFormed (.stf .W false 1 2 0 0) = false ∧ WellFormed (.fefill .X false 1 2 3 0) = false := by decide

/-- The same terms with a tag that their rows hold. -/
theorem test_well_formed :
    WellFormed (.fadd .A false 1 2 3 0) = true ∧ WellFormed (.fmtc .W 0) = true ∧ WellFormed (.ldf .C false 1 2 0 0) = true := by decide

/-! ### A small state, and the conditions of an issue -/

/-- A package whose one core `c` runs the team `t`, its strand `σ` next. -/
def one (c : CoreId) (σ : Strand) (t : TeamSt) : State :=
  ({ State.reset with cur := c, strand := σ } : State).setCore c { CoreSt.reset with run := true, team := t }

/-- The same with a fresh team whose spans let every strand pass its next boundary. -/
def team : TeamSt :=
  let r := TeamSt.reset
  { r with c := { r.c with span := 2 }, a := { r.a with span := 1 } }

/-- The way from a die to a site by its row and then by its column, as a route. -/
def wayTo (x y : Nat) : Byte :=
  if y % 10 < x % 10 then 0x89 else if x % 10 < y % 10 then 0x83 else if y < x then 0x80 else if x < y then 0x86 else 0x8F

/-- The way back, by the column and then by the row. -/
def wayBack (x y : Nat) : Byte :=
  if y / 10 < x / 10 then 0x80 else if x / 10 < y / 10 then 0x86 else if y < x then 0x89 else if x < y then 0x83 else 0x8F

/-- A package in which some dies have routes to some sites and back, and to no other. -/
def paths (dies sites : List Nat) (s : State) : State :=
  (dies ++ sites.filter fun y => !dies.contains y).foldl (fun u x => u.setDie x { u.die x with
    routes := sites.map (fun y => (y, wayTo x y)) ++ (dies.filter fun y => !sites.contains y).map fun y => (y, wayBack x y) }) s

/-- The conditions of `State.Issues` as one truth value. -/
def issuesB (s : State) (t : Tag) (phase : Bool) : Bool :=
  tagRuns t s.strand && (t != .W || slipFree s.tm s.strand) && (s.strand != .X || !inPhase s.tm || phase)

theorem issues {s : State} {t : Tag} {phase : Bool} (h : issuesB s t phase = true) : s.Issues t phase := by
  simp [issuesB] at h
  refine ⟨h.1.1, fun e => ?_, fun e f => ?_⟩
  · rcases h.1.2 with h1 | h1
    · exact absurd e h1
    · exact h1
  · rcases h.2 with (h1 | h1) | h1
    · exact absurd e h1
    · simp [f] at h1
    · exact h1

/-- A VEC core, a MEM core, a CUBE core, a DROVER core, a SPARSE core and a SORT core (R497). -/
def vec : CoreId := coreOf .vec
def mem : CoreId := coreOf .mem
def cube : CoreId := coreOf .cube
def drover : CoreId := coreOf .drover
def sparse : CoreId := coreOf .sparse
def sort : CoreId := coreOf .sort

/-! ### States and operands that meet the hypotheses of the statements -/

/-- A fresh team whose `xc` holds two entries. -/
def fedC : TeamSt := { team with xc := [⟨7, 0⟩, ⟨8, 0⟩] }

/-- Registers, and the default queues at their ends (selector 63). -/
theorem witness_arithmetic :
    (let s := one vec .C team;
      s.Issues .C false ∧ tagInt s.cls .C = true ∧ s.destOk 1 = true ∧ s.srcOk 2 = true ∧ s.srcOk 3 = true ∧
      s.room false 1 = .ok () ∧ (∃ x u, s.Reads1 2 x u) ∧ ∃ x y u, s.Reads2 2 3 x y u) ∧
    (let s := one vec .C fedC;
      s.Issues .C false ∧ tagInt s.cls .C = true ∧ s.destOk 63 = true ∧ s.srcOk 63 = true ∧
      s.room false 63 = .ok () ∧ (∃ x u, s.Reads1 63 x u) ∧ ∃ x y u, s.Reads2 63 63 x y u) ∧
    (let s := one mem .X team;
      s.Issues .W false ∧ tagInt s.cls .W = true ∧ s.destOk 62 = true ∧ s.srcOk 55 = true ∧
      s.room true 62 = .ok () ∧ ∃ x u, s.Reads1 55 x u) :=
  ⟨⟨issues rfl, rfl, rfl, rfl, rfl, rfl, ⟨_, _, rfl, rfl⟩, ⟨_, _, _, rfl, _, rfl, rfl⟩⟩,
   ⟨issues rfl, rfl, rfl, rfl, rfl, ⟨_, _, rfl, rfl⟩, ⟨_, _, _, rfl, _, rfl, rfl⟩⟩,
   ⟨issues rfl, rfl, rfl, rfl, rfl, ⟨_, _, rfl, rfl⟩⟩⟩

/-- A package that fetches one word next, and the words that a strand can meet. -/
theorem witness_step :
    (let s := State.reset.withFetchWord 32 0x05C10003;
      let u : State := { s.tick with agenda := [] };
      s.agenda = [.issue vec .C] ∧ u.canIssue vec .C = true ∧ u.fetch vec .C = .word 0 0x05C10003 ∧
      decode (coreCls vec) 0x05C10003 = some (.li .C 1 3)) ∧
    (let s := State.reset.withFetchWord 32 0xFFFFFFFF;
      ∃ c, s.agenda = [.issue c .C] ∧ s.canIssue c .C = true ∧ s.fetch c .C = .word 0 0xFFFFFFFF ∧ decode (coreCls c) 0xFFFFFFFF = none) ∧
    (let s := one vec .C { team with c := { team.c with pc := 16384 } };
      s.canIssue vec .C = true ∧ s.fetch vec .C = .past) ∧
    (let l : Loop := { lv := 0, start := 1, last := 4, count := 2, index := 0, inst := 1 };
      let s := one vec .C { team with c := { team.c with pc := 5, org := some 4, loops := [l] } };
      s.canIssue vec .C = true ∧ s.fetch vec .C = .loopEnd) ∧
    State.reset.canIssue vec .C = false ∧ State.reset.agenda = [] ∧ State.reset.waits = [] ∧
    (let s := fun n : Nat => { State.reset with waits := [(n, .copyWord vec 0)] };
      (s 0).agenda = [] ∧ (s 0).waits = [(0, .copyWord vec 0)] ∧ 0 ≤ (s 0).turn ∧ (s 1).turn < 1) ∧
    -- a listed move, as the package runs and in safe mode, and a signal that is put off
    (let s := fun p : Nat => ({ State.reset with mgmt := { Mgmt.reset with phase := p }, agenda := [.step .flitSlot EvArg.zero] } : State);
      (s 4).agenda = [.step .flitSlot EvArg.zero] ∧ (s 4).heldBack .flitSlot EvArg.zero = false ∧ (s 5).heldBack .flitSlot EvArg.zero = true) ∧
    ({ State.reset with agenda := [.signal 0 LaunchReq.zero 5] } : State).agenda = [.signal 0 LaunchReq.zero 5] ∧
    ({ State.reset with agenda := [.trigger 0 5] } : State).agenda = [.trigger 0 5] :=
  ⟨⟨rfl, rfl, rfl, by decide⟩, ⟨_, rfl, rfl, rfl, by decide⟩, ⟨rfl, rfl⟩, ⟨rfl, rfl⟩, rfl, rfl, rfl, ⟨rfl, rfl, by decide, by decide⟩, ⟨rfl, rfl, rfl⟩, rfl, rfl⟩

/-- A word placed where the next step fetches is run by it (R108): `c.li g1, 3`. -/
theorem test_fetched_word_runs :
    (match step (State.reset.withFetchWord 32 0x05C10003) with
      | .next t => decide ((t.core vec).team.c.pc = 1) && decide (tget 0 (t.core vec).team.c.regs 1 = 3)
      | _ => false) = true := by decide

theorem witness_encoding :
    WellFormed (.bfx .X true 63 63 63 7) = true ∧ (∃ w, encode (.bfx .X true 63 63 63 7) = some w) ∧ (Instr.nop .C).ctorIdx < 208 ∧
    WellFormed (.ldf .A true 47 62 3 127) = true ∧ (∃ w, encode (.ldf .A true 47 62 3 127) = some w) := by
  refine ⟨rfl, ⟨_, rfl⟩, by decide, rfl, ⟨_, rfl⟩⟩

theorem witness_memory :
    Memory.wf [] = true ∧ Memory.wf [(0, 1), (7, 255)] = true ∧ Memory.wf (cset [(0, 1), (7, 255)] 7 0) = true ∧
    cget [(0, 1), (7, 255)] 7 = 255 ∧ cget [(0, 1), (7, 255)] 8 = 0 := by decide

theorem reset_memWf : State.reset.memWf := ⟨rfl, rfl, fun _ => rfl, fun _ _ => rfl, fun _ => rfl, fun _ => rfl, rfl, rfl, rfl⟩

theorem witness_canonical_step : State.reset.memWf ∧ ∃ t, step State.reset = .next t := ⟨reset_memWf, ⟨_, rfl⟩⟩

theorem witness_passed_over :
    (WellFormed (.li .C 1 3) = true ∧ encode (.li .C 1 3) = some 0x05C10003 ∧ tagRuns (wordTag 0x05C10003) (one vec .A team).strand = false) ∧
    (WellFormed (.slip 16) = true ∧ ∃ w, encode (.slip 16) = some w ∧ wordTag w = .W ∧
      slipFree (one vec .A TeamSt.reset).tm (one vec .A TeamSt.reset).strand = false) ∧
    (∀ a, Instr.slip 16 ≠ .fbar a) :=
  ⟨⟨rfl, by decide, rfl⟩, ⟨rfl, _, rfl, rfl, rfl⟩, fun _ h => Instr.noConfusion h⟩

theorem witness_illegal :
    (let s := one vec .C team;
      tagRuns .C s.strand = true ∧ (tagInt s.cls .C && s.destOk 48 && s.srcOk 1 && s.srcOk 2 && true) = false ∧
      (tagInt s.cls .C && s.destOk 1 && s.srcOk 1 && s.srcOk 2 && decide ((3 : BitVec 3) < 3)) = false ∧
      (tagInt s.cls .C && s.destOk 61 && s.srcOk 1) = false ∧ (tagInt s.cls .C && decide ((48 : BitVec 6).toNat < 48) && s.destOk 48) = false) ∧
    (let s := one vec .X team;
      tagRuns .W s.strand = true ∧ slipFree s.tm s.strand = true ∧ (tagInt s.cls .W && s.destOk 1) = false) ∧
    (let s := one cube .X team; s.cls = .cube ∧ s.strand = .X ∧ s.srcOk 0 = false ∧ s.destOk 47 = false) := by
  refine ⟨⟨rfl, rfl, rfl, rfl, rfl⟩, ⟨rfl, rfl, rfl⟩, ⟨rfl, rfl, rfl, rfl⟩⟩

/-- The state in which the running strand has stopped for a fault. -/
def stopped (s : State) (f : Flt) : State :=
  ({ s with lapse := none } : State).setTm (let q := faultTeam s.strand f s.tm
    q.setStr s.strand { q.str s.strand with hold := .none, feDone := none })

/-- A far extent, swept or not, that the routes of a row's dies lead to. -/
def farOf (sweep : Bool) (dies : List Nat) (s : State) : State :=
  let x : Extent := { port := 0, dpa := 0, base := farBase, len := 2 ^ 25, fold := 0, releasing := sweep, sweep := sweep, asked := 0, gone := false }
  let u := paths dies [21] s
  u.setDie 21 { u.die 21 with extents := [(0, x)] }

theorem witness_faults :
    (coreCls (one vec .A team).cur ≠ .drover ∧ ((one vec .A team).core vec).leave = none) ∧
    (let r := (one vec .A team).record vec 0 5 ⟨.TRAP, 1, 2, [], false, none⟩;
      let k := (one vec .A team).core vec;
      (((one vec .A team).setCore vec { k with leave := some (.fault r) }).core vec).leave = some (.fault r)) ∧
    (coreCls drover = .drover ∧ (one drover .X team).exa drover = false ∧ ((one drover .X team).core drover).team.lq = [] ∧
      ((one drover .X team).core drover).team.sq = [] ∧ ((one drover .X team).core drover).team.dq = [] ∧
      (stopped (one drover .X team) ⟨.TRAP, 9, 12, [], false, none⟩).canEnter drover = true) ∧
    -- a store to an extent that is swept has to wait
    (let e : StoreEnt := { strand := .C, place := .mem farBase .home, ea := 0, size := 1, data := some [1], fromSdq := false, pc := 0, mark := 0,
                           id := 0, again := false, add := false };
      let u := farOf true [10, 11] (one drover .X { team with sq := [e] });
      u.exa drover = false ∧ (stopped u ⟨.TRAP, 9, 12, [], false, none⟩).canEnter drover = false) ∧
    (let s := one drover .X team;
      (s.setCore drover { s.core drover with ecause := 0x80000070 }).exa drover = true) := by
  refine ⟨⟨by decide, rfl⟩, rfl, ⟨rfl, rfl, rfl, rfl, rfl, rfl⟩, ⟨rfl, rfl⟩, rfl⟩

/-- Exception entry on a DROVER core (R192): EPC, ECAUSE and EADDR of a `TRAP` of C at word 5. -/
theorem test_exception_entry :
    (let s := (one drover .C team);
      let k := (s.takeFault 5 6 ⟨.TRAP, 9, 12, [], false, none⟩).core drover;
      decide (k.ecause = 0x80000070) && decide (k.eaddr = 9) && decide (fieldW k.epc 15 0 = 6)) = true := by decide

theorem witness_results :
    (let s := one vec .X { team with dq := [{ data := .scalar 5, locks := [], poison := none, mark := 0 }] };
      s.vecX = true ∧ (∃ x u, s.Reads1 63 x u) ∧ (∃ x u, s.Lanes1 63 x u) ∧ (∃ x y u, s.Lanes2 1 63 x y u) ∧ (∀ e ∈ s.tm.dq, e.locks = [])) ∧
    (∃ x y z u, (one mem .X team).Reads3 1 2 47 x y z u) ∧ (∃ x y u, (one vec .C fedC).Reads2 63 63 x y u) := by
  refine ⟨⟨rfl, ⟨_, _, rfl, rfl⟩, ⟨_, _, rfl, rfl⟩, ⟨_, _, _, rfl, _, rfl, rfl⟩, by decide⟩,
    ⟨_, _, _, _, rfl, _, _, rfl, rfl, rfl⟩, ⟨_, _, _, rfl, _, rfl, rfl⟩⟩

/-- Each check of R135 and R136 at its boundary, on a VEC core and on a MEM core. -/
theorem test_access_checks :
    (let s := one vec .C team;
      let c := fun (base ea : W64) (n al : Nat) => s.checkEa s.me base ea n al 0;
      c 0x7000000000000000 0x7000000000000000 8 8 = flt .SPACE 0x7000000000000000 0 ∧
      c 0x0FFFFFFFFFFFFFF8 0x1000000000000000 8 8 = flt .BOUNDS 0x1000000000000000 0 ∧
      c 0x0010000000000000 0x0010000000000000 8 8 = flt .SPACE 0x0010000000000000 0 ∧
      c 0x6000000000000000 0x6000000000000000 8 8 = flt .PRIV 0x6000000000000000 0 ∧
      c 0x1000000000000004 0x1000000000000004 8 8 = flt .ALIGN 0x1000000000000004 0 ∧
      c 0x1000000000400000 0x1000000000400000 8 8 = flt .BOUNDS 0x1000000000400000 0 ∧
      c 0x10000000003FFFF8 0x10000000003FFFF8 8 8 = .ok (.csp 0x3FFFF8) ∧
      c 0x2000000000000000 0x2000000000000000 1 1 = flt .BOUNDS 0x2000000000000000 0) ∧
    (let s := one mem .C team; s.checkEa s.me 0x1000000000000000 0x1000000000000000 1 1 0 = flt .SPACE 0x1000000000000000 0) :=
  ⟨⟨rfl, rfl, rfl, rfl, rfl, rfl, rfl, rfl⟩, rfl⟩

theorem witness_stores :
    (let s := one vec .C team; s.memWf ∧ (∃ t, s.doStore s.me (.csp 23 0 8) [1, 2] 8 = .ok t) ∧ (∃ t, s.doStore s.me (.dsp 22 8) [1, 2] 8 = .ok t) ∧
      (let f := Config.fabSite 0;
        ∃ t, (s.setDie f { s.die f with peers := [(3, 0x100000000)] }).doStore (peerWho 0 0) (.peer 3 8) [1, 2] 8 = .ok t) ∧
      (∃ t, s.doStore (askWho 0 0 none) (.host 8) [1, 2] 8 = .ok t)) ∧
    (let s := one vec .C team;
      let u : State := { s with minor := [(0, 1)] };
      u.memWf ∧ u.zeroLine u.me (8 / 64) = false) ∧
    -- a line that the L1 has, one that it takes in, and a piece that the die's L2 has
    (let l : L1Line := { line := farBase / 64, bytes := List.replicate 64 0, dirty := 0, locks := 0, stale := false, brief := false, filled := true };
      let p : Piece := { bytes := List.replicate 64 0, dirty := true, poison := false };
      let u := farOf false [22, 23] (one vec .C team);
      let v := u.setCore vec { u.core vec with l1 := [(0, l)] };
      let x := u.setDie 23 { u.die 23 with l2 := [(farBase / 64, p)], tags := [(farBase / 64 / 32, 0)] };
      isKick farBase = false ∧ ([1, 2] : List Byte) ≠ [] ∧ farBase % 64 + 2 ≤ 64 ∧
      (∃ t, v.l1Write v.me farBase [1, 2] 8 = .ok t) ∧ l1Find (v.core vec) (farBase / 64) = some (0, l) ∧ l.bytes.length = 64 ∧
      (∃ t, u.l1Write u.me farBase [1, 2] 8 = .ok t) ∧ copiesOf (u.core vec).l1 (farBase / 64) = [] ∧
      (l1Set (u.core vec) (farBase / 64)).length < 8 ∧
      (∃ t, x.cohWrite x.me .l2 farBase [1, 2] 8 = .ok t) ∧ hasL2 x.me.c.site = true ∧ x.forward farBase = farBase ∧
      x.piece 23 (farBase / 64) = some p ∧ p.dirty = true ∧ tget? (x.die 23).tags (farBase / 64 / 32) = some 0) := by
  refine ⟨⟨⟨rfl, rfl, fun _ => rfl, fun _ _ => rfl, fun _ => rfl, fun _ => rfl, rfl, rfl, rfl⟩, ⟨_, rfl⟩, ⟨_, rfl⟩, ⟨_, rfl⟩, ⟨_, rfl⟩⟩,
    ⟨⟨rfl, rfl, fun _ => rfl, fun _ _ => rfl, fun _ => rfl, fun _ => rfl, rfl, rfl, rfl⟩, rfl⟩, rfl, by decide, by decide, ⟨_, rfl⟩, rfl, rfl,
    ⟨_, rfl⟩, rfl, by decide, ⟨_, rfl⟩, rfl, rfl, rfl, rfl, rfl⟩

theorem witness_constants_and_fields :
    (let s := one vec .C team;
      s.Issues .C false ∧ tagInt s.cls .C = true ∧ s.destOk 47 = true ∧ s.room false 47 = .ok () ∧ (∃ x u, s.Reads1 62 x u)) ∧
    (let s := one vec .C fedC; s.Issues .C false ∧ s.destOk 63 = true ∧ s.room true 63 = .ok () ∧ ∃ x y u, s.Reads2 63 63 x y u) ∧
    (48 : Nat) ≤ (63 : BitVec 6).toNat ∧ (47 : BitVec 6).toNat < 48 :=
  ⟨⟨issues rfl, rfl, rfl, rfl, ⟨_, _, rfl, rfl⟩⟩, ⟨issues rfl, rfl, rfl, ⟨_, _, _, rfl, _, rfl, rfl⟩⟩, by decide, by decide⟩

/-- R108: the constant 0x0123_4567 in two words. -/
theorem test_li_lsi :
    (match exec (.li .C 2 0x0123) (one vec .C team) with
      | .next t => match exec (.lsi .C 2 0x4567) t with
        | .next u => decide (u.tm.c.regs = [(2, 0x01234567)]) && decide (u.tm.c.pc = 2)
        | _ => false
      | _ => false) = true := by decide

/-- R104: −7 divided by 2, signed and unsigned. -/
theorem test_div :
    divOp 0 (-7) 2 = -3 ∧ divOp 1 (-7) 2 = 0x7FFFFFFFFFFFFFFC ∧ divOp 2 (-7) 2 = -1 ∧ divOp 3 (-7) 2 = 1 ∧
    divOp 0 0x8000000000000000 (-1) = 0x8000000000000000 ∧ divOp 2 0x8000000000000000 (-1) = 0 := by decide

/-- R109: a field that runs past bit 63 reads zeros there, so the extract does not extend a sign. -/
theorem test_bfx : bfxOp 1 0xF000000000000000 0x083C = 0xF ∧ bfxOp 1 0xF0 0x0404 = 0xFFFFFFFFFFFFFFFF := by decide

theorem witness_predicates :
    (let s := one vec .C team;
      s.Issues .C false ∧ tagInt s.cls .C = true ∧ s.srcOk 1 = true ∧ s.srcOk 55 = true ∧ (∃ x y u, s.Reads2 1 55 x y u) ∧
      (∃ x u, s.Reads1 1 x u) ∧ s.destOk 1 = true ∧ s.room false 1 = .ok () ∧ s.destOk 62 = true) ∧
    ((5 : BitVec 3) < 6 ∧ (1 : BitVec 3) < 2 ∧ (3 : BitVec 3) < 4) :=
  ⟨⟨issues rfl, rfl, rfl, rfl, ⟨_, _, _, rfl, _, rfl, rfl⟩, ⟨_, _, rfl, rfl⟩, rfl, rfl, rfl⟩, by decide⟩

theorem witness_scalar_float :
    (let s := one vec .A team;
      s.Issues .A false ∧ tagCA .A = true ∧ s.srcOk 1 = true ∧ s.destOk 1 = true ∧ s.srcOk 62 = true ∧ s.room true 63 = .ok () ∧
      (∃ x y u, s.Reads2 1 62 x y u) ∧ ∃ x u, s.Reads1 62 x u) ∧ (3 : BitVec 3).toNat < 4 :=
  ⟨⟨issues rfl, rfl, rfl, rfl, rfl, rfl, ⟨_, _, _, rfl, _, rfl, rfl⟩, ⟨_, _, rfl, rfl⟩⟩, by decide⟩

/-- R117: `.f2s` of 2^63 saturates, and `.f2b` of 1 + 2^-8 rounds its tie to the even trailing bit. -/
theorem test_fcvt : fcvtOp 0 0x5F000000 = 0x7FFFFFFFFFFFFFFF ∧ fcvtOp 4 0x3F808000 = 0x3F80 := by decide

/-- A team of which every strand stands in the body of the loop of level 1, and whose BQ holds outcomes that A and X have yet to pop. -/
def looped (q : List BqEnt) : TeamSt :=
  let l : Loop := { lv := 1, start := 0, last := 9, count := 3, index := 0, inst := 1 }
  let r := team
  { r with c := { r.c with pc := 2, loops := [l], link := [7] }, a := { r.a with pc := 2, loops := [l], link := [7] },
           x := { r.x with pc := 2, loops := [l], link := [16384] }, bq := q }

theorem witness_transfers :
    -- private words, in the span of the word
    (let s := one vec .A team;
      s.Issues .A false ∧ (3 : BitVec 4) ≠ 15 ∧ spanNo (s.text s.cur) 5 = spanNo (s.text s.cur) 0 ∧ s.st.link.length < 16 ∧ (∃ x u, s.Reads1 1 x u) ∧
      s.srcOk 1 = true) ∧
    (let s := one vec .A (looped []);
      s.st.link = [7] ∧ ∀ l ∈ s.st.loops, inBody l s.st.pc = (decide ((0 : Int) ≤ 9) && inBody l (9 : Int).toNat)) ∧
    -- W-tagged words of C, and of A and X, which pop the outcome
    (let s := one vec .C team; s.Issues .W false ∧ s.strand = .C ∧ s.tm.bq.length < 32 ∧ (∀ l ∈ s.st.loops, False)) ∧
    (let s := one vec .A (looped [{ val := .taken true, popA := false, popX := false }]);
      s.Issues .W false ∧ s.strand ≠ .C ∧ ∃ b u, s.popBq = .ok (.taken b, u)) ∧
    (let s := one vec .X (looped [{ val := .target 9, popA := true, popX := false }]);
      s.Issues .W false ∧ s.strand ≠ .C ∧ ∃ x u, s.popBq = .ok (.target x, u)) := by
  refine ⟨⟨issues rfl, by decide, rfl, by decide, ⟨_, _, rfl, rfl⟩, rfl⟩, ⟨rfl, by decide⟩,
    ⟨issues rfl, rfl, by decide, by intro l h; cases h⟩,
    ⟨issues rfl, by decide, _, _, rfl⟩, ⟨issues rfl, by decide, _, _, rfl⟩⟩

theorem witness_loops :
    (let s := one vec .C team;
      s.Issues .W false ∧ s.st.pc + (16383 : BitVec 14).toNat < 16384 ∧ loopAt s.st 0 = none ∧ s.srcOk 1 = true ∧ (∃ x u, s.Reads1 1 x u) ∧
      s.tm.bq.length < 32) ∧
    (let s := one vec .X (looped [{ val := .count 2, popA := true, popX := false }]);
      s.Issues .W false ∧ loopAt s.st 0 = none ∧ s.strand ≠ .C ∧ ∃ x v, s.popBq = .ok (.count x, v)) ∧
    (let s := one vec .C (looped []);
      s.Issues .W false ∧ (∃ lp, loopAt s.st 1 = some lp ∧ lp.start ≤ s.st.pc ∧ s.st.pc ≤ lp.last) ∧ s.cndHolds 7 = true ∧ s.cndHolds 8 = true) ∧
    (let s := one vec .A (looped [{ val := .brk true, popA := false, popX := false }]);
      s.Issues .W false ∧ (∃ lp, loopAt s.st 1 = some lp ∧ lp.start ≤ s.st.pc ∧ s.st.pc ≤ lp.last) ∧ ∃ b v, s.popBq = .ok (.brk b, v)) := by
  refine ⟨⟨issues rfl, by decide, rfl, rfl, ⟨_, _, rfl, rfl⟩, by decide⟩, ⟨issues rfl, rfl, by decide, _, _, rfl⟩,
    ⟨issues rfl, ⟨_, rfl, by decide, by decide⟩, rfl, rfl⟩, ⟨issues rfl, ⟨_, rfl, by decide, by decide⟩, _, _, rfl⟩⟩

/-- An entry of the store queue with 8 bytes, or one that waits for `sdq`. -/
def storeAt (σ : Strand) (p : Place) (d : Option (List Byte)) : StoreEnt :=
  { strand := σ, place := p, ea := 0x1000000000000000, size := 8, data := d, fromSdq := d.isNone, pc := 0, mark := 0, id := 0, again := false, add := false }

theorem witness_coordination :
    (one vec .X team).Issues .X true ∧ (one vec .C team).Issues .W false ∧ (1 : BitVec 10) ≠ 0 ∧ (64 : BitVec 10).toNat ≤ 64 ∧
    (let s := one mem .X { team with cx := [⟨5, 0⟩] };
      s.Issues .X false ∧ tagInt s.cls .X = true ∧ strandStores s.tm s.strand = [] ∧ qOfNum 2 = some .xc ∧ QName.producer .xc = s.strand ∧
      pushCheck s.tm .xc = .ok () ∧ s.ixField 1 = false ∧ s.srcOk 1 = true ∧ (∃ x u, s.Reads1 1 x u) ∧ qOfNum 1 = some .cx ∧
      QName.consumer .cx = s.strand ∧ (∃ e q, s.tm.q .cx = e :: q) ∧ s.room false 1 = .ok () ∧ s.destOk 1 = true) ∧
    (let s := one cube .X { team with cx := [⟨5, 0⟩] };
      s.Issues .X false ∧ s.ixField 2 = true ∧ s.popsOk [2] = .ok () ∧ (∃ e q, s.tm.q .cx = e :: q) ∧ s.room false 2 = .ok ()) ∧
    (let s := one vec .C { team with sq := [storeAt .C (.csp 23 0 0) none] };
      s.Issues .C false ∧ strandStores s.tm s.strand ≠ []) ∧
    (let s := one drover .C { team with c := { team.c with regs := [(1, 5)] } };
      (∃ x u, s.Reads1 1 x u ∧ s.nsAt s.cur.site < s.waitTarget x 0) ∧ ∃ x u, s.Reads1 2 x u ∧ s.waitTarget x 1 ≤ s.nsAt s.cur.site) ∧
    (one vec .C team).raiseSerr = .ok () := by
  refine ⟨issues rfl, issues rfl, by decide, by decide,
    ⟨issues rfl, rfl, rfl, rfl, rfl, rfl, rfl, rfl, ⟨_, _, rfl, rfl⟩, rfl, rfl, ⟨_, _, rfl⟩, rfl, rfl⟩,
    ⟨issues rfl, rfl, rfl, ⟨_, _, rfl⟩, rfl⟩, ⟨issues rfl, by decide⟩,
    ⟨⟨_, _, ⟨rfl, rfl⟩, by decide⟩, ⟨_, _, ⟨rfl, rfl⟩, by decide⟩⟩, rfl⟩

/-- `QUEUE` for C's end of BQ where A has retired `EXIT`, its absence, and the entry of a handler by `TRAP`. -/
theorem witness_ends :
    (let s := one vec .C { team with a := { team.a with exited := true } };
      s.Issues .W false ∧ s.strand = .C ∧ (s.tm.a.exited || s.tm.x.exited) = true) ∧
    (let s := one vec .C team; (s.tm.a.exited || s.tm.x.exited) = false ∧ ∃ x u, s.Reads1 1 x u ∧ (u.tm.a.exited || u.tm.x.exited) = false) ∧
    (let s := one drover .C team;
      s.Issues .C false ∧ s.cls = .drover ∧ ∃ x u, s.Reads1 62 x u ∧ ((u.past .C).exa s.cur = true ∨ (u.past .C).canEnter s.cur = true)) :=
  ⟨⟨issues rfl, rfl, rfl⟩, ⟨rfl, _, _, ⟨rfl, rfl⟩, rfl⟩, ⟨issues rfl, rfl, _, _, ⟨rfl, rfl⟩, .inr rfl⟩⟩

/-- R133: a `TRAP` of C retires, and its record holds its own word, IMM10 and the operand. -/
theorem test_trap :
    (match exec (.trap .C 62 12) (one vec .C { team with c := { team.c with pc := 5 } }) with
      | .next t => match (t.core vec).leave with
        | some (.fault r) => decide (t.tm.c.pc = 6) && decide (r.pc = 5) && decide (r.aux = 12) && decide (r.addr = 0) && decide (r.code = .TRAP)
        | _ => false
      | _ => false) = true := by decide

/-- A fresh team in which the strands hold pointers into the cluster scratchpad (1), the MMIO space (2) and the LOC window (3, 256 bytes), and
64 (4) and 3 (5), and which an instance of node slot 1 of drover 0 owns, in fold 0. -/
def owned : TeamSt :=
  let g : Tab W64 := [(1, 0x1000000000000040), (2, 0x6000000000002000), (3, 0x2000000000000000), (4, 64), (5, 3)]
  let i : TeamId := { cls := .vec, drv := 0, slot := 1, inst := 0, cnt := 4, fold := 0, asid := 1, lid := 9, ctx := 0, loc := 0, fw := false }
  let r := team
  { r with c := { r.c with regs := g }, a := { r.a with regs := g }, x := { r.x with regs := g }, locsz := 256, id := some i }

/-- The same package after its boot has written the discovery table of drover 0, each of whose dies is there. -/
def live (c : CoreId) (σ : Strand) (t : TeamSt) : State :=
  let s := one c σ t
  s.setDrv 0 { s.drv 0 with disc := [(10, 0x0001000000000000), (0, 0x0001000000000000), (23, 0x0001000000000000)] }

theorem witness_loads :
    (let s := one vec .C owned;
      s.Issues .C false ∧ tagMem s.cls .C = true ∧ s.destOk 63 = true ∧ s.srcOk 1 = true ∧ s.room false 63 = .ok () ∧ s.loadFree = .ok () ∧
      ∃ x u pl q bs v, s.Reads1 1 x u ∧ u.access x (x + BitVec.ofInt 64 ((-1 : BitVec 7).toInt * 8)) 8 8 0 .read = .ok (pl, q) ∧
        q.orderFree pl = .ok () ∧ q.doLoad q.me pl 8 (x - 8) = .ok (bs, v)) ∧
    (let s := one vec .A owned;
      s.Issues .A false ∧ dqCheck s.tm = .ok () ∧
      ∃ x u pl q v, s.Reads1 1 x u ∧ u.access x x 8 8 0 .read = .ok (pl, q) ∧ q.orderFree pl = .ok () ∧ isMmio pl = false ∧
        q.enqueueLoad pl x 8 false false = .ok v) ∧
    (let s := live drover .A owned;
      s.Issues .A false ∧ dqCheck s.tm = .ok () ∧
      ∃ x u pl q bs v, s.Reads1 2 x u ∧ u.access x x 8 8 0 .read = .ok (pl, q) ∧ q.orderFree pl = .ok () ∧ isMmio pl = true ∧
        q.loadFree = .ok () ∧ q.doLoad q.me pl 8 x = .ok (bs, v)) := by
  refine ⟨⟨issues rfl, rfl, rfl, rfl, rfl, rfl, _, _, _, _, _, _, ⟨rfl, rfl⟩, rfl, rfl, rfl⟩,
    ⟨issues rfl, rfl, _, _, _, _, _, ⟨rfl, rfl⟩, rfl, rfl, rfl, rfl⟩,
    ⟨issues rfl, rfl, _, _, _, _, _, _, ⟨rfl, rfl⟩, rfl, rfl, rfl, rfl, rfl⟩⟩

theorem witness_stores_queue :
    (let s := one vec .C owned;
      s.srcOk 1 = true ∧ s.Issues .C false ∧ tagMem s.cls .C = true ∧ s.srcOk 63 = true ∧
      ∃ x y u pl q, (one vec .C { owned with xc := fedC.xc }).Reads2 63 1 x y u ∧ u.access y y 8 8 0 .write = .ok (pl, q) ∧ q.orderFree pl = .ok ()) ∧
    (let s := one vec .A owned;
      s.Issues .A false ∧ ∃ y u pl q, s.Reads1 1 y u ∧ u.access y (y + BitVec.ofInt 64 ((63 : BitVec 7).toInt * 1)) 1 1 0 .write = .ok (pl, q) ∧
        q.orderFree pl = .ok ()) ∧
    (one vec .C owned).tm.claims = [] :=
  ⟨⟨rfl, issues rfl, rfl, rfl, _, _, _, _, _, ⟨rfl, _, rfl, rfl⟩, rfl, rfl⟩, ⟨issues rfl, _, _, _, _, ⟨rfl, rfl⟩, rfl, rfl⟩, rfl⟩

theorem witness_queued_accesses :
    (let s := one vec .C { team with sq := [storeAt .C (.csp 23 0 0) (some [1, 2, 3, 4, 5, 6, 7, 8])] };
      let t := s.team vec;
      ∃ e rest d u, t.sq = e :: rest ∧ e.data = some d ∧ loadFirst t e = false ∧
        ∃ p, (s.setTeam vec { t with sq := rest }).placeNow (s.who vec) e.place e.ea e.size .write e.again = .ok p ∧
          p.2.doStore (s.who vec) p.1 d e.ea = .ok u) ∧
    (let s := one vec .C { team with sq := [storeAt .C (.mmio 0x3D000000) (some [1])] };
      let t := s.team vec;
      ∃ e rest d f, t.sq = e :: rest ∧ e.data = some d ∧
        e.again = false ∧ (s.setTeam vec { t with sq := rest }).doStore (s.who vec) e.place d e.ea = .error (.fault f)) ∧
    (let s := one vec .A { team with lq := [.load (.csp 23 0 0) 0x1000000000000000 8 false false 0 0 0 false] };
      ∃ q u, (s.setTeam vec { s.team vec with lq := [] }).queuedDatum (s.who vec) (.csp 23 0 0) 0x1000000000000000 8 false false 0 = .ok (q, u)) ∧
    (let s := one vec .A { team with lq := [.load (.mmio 0x3D000000) 0x600000003D000000 8 false false 0 0 0 false] };
      ∃ f, (s.setTeam vec { s.team vec with lq := [] }).queuedDatum (s.who vec) (.mmio 0x3D000000) 0x600000003D000000 8 false false 0 =
        .error (.fault f)) :=
  ⟨⟨_, _, _, _, rfl, rfl, rfl, _, rfl, rfl⟩, ⟨_, _, _, _, rfl, rfl, rfl, rfl⟩, ⟨_, _, rfl⟩, ⟨_, rfl⟩⟩

/-- A VEC core whose cluster's scratchpad holds a full word at offset 0x40. -/
def full (σ : Strand) : State :=
  let s := one vec σ owned
  s.setCluster 23 0 { Cluster.fresh with mem := [(0x40, 7)], full := [(16, true)] }

theorem witness_full_empty :
    (let s := full .C;
      s.Issues .C false ∧ tagCA .C = true ∧ s.srcOk 1 = true ∧ s.destOk 2 = true ∧ s.room false 2 = .ok () ∧
      ∃ x u off y v, s.Reads1 1 x u ∧ s.feCheck x x = .ok off ∧ u.feOp x off (some true) true none = .ok (some y, v)) ∧
    (let s := full .A;
      s.Issues .A false ∧ dqCheck s.tm = .ok () ∧
      ∃ x u off y v, s.Reads1 1 x u ∧ s.feCheck x x = .ok off ∧ u.feOp x off (some true) false none = .ok (some y, v)) ∧
    (let s := one vec .C owned;
      ∃ x u off v w, s.Reads1 1 x u ∧ s.feCheck x x = .ok off ∧ u.feOp x off (some true) false none = .ok (none, v) ∧
        s.feOp x off (some true) false none = .ok (none, w)) ∧
    (let s := one vec .C owned;
      ∃ z x u off y v, s.Reads2 5 1 z x u ∧ s.feCheck x x = .ok off ∧ u.feOp x off (some false) false (some (z.setWidth 32)) = .ok (some y, v)) ∧
    (let s := full .C;
      ∃ z x u off v w, s.Reads2 5 1 z x u ∧ s.feCheck x x = .ok off ∧
        u.feOp x off (some false) false (some (z.setWidth 32)) = .ok (none, v) ∧
        s.feOp x off (some false) false (some (z.setWidth 32)) = .ok (none, w)) ∧
    (let s := full .C;
      s.loadFree = .ok () ∧ s.tm.sq = [] ∧ ∃ x y u, s.Reads2 1 4 x y u ∧ cspPointer s.cur x = true ∧ x.toNat % 4 = 0 ∧ y.toNat ≠ 0 ∧
        y.toNat % 4 = 0 ∧ y.toNat ≤ 65536 ∧ s.rangeOk s.me x y.toNat = true ∧
        ∃ v w, u.released s.me = .ok v ∧ (v.fillMarks true (offOf x) 0 (y.toNat / 4)).1.acquired s.me = .ok w) := by
  refine ⟨⟨issues rfl, rfl, rfl, rfl, rfl, _, _, _, _, _, ⟨rfl, rfl⟩, rfl, rfl⟩,
    ⟨issues rfl, rfl, _, _, _, _, _, ⟨rfl, rfl⟩, rfl, rfl⟩, ⟨_, _, _, _, _, ⟨rfl, rfl⟩, rfl, rfl, rfl⟩,
    ⟨_, _, _, _, _, _, ⟨rfl, _, rfl, rfl⟩, rfl, rfl⟩, ⟨_, _, _, _, _, _, ⟨rfl, _, rfl, rfl⟩, rfl, rfl, rfl⟩,
    ⟨rfl, rfl, _, _, _, ⟨rfl, _, rfl, rfl⟩, rfl, by decide, by decide, by decide, by decide, rfl, _, _, rfl, rfl⟩⟩

theorem witness_atomics :
    let s := one vec .C owned
    s.Issues .C false ∧ tagMem s.cls .C = true ∧ s.destOk 47 = true ∧ s.srcOk 1 = true ∧ s.srcOk 5 = true ∧ s.room false 47 = .ok () ∧
      s.loadFree = .ok () ∧ s.tm.sq = [] ∧ dqCheck (one vec .A owned).tm = .ok () ∧
      ∃ x y u pl q bs v w, s.Reads2 1 5 x y u ∧ s.checkSpace s.me x x 0 = .ok () ∧ atomAllowed .cas (tagNum x) = true ∧ x.toNat % 8 = 0 ∧
        s.rangeOk s.me x 8 = true ∧ boardFree s.tm x 8 = .ok () ∧ u.placeOf s.me (spotOf s.me x) 8 0 .both x = .ok (pl, q) ∧
        q.doLoad s.me (atomPlace (spotOf s.me x) pl) 8 x = .ok (bs, v) ∧
        v.doStore s.me (atomPlace (spotOf s.me x) pl) (leBytes 8 (atomNew (.amo 0) (leNat bs) y 0)) x = .ok w := by
  refine ⟨issues rfl, rfl, rfl, rfl, rfl, rfl, rfl, rfl, rfl, ?_⟩
  exact ⟨_, _, _, _, _, _, _, _, ⟨rfl, _, rfl, rfl⟩, rfl, rfl, by decide, rfl, rfl, rfl, rfl, rfl⟩

/-- R155: the wrapping sum, the signed least value and the swap of an atomic. -/
theorem test_atomics :
    amoInt 32 0 0xFFFFFFFF 2 = 1 ∧ amoInt 64 4 (2 ^ 64 - 1) 0 = 2 ^ 64 - 1 ∧ amoInt 64 6 (2 ^ 64 - 1) 0 = 0 ∧
    atomNew .cas 5 9 5 = 9 ∧ atomNew .cas 5 9 4 = 5 ∧ atomAllowed (.amo 1) 4 = false := by decide

/-- A copy of 4 bytes within the cluster scratchpad, of which `n` are done. -/
def copyOf (n : Nat) (dst : W64) : CopyEnt :=
  { seq := 1, dst := dst, src := 0x1000000000000200, len := 4, fn := 0, done := n, st := .running, strand := .C, pc := 0, handle := none,
    before := 0, ahead := [] }

/-- A step whose operands name core `c` and number `n`. -/
def aim (s : State) (c : CoreId) (n : Nat) : State := { s with ev := { EvArg.zero with core := c, n := n, site := c.site } }

theorem witness_copies :
    (let s := one vec .C { owned with c := { owned.c with regs := [(1, 0x1000000000000040), (2, 0x1000000000000200), (3, 64)] } };
      s.Issues .C false ∧ tagMem s.cls .C = true ∧ s.srcOk 1 = true ∧ s.srcOk 2 = true ∧ s.srcOk 62 = true ∧
      (∃ x y z u, s.Reads3 1 2 3 x y z u ∧ s.copyCheck x y z.toNat 2 = .ok () ∧ s.copyFree x y z.toNat = .ok () ∧ z ≠ 0) ∧
      (∃ x y z u, s.Reads3 1 2 62 x y z u ∧ s.copyCheck x y z.toNat 0 = .ok () ∧ s.copyFree x y z.toNat = .ok () ∧ z = 0) ∧
      tfree s.tm.board 8 = some 0 ∧ (∃ x u, s.Reads1 1 x u ∧ s.tm.copyOf x = none) ∧ s.tm.board = [] ∧ s.destOk 1 = true ∧
      s.room false 1 = .ok ()) ∧
    (let s := one vec .C { owned with board := [(3, copyOf 0 0x1000000000000100)], c := { owned.c with regs := [(1, 0x10003)] } };
      ∃ x u, s.Reads1 1 x u ∧ s.tm.copyOf x ≠ none) ∧
    (let s := aim (one vec .C { owned with board := [(3, copyOf 4 0x1000000000000100)] }) vec 3;
      ∃ t ent, s.teamN vec 0 = some t ∧ tget? t.board 3 = some ent ∧ ent.st = .running ∧ ent.len ≤ ent.done) ∧
    (let s := aim (one vec .C { owned with board := [(3, copyOf 0 0x3000000000000000)] }) vec 3;
      ∃ t ent f, s.teamN vec 0 = some t ∧ tget? t.board 3 = some ent ∧ ent.done < ent.len ∧
        s.moveWord (whoOf vec t) ent = .error (.fault f)) := by
  refine ⟨⟨issues rfl, rfl, rfl, rfl, rfl, ⟨_, _, _, _, ⟨rfl, _, _, rfl, rfl, rfl⟩, rfl, rfl, by decide⟩,
    ⟨_, _, _, _, ⟨rfl, _, _, rfl, rfl, rfl⟩, rfl, rfl, rfl⟩, rfl, ⟨_, _, ⟨rfl, rfl⟩, rfl⟩, rfl, rfl, rfl⟩,
    ⟨_, _, ⟨rfl, rfl⟩, by decide⟩, ⟨_, _, rfl, rfl, rfl, by decide⟩, ⟨_, _, _, rfl, rfl, by decide, rfl⟩⟩

/-- The same with a W-tagged word at word 0 of the text, at which every strand stands. -/
def standing (s : State) : State :=
  s.setCore s.cur { s.core s.cur with active := { Plane.reset with text := [(0, 0xC0000000)] } }

theorem witness_fences :
    (let s := one vec .A team;
      s.Issues .A false ∧ loadsDone s.tm s.strand = true ∧ storesDone s.tm s.strand = true ∧ s.raiseSerr = .ok () ∧ (4 : BitVec 3).toNat < 5 ∧
      maskDone s.tm s.strand 63 = true ∧ (∃ u, s.acquired s.me = .ok u) ∧ ∃ u v, s.released s.me = .ok u ∧ u.acquired s.me = .ok v) ∧
    (let s := standing (one vec .C TeamSt.reset);
      s.Issues .W false ∧ s.allReached = true ∧ maskDone s.tm .C 63 = true ∧ maskDone s.tm .A 63 = true ∧ maskDone s.tm .X 63 = true) :=
  ⟨⟨issues rfl, rfl, rfl, rfl, by decide, by decide, ⟨_, rfl⟩, _, _, rfl, rfl⟩, ⟨issues rfl, by decide, by decide, by decide, by decide⟩⟩

/-- A flock entry of fold 0 with one member and no arrivals. -/
def flock1 (ms : List Member) (l : List ArriveRec) : FlockEnt :=
  { fold := 0, members := ms, had := true, node := none, episode := 0, value := 0, area := none, arrived := l }

/-- The key under which the team of `owned` joins, and its member record on die 23. -/
def ownKey : Nat := 65536
def ownMember : Member := { key := ownKey, site := 23, node := 1 }

/-- A die 23 with flock entry 5. -/
def withFlock (s : State) (e : FlockEnt) : State := s.setDie 23 { s.die 23 with flocks := [(5, e)] }

theorem witness_flock_join :
    (let s := one vec .A owned; s.Issues .W false ∧ s.strand ≠ .C) ∧
    -- the home die, by the flock id in a register
    (let s := withFlock (one vec .C { owned with c := { owned.c with regs := [(1, 23 * 1024 + 5)] } }) (flock1 [] []);
      s.Issues .W false ∧ s.strand = .C ∧ (∃ i, s.tm.id = some i ∧ i.fold = 0 ∧ i.fw = false) ∧ s.srcOk 1 = true ∧ s.tm.flock = none ∧ s.tm.join = .idle ∧
      (∃ x u, s.Reads1 1 x u ∧ (x.extractLsb' 0 16).toNat = 23 * 1024 + 5) ∧ flockForm (23 * 1024 + 5) = true ∧
      flockSite (23 * 1024 + 5) = s.cur.site ∧
      ∃ v, s.flockJoin 23 (flockEntry (23 * 1024 + 5)) ownMember 0 = some v) ∧
    -- another die, by the node's flock
    (let s := one vec .C owned;
      let d := s.drv 0;
      let u := s.setDrv 0 { d with nodes := [(1, { Node.reset with flkreq := true, flock := some 5 })] };
      let v := paths [23, 22, 21, 20, 10] [0] u;
      (∃ i, u.tm.id = some i ∧ u.nodeFlock i = some 5 ∧ v.nodeFlock i = some 5) ∧ flockForm 5 = true ∧ flockSite 5 ≠ u.cur.site ∧
        u.routed u.cur.site (flockSite 5) = false ∧ v.routed v.cur.site (flockSite 5) = true) ∧
    -- a firmware core
    (let s := one drover .C { team with c := { team.c with regs := [(1, 23 * 1024 + 5)] }, id := (fwTeam 0 0 0).id };
      s.Issues .W false ∧ (∃ i, s.tm.id = some i ∧ i.fw = true) ∧ s.srcOk 1 = true ∧ s.tm.flock = none ∧ ∃ x u, s.Reads1 1 x u) ∧
    (let s := one vec .C { owned with join := .joined }; s.tm.join = .joined ∧ s.tm.flock = none) ∧
    (one vec .C { owned with flock := some 5 }).tm.flock ≠ none := by
  refine ⟨⟨issues rfl, by decide⟩, ⟨issues rfl, rfl, ⟨_, rfl, rfl, rfl⟩, rfl, rfl, rfl, ⟨_, _, ⟨rfl, rfl⟩, by decide⟩, by decide, by decide, ⟨_, rfl⟩⟩,
    ⟨⟨_, rfl, rfl, rfl⟩, by decide, by decide, rfl, rfl⟩, ⟨issues rfl, ⟨_, rfl, rfl⟩, rfl, rfl, _, _, rfl, rfl⟩, ⟨rfl, rfl⟩, by decide⟩

theorem witness_flock_episodes :
    (let s := one vec .X { owned with arrival := .complete .fbar (some 1), flock := some 5 };
      s.Issues .W false ∧ s.tm.arrival ≠ .idle ∧ s.strand ≠ .C ∧ ∃ u, s.acquired s.me = .ok u) ∧
    (let s := standing (one vec .C { TeamSt.reset with arrival := .complete .fbar (some 1), flock := some 5 });
      s.Issues .W false ∧ s.destOk 3 = true ∧ s.allReached = true ∧ s.room false 3 = .ok () ∧ ∃ u, s.acquired s.me = .ok u) ∧
    (let s := standing (withFlock (one vec .C { TeamSt.reset with flock := some (23 * 1024 + 5), id := owned.id }) (flock1 [ownMember] []));
      s.Issues .W false ∧ s.allReached = true ∧ s.tm.arrival = .idle ∧ s.tm.sq = [] ∧ lqLoads s.tm = 0 ∧ s.tm.serr.getLsbD 31 = false ∧
      s.raiseSerr = .ok () ∧ ∃ u w, s.released s.me = .ok u ∧ u.arriveAt (23 * 1024 + 5) .fbar 0 = .ok w) ∧
    (let s := withFlock (one vec .C { owned with flock := some (23 * 1024 + 5) }) (flock1 [ownMember] []);
      s.Issues .C false ∧ s.destOk 1 = true ∧ s.srcOk 2 = true ∧ s.room false 1 = .ok () ∧ s.tm.arrival = .idle ∧
        ∃ x u w, s.Reads1 2 x u ∧ s.arriveAt (23 * 1024 + 5) (.fred 0) x = .ok w) ∧
    (let a : ArriveRec := { key := 1, node := 1, kind := .fred 1, val := 4 };
      let s := withFlock (aim State.reset vec 0) (flock1 [ownMember] []);
      let m : FlockMsg := .arrive 5 ownKey 1 .fbar 0;
      let t := s.setDie 23 { s.die 23 with flockIn := [m] };
      (t.dropFlockMsg t.ev.site).flockAt 23 5 = some (flock1 [ownMember] []) ∧ (flock1 [] [a]).agrees = true ∧ a ∈ (flock1 [] [a]).arrived) ∧
    (let a : ArriveRec := { key := 0, node := 1, kind := .fred 3, val := 4 };
      let e : FlockEnt := { flock1 [ownMember] [] with node := some 1, area := some (0x1000000, 1) };
      let s := paths [23, 22, 21, 20, 10, 0] [0] (withFlock (aim State.reset vec 0) e);
      let t := s.setDie 23 { s.die 23 with window := [(0, (0, 1))] };
      e.area ≠ none ∧ e.node = some 1 ∧ ∃ u, t.contribute 23 e a = .ok u) := by
  refine ⟨⟨issues rfl, by decide, by decide, _, rfl⟩, ⟨issues rfl, rfl, by decide, rfl, _, rfl⟩,
    ⟨issues rfl, by decide, rfl, rfl, rfl, rfl, rfl, _, _, rfl, rfl⟩, ⟨issues rfl, rfl, rfl, rfl, rfl, _, _, _, ⟨rfl, rfl⟩, rfl⟩,
    ⟨by decide, by decide, by decide⟩, ⟨by decide, rfl, _, rfl⟩⟩

/-- A team of VEC in a transfer phase. -/
def phased (last : Option Nat) (ended : Bool) : TeamSt :=
  { owned with phase := some { base := 100, last := last, ended := ended, atEnd := true }, flock := some 5 }

theorem witness_phases :
    (let s := one vec .C team; s.Issues .W s.xphReady ∧ s.strand ≠ .X) ∧
    (let s := one vec .X { phased none false with arrival := .complete .xph (some 0) };
      s.Issues .W s.xphReady ∧ s.strand = .X ∧ s.tm.flock = some 5 ∧ stripsAt s.cur.site ≠ 0 ∧ (∃ p, s.tm.phase = some p ∧ p.ended = false) ∧
        ∃ u, s.arrivalDone.acquired s.me = .ok u) ∧
    (let s := withFlock (one vec .X { owned with flock := some (23 * 1024 + 5) }) (flock1 [ownMember] []);
      s.Issues .W s.xphReady ∧ s.tm.arrival = .idle ∧
        s.flockAt (flockSite (23 * 1024 + 5)) (flockEntry (23 * 1024 + 5)) = some (flock1 [ownMember] []) ∧
        (∀ m ∈ (flock1 [ownMember] []).members, m.site = s.cur.site) ∧ queuesDone s.tm = true ∧ s.tm.scat = [] ∧
        ∃ u w, s.released s.me = .ok u ∧ u.arriveAt (23 * 1024 + 5) .xph 0 = .ok w) ∧
    (let s := one mem .X { owned with flock := some 5 };
      s.Issues .W s.xphReady ∧ s.strand = .X ∧ s.tm.flock = some 5 ∧ stripsAt s.cur.site = 0) ∧
    (let s := one vec .X (phased (some 1) false);
      s.Issues .X true ∧ (∃ p, s.tm.phase = some p ∧ (∀ l, p.last = some l → l < (2 : BitVec 9).toNat)) ∧ s.srcOk 4 = true ∧
      s.phaseTurn 102 0 = true ∧ s.phaseTurn 102 1 = true ∧ (∃ x u, s.src 4 = .ok (x, u)) ∧ s.destOk 5 = true ∧ s.room false 5 = .ok ()) ∧
    (let s := one vec .X (phased none true); s.Issues .W true ∧ ∃ p, s.tm.phase = some p ∧ p.ended = true) ∧
    (let s := one vec .X (phased none false);
      ∃ p, s.tm.phase = some p ∧ p.ended = false ∧ s.allAtEnd p = true ∧ s.chainsQuiet = true ∧
        collided (s.die 23).drives (coreStrip s.cur) p.base s.drivesGone = false) ∧
    (let d : Drive := { west := false, strip := coreStrip vec, cycle := 101, val := 1 };
      collided [d, d] (coreStrip vec) 100 200 = true) := by
  refine ⟨⟨issues rfl, by decide⟩, ⟨issues rfl, rfl, rfl, by decide, ⟨_, rfl, rfl⟩, _, rfl⟩,
    ⟨issues rfl, rfl, by decide, by decide, rfl, rfl, _, _, rfl, rfl⟩, ⟨issues rfl, rfl, rfl, by decide⟩,
    ⟨issues rfl, ⟨_, rfl, by intro l h; cases h; decide⟩, rfl, by decide, by decide, ⟨_, _, rfl⟩, rfl, rfl⟩,
    ⟨issues rfl, _, rfl, rfl⟩, ⟨_, rfl, rfl, by decide, by decide, by decide⟩, by decide⟩

/-! A brand's check field is a free value of the drover's key (log 13), so a brand is shown to pass check 1 whatever that value is. -/

theorem append_high (a h : W64) (n : Nat) : ((a ++ h : BitVec 128)) >>> (64 + n) = (a >>> n).setWidth 128 := by
  apply BitVec.eq_of_getLsbD_eq
  intro i hi
  rw [BitVec.getLsbD_ushiftRight, BitVec.getLsbD_append, BitVec.getLsbD_setWidth, BitVec.getLsbD_ushiftRight]
  have h1 : ¬ (64 + n + i < 64) := by omega
  have h2 : 64 + n + i - 64 = n + i := by omega
  simp [h1, h2, hi]

theorem append_low (a h : W64) : ((a ++ h : BitVec 128)).setWidth 64 = h := by
  apply BitVec.eq_of_getLsbD_eq
  intro i hi
  rw [BitVec.getLsbD_setWidth, BitVec.getLsbD_append]
  simp [hi]

/-- Buffer 3 of drover 0: 64 KiB with every right, in fold 0. -/
def buffer : Buf :=
  { pa := 0, len := 65536, count := 1, gen := 1, fold := 0, rights := 0x3F, graphOwned := false, gid := none, live := true,
    freeing := false }

/-- A package with that buffer. -/
def buffered (s : State) : State :=
  let x : Window := { asid := 1, fold := 0, buf := 3, pa := 0, len := 65536, users := [(1, 0)], ended := false, left := none }
  s.setDrv 0 { s.drv 0 with bufs := [(3, buffer)], wins := [x] }

/-- The upper half of a brand of it with some rights, and the brand. -/
def brandTop (r : BitVec 6) : W64 := packW [((bufId 0 3).toNat, 32), (1, 16), (r.toNat, 8), (0, 5)]
def brandOf (r : BitVec 6) : W128 := (buffered (one vec .C owned)).makeBrand 0 3 r

/-- A team that holds in b1 a view of slot 2 of its node with that brand, a slot that `BDROP` has emptied or not. -/
def viewed (r : BitVec 6) (gone : List Nat) : State :=
  let s := buffered (one vec .C { owned with brands := [(1, { bits := brandOf r, view := some 2 })] })
  s.setDrv 0 { s.drv 0 with nodes := [(1, { Node.reset with slots := [(2, brandOf r)], dropped := gone })] }

/-- A team that holds that brand in b1. -/
def branded (r : BitVec 6) : State := buffered (one vec .C { owned with brands := [(1, { bits := brandOf r, view := none })] })

theorem brandOf_eq (r : BitVec 6) : brandOf r = brandTop r ++ Config.brandHash 0 (brandTop r) := rfl

/-- The fields of such a brand are those of its upper half. -/
theorem brandOf_fields (r : BitVec 6) :
    brDrv (brandOf r) = ((brandTop r >>> 63).setWidth 128).toNat ∧ brIdx (brandOf r) = ((brandTop r >>> 32).setWidth 128 &&& 0xFFFF).toNat ∧
    brGen (brandOf r) = ((brandTop r >>> 16).setWidth 128 &&& 0xFFFF).toNat ∧
    brRights (brandOf r) = ((brandTop r >>> 8).setWidth 128).setWidth 8 ∧ brFold (brandOf r) = ((brandTop r >>> 5).setWidth 128 &&& 7).toNat ∧
    brCheck (brandOf r) = Config.brandHash 0 (brandTop r) ∧ ((brandOf r) >>> 64).setWidth 64 = brandTop r := by
  rw [brandOf_eq]
  refine ⟨?_, ?_, ?_, ?_, ?_, append_low _ _, ?_⟩
  · rw [brDrv, append_high _ _ 63]
  · rw [brIdx, append_high _ _ 32]
  · rw [brGen, append_high _ _ 16]
  · rw [brRights, append_high _ _ 8]
  · rw [brFold, append_high _ _ 5]
  · rw [append_high _ _ 0]; simp

/-- A brand of buffer 3 passes check 1 on a team of fold 0, with every right and with none. -/
theorem passes {s : State} (r : BitVec 6) (h : r = 0x3F ∨ r = 0) (hb : s.buf 0 3 = buffer)
    (hk : s.brandHash 0 0 (brandTop r) = Config.brandHash 0 (brandTop r)) : s.brandOk 0 (brandOf r) = true := by
  obtain ⟨h1, h2, h3, h4, h5, h6, h7⟩ := brandOf_fields r
  have hn : brandOf r ≠ 0 := by
    intro e
    have : brGen (brandOf r) = 0 := by rw [e]; decide
    rw [h3] at this
    rcases h with rfl | rfl <;> exact absurd this (by decide)
  have hd : brDrv (brandOf r) = 0 := by rw [h1]; rcases h with rfl | rfl <;> decide
  have hi : brIdx (brandOf r) = 3 := by rw [h2]; rcases h with rfl | rfl <;> decide
  have hf : brFold (brandOf r) = 0 := by rw [h5]; rcases h with rfl | rfl <;> decide
  have hg : brGen (brandOf r) = 1 := by rw [h3]; rcases h with rfl | rfl <;> decide
  simp only [State.brandOk, hd, hi, hf, hg, h6, h7, hb, hk]
  simp [buffer]
  exact hn

theorem brand_passes (r : BitVec 6) (h : r = 0x3F ∨ r = 0) : (branded r).brandOk 0 (brandOf r) = true := passes r h rfl rfl

/-- The same brand passes as a view. -/
theorem view_passes (r : BitVec 6) (h : r = 0x3F ∨ r = 0) (l : List Nat) : (viewed r l).brandOk 0 (brandOf r) = true := passes r h rfl rfl

theorem witness_brands :
    (let s := branded 0x3F;
      s.Issues .C false ∧ s.destOk 1 = true ∧ s.room false 1 = .ok () ∧ (∃ i, s.tm.id = some i) ∧ s.brandOk s.tm.foldNo (s.tm.brand 1).bits = true ∧
      (s.tm.brand 1).view = none ∧ (s.tm.brand 2).bits = 0 ∧ s.brandOk s.tm.foldNo (s.tm.brand 0).bits = false ∧
      ∀ k, k < 6 → (brRights (s.tm.brand 1).bits).getLsbD k = true) ∧
    (let s := branded 0;
      s.brandOk s.tm.foldNo (s.tm.brand 1).bits = true ∧ ∀ k, k < 6 → (brRights (s.tm.brand 1).bits).getLsbD k = false) ∧
    (let s := branded 0x3F; ∃ i u, s.tm.id = some i ∧ s.openWindow i (s.tm.brand 1).bits = .ok u) ∧
    -- views of a node slot, with every right, with none, and of a slot that is empty again
    (let s := viewed 0x3F [];
      s.Issues .C false ∧ s.brandOk s.tm.foldNo (s.tm.brand 1).bits = true ∧ (s.tm.brand 1).view = some 2 ∧
      (∀ k, k < 6 → (brRights (s.tm.brand 1).bits).getLsbD k = true) ∧
      ∃ i, s.tm.id = some i ∧ (tget Node.reset (s.drv i.drv).nodes i.slot).dropped.contains 2 = false ∧
        tget 0 (tget Node.reset (s.drv i.drv).nodes i.slot).slots 8 = 0) ∧
    (let s := viewed 0 [];
      s.brandOk s.tm.foldNo (s.tm.brand 1).bits = true ∧ (s.tm.brand 1).view = some 2 ∧
        ∀ k, k < 6 → (brRights (s.tm.brand 1).bits).getLsbD k = false) ∧
    (let s := viewed 0x3F [2];
      s.brandOk s.tm.foldNo (s.tm.brand 1).bits = true ∧ (s.tm.brand 1).view = some 2 ∧
        ∃ i, s.tm.id = some i ∧ (tget Node.reset (s.drv i.drv).nodes i.slot).dropped.contains 2 = true) := by
  have h1 : ∀ k, k < 6 → (brRights (brandOf 0x3F)).getLsbD k = true := by rw [(brandOf_fields _).2.2.2.1]; decide
  have h2 : ∀ k, k < 6 → (brRights (brandOf 0)).getLsbD k = false := by rw [(brandOf_fields _).2.2.2.1]; decide
  have h3 : brBuf (brandOf 0x3F) = 3 := by
    rw [brBuf, (brandOf_fields _).1, (brandOf_fields _).2.1]; decide
  have h4 : ∀ i, some i = owned.id → ∃ u, (branded 0x3F).openWindow i (brandOf 0x3F) = .ok u := by
    intro i h
    cases h
    exact ⟨_, by rw [State.openWindow, h3]; rfl⟩
  exact ⟨⟨issues rfl, rfl, rfl, ⟨_, rfl⟩, brand_passes _ (.inl rfl), rfl, rfl, rfl, h1⟩, ⟨brand_passes _ (.inr rfl), h2⟩,
    ⟨_, (h4 _ rfl).choose, rfl, (h4 _ rfl).choose_spec⟩, ⟨issues rfl, view_passes _ (.inl rfl) _, rfl, h1, _, rfl, rfl, rfl⟩,
    ⟨view_passes _ (.inr rfl) _, rfl, h2⟩, view_passes _ (.inl rfl) _, rfl, _, rfl, rfl⟩

theorem witness_node_and_configuration :
    (let s := one vec .A owned;
      s.Issues .A false ∧ tagMem s.cls .A = true ∧ s.destOk 1 = true ∧ s.room false 1 = .ok () ∧ (∃ i, s.tm.id = some i) ∧ (15 : BitVec 9).toNat < 16 ∧
      cfNamed 17 = true ∧ cfNamed 47 = true ∧ s.srcOk 4 = true ∧ (∃ x u, s.Reads1 4 x u) ∧ cfNamed 64 = true ∧ s.cls ≠ .drover) ∧
    (let s := one drover .A owned; s.Issues .A false ∧ s.cls = .drover ∧ cfNamed 68 = true) ∧
    (let s := one vec .C { owned with c := { owned.c with regs := [(1, 0x4000000000000040), (4, 64)] } };
      let s := paths [23, 22, 21, 20] [10] s;
      s.Issues .C false ∧ s.srcOk 4 = true ∧ s.srcOk 1 = true ∧ strandStores s.tm s.strand = [] ∧ s.raiseSerr = .ok () ∧
      ∃ x p u r sp pl q v, s.Reads2 4 1 x p u ∧ tagNum p = 4 ∧ u.released u.me = .ok r ∧ r.checkEa r.me p p 8 8 0 = .ok sp ∧
        boardFree r.tm p 8 = .ok () ∧ r.placeOf r.me sp 8 0 .write p = .ok (pl, q) ∧
        q.doStore q.me pl (leBytes 8 x.toNat) p = .ok v ∧ r.placeOf r.me sp 8 0 .both p = .ok (pl, q) ∧
        ∃ old w, q.doAtomic q.me pl (.amo 0) x 0 p = .ok (old, w)) := by
  refine ⟨⟨issues rfl, rfl, rfl, rfl, ⟨_, rfl⟩, by decide, by decide, by decide, rfl, ⟨_, _, rfl, rfl⟩, by decide, by decide⟩,
    ⟨issues rfl, rfl, by decide⟩,
    ⟨issues rfl, rfl, rfl, rfl, rfl, _, _, _, _, _, _, _, _, ⟨rfl, _, rfl, rfl⟩, rfl, rfl, rfl, rfl, rfl, rfl, rfl, _, _, rfl⟩⟩

theorem witness_privileged :
    (let s := one drover .C team;
      s.Issues .C false ∧ s.cls = .drover ∧ s.tm.sq = [] ∧ s.exa s.cur = false ∧ s.tlbiOk 1 2 2 = true ∧ s.tlbiOk 62 62 0 = true ∧
      (∃ x y u, s.Reads2 1 2 x y u) ∧ (s.core s.cur).tlbi = none) ∧
    (let s := one drover .C team; (s.setCore drover { s.core drover with ecause := 0x80000000 }).exa drover = true) ∧
    (let s := one drover .C team; ((s.setCore drover { s.core drover with tlbi := some [] }).core drover).tlbi = some []) ∧
    (one vec .C team).cls ≠ .drover ∧
    (let m : TlbiMsg := { kind := 1, asid := 0, va := 0, by_ := some drover, from_ := 10, lost := false };
      let e : TlbEnt := { asid := 0, glob := false, va := 0, size := 4096, pa := 0, r := true, w := true, nc := false, ms := false, d := true, pte := 0 };
      let s := fun l : List StoreEnt => aim (one vec .C { team with sq := l }) vec 0;
      let u := fun l => (s l).setDie 23 { (s l).die 23 with tlbiIn := [{ m with lost := true }, m], tlb := [e] };
      let v := fun l => (u l).settle ((u l).coresAt 23);
      let w : StoreEnt := { storeAt .C (.mem 64 .home) none with ea := 64 };
      (u []).ev.site = 23 ∧ ((u []).die 23).tlbiIn.find? (fun m => !m.lost) = some m ∧
        (∀ c ∈ (u []).coresAt 23, (v []).settled m c = true) ∧ ∃ c ∈ (u [w]).coresAt 23, (v [w]).settled m c = false) ∧
    (let s := one drover .C team;
      let u := aim (s.setCore drover { s.core drover with tlbi := some [10, 23] }) drover 0;
      ∃ l, (u.core u.ev.core).tlbi = some l ∧ u.ev.site ∈ l ∧ ∀ m ∈ (u.die u.ev.site).tlbiIn, m.by_ ≠ some u.ev.core) := by
  refine ⟨⟨issues rfl, rfl, rfl, rfl, by decide, by decide, ⟨_, _, _, rfl, _, rfl, rfl⟩, rfl⟩, rfl, rfl, by decide, ⟨rfl, rfl, by decide, vec, by decide, by decide⟩, ⟨_, rfl, by decide, by decide⟩⟩

/-- R191: a `CFW` to WAITTH is clamped to 256 and WAITMAX. -/
theorem test_cfw_waitth :
    (match exec (.cfw .C 4 17) (one vec .C owned) with | .next t => decide (t.tm.waitth = 256) | _ => false) = true := by decide

/-- A state with other entries in the format table of its core's active plane. -/
def formats (l : Tab W32) (s : State) : State :=
  s.setCore s.cur { s.core s.cur with active := { Plane.reset with fmt := l } }

/-- FP32 (0), BF16 (1), INT8 in blocks with a scale (2), and an entry that is not well-formed (3). -/
def table : Tab W32 := [(1, 1), (2, 0x44007), (3, 15)]

/-- An X strand of a VEC, SPARSE, SORT and CUBE core with these formats. -/
def lanesOf (c : CoreId) : State := formats table (one c .X owned)

theorem witness_vector_elements :
    let s := lanesOf vec
    s.Issues .X false ∧ s.srcOk 1 = true ∧ s.srcOk 55 = true ∧ s.destOk 47 = true ∧ regOk 47 = true ∧ s.room false 47 = .ok () ∧
    (∃ x u, s.Lanes1 1 x u) ∧ (∃ x y u, s.Lanes2 1 55 x y u) ∧
    fmtFits (s.fmtEntry 0) elFloat = true ∧ fmtFits (s.fmtEntry 3) elFloat = false ∧ fmtFits (s.fmtEntry 2) elFloat = false ∧
    fmtFits (s.fmtEntry 0) elInt = true ∧ fmtFits (s.fmtEntry 1) elInt = false ∧ fmtFits (s.fmtEntry 1) elPacked = true ∧
    fmtFits (s.fmtEntry 0) elPacked = false ∧ quantFits (s.fmtEntry 2) = true ∧ quantFits (s.fmtEntry 0) = false ∧
    fmtFits (s.fmtEntry 0) elFP32 = true ∧ fmtFits (s.fmtEntry 1) elFP32 = false ∧ fmtFits (s.fmtEntry 0) elWord = true ∧
    (enOk (s.fmtEntry 2) && enScale (s.fmtEntry 2) != 0) = true ∧ (7 : BitVec 6).toNat < 8 ∧ (1 : BitVec 6).toNat < 32 / enBits (s.fmtEntry 1) ∧
    (6 : BitVec 3) ≠ 7 ∧ pushCheck s.tm .xc = .ok () := by
  refine ⟨issues rfl, rfl, rfl, rfl, rfl, rfl, ⟨_, _, rfl, rfl⟩, ⟨_, _, _, rfl, _, rfl, rfl⟩,
    rfl, rfl, rfl, rfl, rfl, rfl, rfl, rfl, rfl, rfl, rfl, rfl, rfl, by decide, by decide, by decide, rfl⟩

theorem witness_packed : (7 : Nat) < 32 / 4 ∧ (0 : Nat) < 32 / 32 ∧ 4 ∈ [4, 8, 16, 32] ∧ 32 ∈ [4, 8, 16, 32] := by decide

theorem witness_insert :
    let s := one vec .X { owned with cx := [⟨9, 0⟩] }
    popCheck s.tm.cx.length 1 (qGone s.tm .cx) = .ok () ∧ ∃ x y u z v, s.Lanes2 1 2 x y u ∧ u.popNamed .cx = .ok (z, v) :=
  ⟨rfl, _, _, _, _, _, ⟨rfl, _, rfl, rfl⟩, rfl⟩

/-- R193: bytes are added within their own places. -/
theorem test_packed : lane2 8 (fun p q => (p + q) % 256) 0x01FF80FF 0x01018001 = 0x02000000 := by decide

set_option maxRecDepth 4000 in
theorem witness_vector_memory :
    (let s := one vec .A { owned with a := { owned.a with regs := [(1, 0x1000000000000200)] } };
      s.Issues .A false ∧ s.srcOk 1 = true ∧
      ∃ g u pl q bs v v', s.Reads1 1 g u ∧ vecSpace g = true ∧ u.access g g 512 512 0 .read = .ok (pl, q) ∧ q.orderFree pl = .ok () ∧
        q.loadFree = .ok () ∧ q.doLoad q.me pl 512 g = .ok (bs, v) ∧ dqCheck s.tm = .ok () ∧ q.enqueueLoad pl g 512 false true = .ok v') ∧
    (let s := one vec .A { owned with a := { owned.a with regs := [(1, 0x1000000000000200)] } };
      ∃ g u pl q, s.Reads1 1 g u ∧ u.access g g 512 512 0 .write = .ok (pl, q) ∧ q.orderFree pl = .ok ()) ∧
    (let s := one vec .X { owned with vregs := [(1, [0x40, 0x10000000])] };
      s.Issues .X false ∧ s.srcOk 2 = true ∧ regOk 3 = true ∧
      ∃ x y u, s.Lanes2 1 2 x y u ∧ (∃ l v, u.gather (lanes64 x) false (numbered y) = .ok (l, v)) ∧
        (∃ l v, u.gather (lanes64 x) true (numbered y) = .ok (l, v)) ∧
        ∃ es v, u.scatter (lanes64 x) (s.vreg 3) (numbered y) = .ok (es, v)) := by
  refine ⟨⟨issues rfl, rfl, _, _, _, _, _, _, _, ⟨rfl, rfl⟩, rfl, rfl, rfl, rfl, rfl, rfl, rfl⟩,
    ⟨_, _, _, _, ⟨rfl, rfl⟩, rfl, rfl⟩,
    ⟨issues rfl, rfl, rfl, _, _, _, ⟨rfl, _, rfl, rfl⟩, ⟨_, _, rfl⟩, ⟨_, _, rfl⟩, _, _, rfl⟩⟩

/-- A port in some state with a walk of 2 operands of 512 bytes. -/
def portIn (st : PortState) (pos : Nat) : Port :=
  { portReset with st := st, base := 0x1000000000000200, n0 := 2, n1 := 1, n2 := 1, s0 := 512, pos := pos }

/-- A VEC core whose port `p` is in that state. -/
def ported (p : Nat) (q : Port) : State := one vec .A { owned with ports := [(p, q)] }

theorem witness_ports :
    (let s := ported 4 portReset;
      s.Issues .A false ∧ s.srcOk 1 = true ∧ (∃ b u, s.Reads1 1 b u) ∧ (44 : BitVec 6).toNat ≤ 44 ∧ (44 : BitVec 6).toNat % 4 = 0 ∧
      hi32 (s.descr 44 1) = 0 ∧ hi32 (s.descr 44 3) = 0 ∧ (s.tm.port 4).st = .idle ∧ (s.tm.port 4).wait = false ∧ s.destOk 1 = true ∧
      s.room false 1 = .ok ()) ∧
    (let s := ported 0 (portIn .run 0); (s.tm.port 0).st = .run ∧ filledFor 0 s.tm.claims s.tm.sdq.length = false) ∧
    (let s := ported 5 (portIn .halted 0); (s.tm.port 5).st = .halted ∧ portTotal (s.tm.port 5) ≠ 0) ∧
    (let s := aim (ported 3 (portIn .run 1)) vec 3;
      let h := (s.team vec).port 3;
      h.st = .run ∧ h.buf.length < 8 ∧ h.pos < portTotal h ∧ (s.core vec).run = true ∧ ∃ l row u, s.portFetch vec h = .ok (l, row, u)) ∧
    (let s := aim (ported 0 { portIn .run 0 with base := 0x1000000000400000 }) vec 0;
      ∃ f, s.portFetch vec ((s.team vec).port 0) = .error (.fault f)) ∧
    (let s := aim (one vec .A { owned with ports := [(4, portIn .run 0)], claims := [.port 4 1], sdq := [⟨[1, 2], 0⟩] }) vec 4;
      ∃ rest e es u, (s.team vec).claims = .port 4 1 :: rest ∧ (s.team vec).sdq = e :: es ∧
        s.portWrite vec ((s.team vec).port 4) e = .ok u) := by
  refine ⟨⟨issues rfl, rfl, ⟨_, _, rfl, rfl⟩, by decide, by decide, rfl, rfl, rfl, rfl, rfl, rfl⟩, ⟨rfl, rfl⟩, ⟨rfl, by decide⟩,
    ⟨rfl, by decide, by decide, rfl, _, _, _, rfl⟩, ⟨_, rfl⟩, ⟨_, _, _, _, rfl, rfl, rfl⟩⟩

set_option maxRecDepth 4000 in
theorem witness_sparse_and_sort :
    (let s := lanesOf sparse;
      s.Issues .X false ∧ s.srcOk 1 = true ∧ s.srcOk 2 = true ∧ regOk 3 = true ∧ s.destOk 3 = true ∧ s.room false 3 = .ok () ∧
      fmtFits (s.fmtEntry 0) elFP32 = true ∧
      ∃ x y u l v, s.Lanes2 1 2 x y u ∧
        u.pathLanes (lanes64 x) (y.getD 0 0).toNat (y.getD 1 0).toNat (numbered (s.vreg (3 : BitVec 6).toNat)) = .ok (l, v)) ∧
    (let s := one sparse .A { owned with a := { owned.a with regs := [(1, 0x0000000500000003), (11, 0x0000000700000002)] } };
      s.Issues .A false ∧ s.srcOk 1 = true ∧ (∃ c u, s.Reads1 1 c u ∧ (lo32 c).toNat + (hi32 c).toNat ≤ 2 ^ 32) ∧
      (8 : BitVec 6).toNat % 4 = 0 ∧ (hi32 (s.descr 8 3)).toNat = 7 ∧ (lo32 (s.descr 8 3)).toNat = 2 ∧ (1 : BitVec 3).toNat + 3 < 5 ∧
      ∀ e < 3, portHeld (s.tm.port (1 + e)) = false) ∧
    (let s := one sparse .A { owned with a := { owned.a with regs := [(1, 0xFFFFFFFF00000003), (11, 0x0000000200000003)] } };
      ∃ c u, s.Reads1 1 c u ∧ 2 ^ 32 < (lo32 c).toNat + (hi32 c).toNat ∧ (hi32 (s.descr 8 3)).toNat < (lo32 (s.descr 8 3)).toNat) ∧
    (let s := lanesOf sort;
      s.Issues .X false ∧ s.destOk 1 = true ∧ s.srcOk 2 = true ∧ (∃ x u, s.Lanes1 2 x u) ∧ s.room false 1 = .ok () ∧ regOk 2 = true ∧
      (1 : BitVec 6) ≠ 2 ∧ s.popsOk [3] = .ok () ∧ (∃ x v y u, s.vsrc 2 = .ok (x, v) ∧ v.vsrc 3 = .ok (y, u)) ∧
      (32 : BitVec 6).toNat ≤ 32 ∧ ∃ x y u, s.Lanes2 1 2 x y u) := by
  refine ⟨⟨issues rfl, rfl, rfl, rfl, rfl, rfl, rfl, _, _, _, _, _, ⟨rfl, _, rfl, rfl⟩, rfl⟩,
    ⟨issues rfl, rfl, ⟨_, _, ⟨rfl, rfl⟩, by decide⟩, by decide, by decide, by decide, by decide, by decide⟩,
    ⟨_, _, ⟨rfl, rfl⟩, by decide, by decide⟩,
    ⟨issues rfl, rfl, rfl, ⟨_, _, rfl, rfl⟩, rfl, rfl, by decide, rfl, ⟨_, _, _, _, rfl, rfl⟩, by decide, _, _, _, rfl, _, rfl, rfl⟩⟩

/-- Tiles of 8 by 8: 0 to 2 of FP32, 3 to 5 of BF16; DIMI, DIMJ and DIMK 8, GMODE 1, the operand slots BF16. -/
def tiled : TeamSt :=
  let f : Tile := { shape := 0x00808, elems := [], scales := [], poison := none }
  let b : Tile := { shape := 0x10808, elems := [], scales := [], poison := none }
  { owned with tiles := [(0, f), (1, f), (2, f), (3, b), (4, b), (5, b)],
               staging := [(0, 8), (1, 8), (2, 8), (3, 1), (5, 1), (6, 1), (7, 1)] }

theorem witness_tiles :
    let s := formats table (one cube .X tiled)
    let t := s.tm
    s.Issues .X false ∧ tileDir 0 = 0 ∧ tileDir 4 ≠ 3 ∧ tileDir 8 ≠ 3 ∧
    -- `TCVT` t0, t3
    enOk (s.fmtEntry (t.stage 5)) = true ∧ enOk (s.fmtEntry (t.stage 8)) = true ∧ enBlk (s.fmtEntry (t.stage 8)) = 0 ∧
    s.tilesFree [0, 12] = .ok () ∧ s.coversTile 12 (t.tileOf 0) = true ∧ shType (t.tileOf 12).shape = typeOf (s.fmtEntry (t.stage 5)) ∧
    shType (t.tileOf 0).shape = typeOf (s.fmtEntry (t.stage 8)) ∧ (t.tileOf 12).poison = none ∧
    -- the element words, `TRED` and `TBCAST` on t0, t1 and t2, also transposed
    elTile (s.fmtEntry (t.stage 8)) = true ∧ s.tilesFree [0, 4, 8] = .ok () ∧ s.coversTile 5 (t.tileOf 0) = true ∧
    s.coversTile 8 (t.tileOf 0) = true ∧ s.srcOk 62 = true ∧ (∃ z u, s.Reads1 62 z u ∧ fieldW z 1 0 ≠ 3) ∧
    t.ix1.toNat < shCols (t.tileOf 0).shape ∧ t.ix0.toNat < shRows (t.tileOf 4).shape ∧
    shRows (t.tileOf 0).shape = 8 ∧ shCols (t.tileOf 4).shape = 8 ∧ enBlk (shType (t.tileOf 0).shape) = 0 := by
  refine ⟨issues rfl, rfl, by decide, by decide, rfl, rfl, rfl, rfl, by decide, by decide, by decide, rfl, rfl, rfl, by decide, by decide, rfl,
    ⟨_, _, ⟨rfl, rfl⟩, by decide⟩, by decide, by decide, by decide, by decide, by decide⟩

theorem witness_cube_control :
    (let s := formats table (one cube .X tiled);
      s.Issues .X false ∧ (s.core s.cur).lease = .none ∧ stageOk 2 128 = true ∧ stageOk 2 136 = false ∧ s.srcOk 50 = true ∧
      (∃ x u, s.Reads1 50 x u ∧ shapeOk x = false) ∧ s.tilesFree [0] = .ok () ∧ tileDir 1 < 2 ∧ s.atLeast 1 8 8 = true) ∧
    (let s := one cube .X { tiled with x := { tiled.x with lat := [0x10808] } };
      ∃ x u, s.Reads1 48 x u ∧ shapeOk x = true ∧ (s.tm.tileOf 12).shape = x ∧ (s.tm.tileOf 0).shape ≠ x) ∧
    (let s := one cube .X tiled; ((s.setCore cube { s.core cube with lease := .want }).core cube).lease ≠ .none) := by
  refine ⟨⟨issues rfl, rfl, by decide, by decide, rfl, ⟨_, _, ⟨rfl, rfl⟩, by decide⟩, rfl, by decide, by decide⟩,
    ⟨_, _, ⟨rfl, rfl⟩, by decide, by decide, by decide⟩, by decide⟩

theorem witness_cube_commands :
    let s0 := formats table (one cube .X tiled)
    let s := s0.setCore cube { s0.core cube with lease := .held }
    let f := s.fmtEntry 1
    s.Issues .X false ∧ (s0.core cube).lease = .none ∧ (s.core cube).lease = .held ∧ leaseLive (s.core cube) s.cyc = true ∧
    s.tilesFree [12, 16, 20] = .ok () ∧ [f, f, f].all slotOk = true ∧
    (s.dimkOk [f, f] && s.atLeast 12 8 8 && s.atLeast 16 8 8 && s.blocksAlong 12 false && s.blocksAlong 16 true) = true ∧
    (s.tm.triMode && s.dimkOk [f, f, f] && s.triSizes 12 16 20 && s.triBlocks 12 16 20) = true ∧
    s.cmdChecks [(12, f), (16, f)] (cmdKind [f, f]) = .ok () ∧ s.cmdChecks [(12, f), (16, f), (20, f)] (cmdKind [f, f, f]) = .ok () :=
  ⟨issues rfl, rfl, rfl, by decide, rfl, by decide, by decide, by decide, rfl, rfl⟩

set_option maxRecDepth 50000 in
/-- R237: one slab of `MMA` on BF16 tiles of ones in row 0 and column 0 adds 1 to bank element (0, 0). -/
theorem test_mma :
    let one3 : Tile := { shape := 0x10808, elems := [(0, 0x3F80)], scales := [], poison := none }
    let s0 := formats table (one cube .X { tiled with tiles := [(3, one3), (4, one3)] })
    let s := s0.setCore cube { s0.core cube with lease := .held }
    (match exec (.mma 12 16) s with
      | .next t => decide (tget 0 t.tm.bank 0 = 0x3F800000) && decide (tget 0 t.tm.bank 1 = 0) && decide ((t.core cube).leaseN = 1)
      | _ => false) = true := by decide

/-- A transfer of tile 0 from an address of span 0. -/
def xfer (store : Bool) : Xfer := { store := store, ta := 0, base := 0x1000000000000000, lay := 0x0020070000000020, tag := 0, pc := 0, places := [] }

set_option maxRecDepth 8000 in
theorem witness_transfers_and_lease :
    (let s := one cube .A { tiled with a := { tiled.a with regs := [(1, 0x1000000000000000), (2, 0x0020070000000020)] } };
      s.Issues .A false ∧ tileDir 0 ≠ 3 ∧ s.srcOk 1 = true ∧ s.srcOk 2 = true ∧ s.tm.tq.length < 64 ∧
      ∃ x y u, s.Reads2 1 2 x y u ∧ layOk y = true ∧ vecSpace x = true ∧ u.checkSpace u.me x x 0 = .ok () ∧ x.toNat % 4 = 0 ∧
        layPitch y % 4 = 0 ∧ (∃ v, u.checkLines u.me x y .read (List.range (layLines y)) = .ok v) ∧
        ∃ v, u.checkLines u.me x y .write (List.range (layLines y)) = .ok v) ∧
    (let s := aim (one cube .X { tiled with tq := [xfer false], x := { tiled.x with span := 1 } }) cube 0;
      let t := s.team cube;
      t.tq[0]? = some (xfer false) ∧ (xfer false).tag < t.x.span ∧
        ∃ w, (s.setTeam cube { t with tq := [] }).xferEffect cube (xfer false) = .ok w) ∧
    (let s := aim (one cube .X tiled) cube 0;
      let u := s.setCore cube { s.core cube with lease := .want };
      Config.kindAt s.ev.site = .cub ∧ (∀ j < 4, (u.core ⟨11, j⟩).lease ≠ .held) ∧ (u.core ⟨11, 0⟩).lease = .want ∧
        ((u.die 11).lastHold + 1 + 0) % 4 = 0) ∧
    (let s := aim (one cube .X tiled) cube 0;
      let k := s.core cube;
      let u : State := { s.setCore cube { k with lease := .held, leaseN := 16 } with cyc := 4096 };
      u.leaseHolder 11 = some 0 ∧ (u.core ⟨11, 0⟩).leaseN ≥ 16 ∧ (u.core ⟨11, 0⟩).leaseU + 1024 ≤ u.cyc) := by
  refine ⟨⟨issues rfl, by decide, rfl, rfl, by decide, _, _, _, ⟨rfl, _, rfl, rfl⟩, by decide, by decide, rfl, by decide, by decide, ⟨_, rfl⟩, ⟨_, rfl⟩⟩,
    ⟨rfl, by decide, ⟨_, rfl⟩⟩, ⟨rfl, by decide, rfl, by decide⟩, ⟨rfl, by decide, by decide⟩⟩

/-- A MEM team whose pages all map to themselves in stack 0, which fold 0's window holds: two page pointers (1, 2) and the count 1 (3). -/
def rowed : State :=
  let s := one mem .X { owned with x := { owned.x with regs := [(1, 0x10000), (2, 0x20000), (3, 1), (4, 64)] } }
  s.setDie 0 { s.die 0 with
    window := [(0, (0, 1))],
    tlb := [{ asid := 1, glob := true, va := 0, size := 2 ^ 30, pa := 0, r := true, w := true, nc := false, ms := false, d := true, pte := 0 }] }

theorem witness_rows :
    let s := rowed
    s.Issues .X false ∧ s.srcOk 1 = true ∧ s.srcOk 3 = true ∧ regOk 2 = true ∧ s.rowSpace 0x10000 = .ok () ∧ pageRange 0x10000 1 = .ok () ∧
    s.Reads2 1 3 0x10000 1 s ∧ s.Reads2 1 4 0x10000 64 s ∧
    (∃ l q v, s.rowPages 0x10000 1 .write = .ok (l, q) ∧ needTier l = .ok () ∧ q.needFree l = .ok () ∧ q.eachPart State.zeroRow l = .ok v) ∧
    (∃ l q v, s.rowPages 0x10000 1 .mapped = .ok (l, q) ∧ q.needFree l = .ok () ∧
      q.eachPart (fun s _ pa _ =>
        .ok (if (0 : BitVec 3) = 0 then (s.backPage (pa / 65536)).dropPage (pa / 65536) else s.backPage (pa / 65536))) l = .ok v) ∧
    (s.reg 2 = 0x20000 ∧ overlaps 0x20000 65536 0x10000 65536 = false ∧ ∃ l l' q' v, s.copyPages 0x20000 0x10000 1 = .ok (l, l', q') ∧
      needTier (l ++ l') = .ok () ∧ q'.needFree (l ++ l') = .ok () ∧ q'.copyRows l l' = .ok v) ∧
    (∃ l q v, s.rowParts .write (rangeParts 0x10000 64 2) = .ok (l, q) ∧ q.needFree l = .ok () ∧
      q.eachPart (fun s ea pa n => s.fillPart 0x20000 ea pa n) l = .ok v) ∧
    Memory.wf s.mem = true ∧ (∃ h v, s.atStack s.me 0x10000 0x10000 = .ok h ∧ s.zeroRow 0x10000 0x10000 65536 = .ok v) ∧
    -- an encrypted stack
    (let u := s.setDie 0 { s.die 0 with stkcfg := 0x10 ||| (s.die 0).stkcfg };
      ∃ h v, u.atStack u.me 0x10000 0x10000 = .ok h ∧ u.zeroRow 0x10000 0x10000 65536 = .ok v) :=
  ⟨issues rfl, rfl, rfl, rfl, rfl, rfl, ⟨rfl, _, rfl, rfl⟩, ⟨rfl, _, rfl, rfl⟩, ⟨_, _, _, rfl, rfl, rfl, rfl⟩, ⟨_, _, _, rfl, rfl, rfl⟩,
    ⟨rfl, rfl, _, _, _, _, rfl, rfl, rfl, rfl⟩, ⟨_, _, _, rfl, rfl, rfl⟩, rfl, ⟨_, _, rfl, rfl⟩, _, _, rfl, rfl⟩

/-- The same with the tables of ASID 1 in memory, their leaf for the page 0x10000 in level 3, and with the window and a way to stack 0 at die
21, whose engine migrates. -/
def paged (l : Option (List Nat)) : State :=
  let r := rowed
  let s := paths [21, 20, 10] [0] (r.setDie 21 { r.die 21 with window := [(0, (0, 1))] })
  let u := s.setDie 0 { s.die 0 with atb := 0x8000 }
  let v : State := { u with mem := [(0x8008, 0x01), (0x800A, 0x04), (0x40000, 0x01), (0x40001, 0x10), (0x40002, 0x04), (0x41000, 0x01),
    (0x41001, 0x20), (0x41002, 0x04), (0x42000, 0x01), (0x42001, 0x30), (0x42002, 0x04), (0x43008, 0x87), (0x43009, 0x01), (0x4300A, 0x01)] }
  v.setCore mem { v.core mem with tlbi := l }

/-- The far tier: an extent at its first address, with a route to its die, in which the page 0x10000 stands, and one free frame in the device
pool of fold 0. -/
def farAt (s : State) : State :=
  let e : Extent := { port := 0, dpa := 0, base := farBase, len := 2 ^ 25, fold := 0, releasing := false, sweep := false, asked := 0, gone := false }
  let u := s.setDie 21 { s.die 21 with extents := [(0, e)], pools := [(0, (0x60000, 1))] }
  let v := paths [0, 1, 11] [21, 38] u
  let x := (v.die 0).tlb.map fun t => { t with pa := farBase }
  { v.setDie 0 { v.die 0 with tlb := x } with mem := cwrite (cwrite v.mem 0x60000 (leBytes 8 0x70000)) 0x4300D [0x10] }

theorem witness_rows_result :
    let s := rowed
    s.Issues .X false ∧ s.destOk 5 = true ∧ s.room false 5 = .ok () ∧ s.srcOk 1 = true ∧ s.Reads1 1 0x10000 s ∧ s.rowSpace 0x10000 = .ok () ∧
    (∃ l q n, s.rowParts .either [(0x10000, 1)] = .ok (l, q) ∧ q.needFree l = .ok () ∧ (l.map (·.2.1)).headD 0 < farBase ∧
      q.homeOf q.me.c.site q.me.fold ((l.map (·.2.1)).headD 0) = some n) ∧
    (let s := s.setTm { s.tm with id := s.tm.id.map fun i => { i with fw := true } };
      let s := s.setDie 0 { s.die 0 with window := [] };
      ∃ l q, s.rowParts .either [(0x10000, 1)] = .ok (l, q) ∧ q.needFree l = .ok () ∧ (l.map (·.2.1)).headD 0 < farBase ∧
        q.homeOf q.me.c.site q.me.fold ((l.map (·.2.1)).headD 0) = none) ∧
    (let s := farAt s;
      ∃ l q, s.rowParts .either [(0x10000, 1)] = .ok (l, q) ∧ q.needFree l = .ok () ∧ farBase ≤ (l.map (·.2.1)).headD 0) ∧
    (∃ l q h, s.rowPages 0x10000 1 .read = .ok (l, q) ∧ needTier l = .ok () ∧ q.needFree l = .ok () ∧
      q.atStack q.me ((l.map (·.2.1)).headD 0) 0x10000 = .ok h) ∧
    (∃ l q v e w, s.rowPages 0x10000 1 .read = .ok (l, q) ∧ q.eachPart (fun s ea pa _ => s.rowReach pa ea) l = .ok v ∧
      q.scrubPages (0, 0) l = .ok (e, w)) ∧
    (∃ l q bs v, s.rowParts .read (rangeParts 0x10000 4 2) = .ok (l, q) ∧ q.needFree l = .ok () ∧ q.readHome l = .ok (bs, v)) :=
  ⟨issues rfl, rfl, rfl, rfl, ⟨rfl, rfl⟩, rfl, ⟨_, _, _, rfl, rfl, by decide, rfl⟩, ⟨_, _, rfl, rfl, by decide, rfl⟩,
    ⟨_, _, rfl, rfl, by decide⟩, ⟨_, _, _, rfl, rfl, rfl, rfl⟩,
    ⟨_, _, _, _, _, rfl, rfl, rfl⟩, ⟨_, _, _, _, rfl, rfl, rfl⟩⟩

theorem okOf {α : Type} {x : Iss α} (h : x.toBool = true) : ∃ w, x = .ok w := by
  cases x with
  | ok w => exact ⟨w, rfl⟩
  | error e => exact absurd h (by simp [Except.toBool])

set_option maxRecDepth 200000 in
theorem witness_migration :
    (let s := farAt (paged none);
      s.Issues .X false ∧ (s.core s.cur).tlbi = none ∧ s.Reads1 1 0x10000 s ∧ s.rowSpace 0x10000 = .ok () ∧
      ∃ lf₀, s.leafOf s.me 0x10000 = .ok lf₀ ∧
      ∃ l q, lf₀.2.2.rowPages 0x10000 1 .read = .ok (l, q) ∧ (l.map (·.2.1)).headD 0 = farBase + 65536 ∧
      ∃ lf, q.leafOf s.me 0x10000 = .ok lf ∧ lf.2.2.needFree l = .ok () ∧
      ∃ v, lf.2.2.popFrame s.me (poolKey (s.me.fold.getD 0) false) 0x10000 = .ok (some 0x70000, v) ∧
      ∃ w, v.migStart s.me 0x10000 lf.1 lf.2.1 (farBase + 65536) 0x70000 = .ok w) ∧
    (let s := paged none;
      ∃ lf, s.leafOf s.me 0x10000 = .ok lf ∧ ∃ v, lf.2.2.popFrame s.me (poolKey (s.me.fold.getD 0) true) 0x10000 = .ok (none, v)) ∧
    (let m : Mig := { core := mem, old := 1, new := 2 };
      let s : State := { paged (some []) with migrate := [m] };
      (s.core s.cur).tlbi = some [] ∧ ∃ lf, s.leafOf s.me 0x10000 = .ok lf ∧ (lf.2.2.migrate.find? fun m => m.core == s.cur) = some m ∧
        ∃ v, lf.2.2.migEnd s.me (poolKey (s.me.fold.getD 0) false) 0x10000 m = .ok v) := by
  refine ⟨⟨issues rfl, rfl, ⟨rfl, rfl⟩, rfl, _, rfl, _, _, rfl, rfl, _, rfl, rfl, _, rfl, okOf ?_⟩, ⟨_, rfl, _, rfl⟩, ⟨rfl, _, rfl, rfl, _, rfl⟩⟩
  decide +kernel

/-- A fault record with suspension 0. -/
def report : Record :=
  { addr := 0x1000, node := 1, inst := 0, time := 5, code := .PAGE, strand := 0, site := 23, core := 0, pc := 7, held := false, susp := true,
    aux := 3, handle := some 0 }

/-- A QCB of fold 0, unmapped, with a ring of 16 packets at 0x100000 and a header at 0x8000. -/
def queue : Qcb := { Qcb.reset with base := 0x100000, hdr := 0x8000, log2 := 4, st := 1 }

/-- A node slot of graph 0. -/
def node (st : NodeSt) : Node := { Node.reset with used := true, pending := 2, count := 4, st := st }

/-- An away team of node slot 1. -/
def gone (h : Option Nat) : Away := { team := owned, from_ := vec, conds := [], ready := false, handle := h, dead := false, fresh := false }

/-- Drover 0 with a buffer, three slots in use, three nodes of one loaded graph, suspensions and a fault record; pages of drover dies map to
themselves in stack 0. -/
def manned (s : State) : State :=
  let d := s.drv 0
  let slot := fun (k : SlotSt) => { HwSlot.reset with st := k, qcb := 5, copy := queue }
  let u := s.setDrv 0 { d with
    bufs := [(3, buffer)], slots := [(0, slot .loaded), (1, slot .serving), (2, slot .stopped)], qcbs := [(5, queue), (6, queue)],
    nodes := [(1, node .waiting), (2, node .idle), (3, node .running)],
    graphs := [(0, { nodes := [1, 2, 3], bufs := [], mask := 1, asids := [(0, 1)], launches := [], base := 0, size := 0 })],
    folds := [(0, { FoldDesc.reset with sites := 0xFFFFFFFFFFFFFFF, hq0 := 4, acnt := 8, abase := 1, en := true })],
    pools := [(0, [(0x100, 16)])],
    susps := [(0, { gen := 1, live := true, copy := false, mayResume := true }), (1, { gen := 1, live := true, copy := true, mayResume := true }),
      (2, { gen := 1, live := true, copy := false, mayResume := false })],
    away := [gone (some 0)], faultQ := [report] }
  (u.setDie 0 { u.die 0 with routes := [(10, 0x86)] }).setDie 10 { u.die 10 with
    window := [(0, (0, 1))], routes := [(0, 0x80)],
    tlb := [{ asid := 1, glob := true, va := 0, size := 2 ^ 30, pa := 0, r := true, w := true, nc := false, ms := false, d := true, pte := 0 }] }

/-- A firmware strand whose g1 and g2 hold two words. -/
def fw (x y : W64) : State := manned (one drover .X { owned with x := { owned.x with regs := [(1, x), (2, y)] } })

set_option maxRecDepth 20000 in
theorem witness_firmware_one :
    (let s := fw 3 0;
      s.Issues .X false ∧ s.destOk 5 = true ∧ s.srcOk 1 = true ∧ s.room false 5 = .ok () ∧ s.Reads1 1 3 s ∧
      s.myDrv = 0 ∧ s.bufOf 9 = none ∧ s.bufOf 3 = some (0, 3) ∧ s.bufRunning (s.buf 0 3) = false ∧ (s.slot 0 0).st = .loaded ∧
      (s.slot 0 1).st = .serving ∧ (s.slot 0 2).st = .stopped ∧ (s.slot 0 3).st = .free ∧ s.nodeOf 9 = none ∧ s.nodeOf 1 = some (0, 1) ∧
      (s.node 0 1).st = .waiting ∧ (s.node 0 2).st ≠ .waiting) ∧
    (let s := fw 2 0; ∃ b p, s.behind 0 (s.slot 0 2).copy = .ok (b, p)) ∧
    (let s := fw 0x4000 0;
      s.Reads1 1 0x4000 s ∧ ∃ pl p w, s.fwPlace 0x4000 32 .write = .ok (pl, p) ∧
        p.doStore s.me pl ((recordWords report).flatMap fun w => leBytes 8 w.toNat) 0x4000 = .ok w ∧ (s.drv 0).faultQ = [report]) ∧
    (let s := fw 0x4000 0;
      let u := s.setDrv 0 { s.drv 0 with faultQ := [] };
      ∃ pl p, u.fwPlace 0x4000 32 .write = .ok (pl, p)) ∧
    (let s := fw 0x100000000 0;
      (s.drv 0).liveHandle 0x200000000 = none ∧ (s.drv 0).liveHandle 0x100000000 = some 0 ∧ (s.drv 0).liveHandle 0x100000001 = some 1 ∧
      (s.drv 0).liveHandle 0x100000002 = some 2 ∧ s.suspAway 0 0 = some (0, gone (some 0)) ∧
      s.dieStays (gone (some 0)) = true ∧
      (s.setDrv 0 { s.drv 0 with folds := [(0, { FoldDesc.reset with sites := 1, en := true })] }).dieStays (gone (some 0)) = false) :=
  ⟨⟨issues rfl, rfl, rfl, rfl, ⟨rfl, rfl⟩, rfl, rfl, rfl, rfl, rfl, rfl, rfl, rfl, rfl, rfl, rfl, by decide⟩, ⟨_, _, rfl⟩, ⟨⟨rfl, rfl⟩, _, _, _, rfl, rfl, rfl⟩,
    ⟨_, _, rfl⟩, ⟨rfl, rfl, rfl, rfl, rfl, rfl, rfl⟩⟩

set_option maxRecDepth 20000 in
theorem witness_firmware_age_and_flock :
    (let s := fw 5 0; s.qcbCorrupt 0 (s.liveQ 0 5) = false ∧ s.qcbCorrupt 0 (s.liveQ 0 7) = true) ∧
    (let s := withFlock (fw 0x5C05 0) (flock1 [] []);
      flockForm 0x5C05 = true ∧ s.flockAt (flockSite 0x5C05) (flockEntry 0x5C05) = some (flock1 [] []) ∧ s.flockAt (flockSite 0x5C06) (flockEntry 0x5C06) = none) ∧
    flockForm 0x5D05 = false ∧ (flock1 [ownMember] []).members ≠ [] :=
  ⟨⟨rfl, rfl⟩, ⟨rfl, rfl, rfl⟩, rfl, by decide⟩

theorem range_filter_first (n : Nat) (p : Nat → Bool) (h : p 0 = true) (hn : n ≠ 0) : ((List.range n).filter p).take 1 = [0] := by
  cases n with
  | zero => exact absurd rfl hn
  | succ n => rw [List.range_succ_eq_map, List.filter_cons_of_pos h]; simp

/-- The first record of a drover is free. -/
theorem freeBufs_first (v : Drover) (h : (tget Buf.reset v.bufs 0).live = false) : freeBufs v 1 = [0] :=
  by unfold freeBufs; exact range_filter_first 65536 _ (by simp [h]) (by omega)

theorem newBuf_first : ∃ q, (fw 1 2).newBuf 0 1 0 1 0 3 = some q := by
  have h : freeBufs ((fw 1 2).drv 0) 1 = [0] := freeBufs_first _ rfl
  unfold State.newBuf
  rw [h]
  exact ⟨_, rfl⟩

set_option maxRecDepth 20000 in
theorem witness_firmware_two :
    (let s := fw 5 3;
      s.Issues .X false ∧ s.srcOk 1 = true ∧ s.srcOk 2 = true ∧ s.Reads2 1 2 5 3 s ∧
      ¬(4095 < (5 : Nat) ∨ s.qcbCorrupt 0 (s.qcb 0 5) = true ∨ (s.qcb 0 5).st = 0) ∧
      ¬(63 < (3 : Nat) ∨ (s.slot 0 3).st ≠ .free ∨ (s.qcb 0 6).st = 2 ∨ s.loaded 0 6 = true) ∧ s.loaded 0 5 = true ∧
      ¬(s.fold 0 (s.qcb 0 6).fold.toNat).hqShare 0 ≤ s.foldSlots 0 (s.qcb 0 6).fold.toNat ∧ s.qcbCorrupt 0 (s.liveQ 0 5) = false) ∧
    (let s := fw 23 0; hasFlocks 23 = true ∧ (s.fold 0 0).sites.getLsbD 23 = true ∧ tfree (s.die 23).flocks 256 = some 0 ∧ hasFlocks 10 = false) ∧
    (let s := fw 0 0; s.causes 0 = 0 ∧ s.causes 2 ≠ 0 ∧ (s.core s.cur).swait = none ∧
      swaitLate { start := 0, mask := 2, limit := 5, woken := false } 5 = true ∧ swaitLate { start := 0, mask := 2, limit := 5, woken := false } 4 = false) ∧
    (let s := fw 5 0x4000;
      ∃ pl p bs q, s.fwPlace 0x4000 64 .write = .ok (pl, p) ∧ (s.liveQ 0 5).st = 1 ∧
        p.askRead (s.queueWho 0 (s.liveQ 0 5)) (packetAddr (s.liveQ 0 5)) 4 4 = .ok (bs, q) ∧ leNat bs < 2 ^ 24) ∧
    (let s : State := { fw 5 0x4000 with mem := [(0x100003, 5)] };
      ∃ pl p bs q z w, s.fwPlace 0x4000 64 .write = .ok (pl, p) ∧
        p.askRead (s.queueWho 0 (s.liveQ 0 5)) (packetAddr (s.liveQ 0 5)) 4 4 = .ok (bs, q) ∧ 2 ^ 24 ≤ leNat bs ∧
        q.fetchPacket 5 (s.liveQ 0 5) pl 0x4000 = .ok (z, w)) ∧
    (let s : State := { fw 0x4000 5 with mem := [(0x4003, 5)] };
      ∃ pl p bs q z w, s.fwPlace 0x4000 64 .read = .ok (pl, p) ∧ p.doLoad s.me pl 64 0x4000 = .ok (bs, q) ∧
        malformed (s.liveQ 0 5) (bytesLanes 16 bs) = false ∧
        ∃ q', q.released s.me = .ok q' ∧ q'.dispatchImage 5 (s.liveQ 0 5) (bytesLanes 16 bs) = .ok (.ok (z, w))) ∧
    (let s := fw 0x4000 5;
      ∃ pl p bs q k, s.fwPlace 0x4000 64 .read = .ok (pl, p) ∧ p.doLoad s.me pl 64 0x4000 = .ok (bs, q) ∧
        malformed (s.liveQ 0 5) (bytesLanes 16 bs) = false ∧
        ∃ q', q.released s.me = .ok q' ∧ q'.dispatchImage 5 (s.liveQ 0 5) (bytesLanes 16 bs) = .ok k) ∧
    (let s := fw 0 0;
      s.atomFree = .ok () ∧ ∃ r lid w k w', s.released s.me = .ok r ∧
        r.trigger 0 { LaunchReq.zero with gid := 0, patch := 0, asid := s.mgmt.fwasid } = .ok (.ok lid, w) ∧
        r.trigger 0 { LaunchReq.zero with gid := 9, patch := 0, asid := s.mgmt.fwasid } = .ok (.error k, w')) ∧
    (let s := fw 1 2; (s.node 0 1).used = true ∧ (s.node 0 9).used = false ∧ (s.node 0 3).st = .running ∧ tget 0 (s.node 0 1).slots 0 = 0 ∧
      ∃ q, s.newBuf 0 1 0 1 0 3 = some q) := by
  refine ⟨⟨issues rfl, rfl, rfl, ⟨rfl, fw 5 3, rfl, rfl⟩, by decide, by decide, rfl, by decide, rfl⟩, ⟨rfl, rfl, rfl, rfl⟩, ⟨rfl, by decide, rfl, rfl, rfl⟩, ⟨_, _, _, _, rfl, rfl, rfl, by decide⟩,
    ⟨_, _, _, _, _, _, rfl, rfl, by decide, rfl⟩, ⟨_, _, _, _, _, _, rfl, rfl, by decide, _, rfl, rfl⟩, ⟨_, _, _, _, _, rfl, rfl, by decide, _, rfl, rfl⟩,
    ⟨rfl, _, _, _, _, _, rfl, rfl, rfl⟩, ⟨rfl, rfl, rfl, rfl, newBuf_first⟩⟩

/-- A core of which one strand stands at a word. -/
def atWord (c : CoreId) (σ : Strand) (t : TeamSt) (w : W32) : State :=
  let s := aim (one c σ t) c 0
  let k := s.core c
  let u := s.setCore c { k with active := { k.active with st := .active, text := [(0, w)] } }
  { u with ev := { u.ev with strand := some σ } }

set_option maxRecDepth 8000 in
theorem witness_strand_steps :
    (let l : Loop := { lv := 0, start := 1, last := 4, count := 2, index := 0, inst := 1 };
      let s := aim (one vec .C { team with c := { team.c with pc := 5, org := some 4, loops := [l], hold := .stall } }) vec 0;
      let t := s.team vec;
      s.canIssue vec .C = true ∧ endedLoop (s.text vec) .C (t.str .C) = some l ∧ (t.str .C).hold = .stall ∧ slipFree t .C = true) ∧
    (let s := atWord vec .C { team with c := { team.c with hold := .stall } } 0xCDC00010;
      endedLoop (s.text vec) .C ((s.team vec).str .C) = none ∧ s.fetch vec .C = .word 0 0xCDC00010 ∧ wordTag 0xCDC00010 = .W) ∧
    (let s := atWord vec .C { team with c := { team.c with waitV := true } } 0x0F410005;
      ∃ u, s.wordOf vec .C = some (.waitt .C 1 5, u) ∧ u.st.waitV = true ∧ u.st.waitT ≤ u.nsAt u.cur.site) ∧
    (let s0 := atWord vec .C owned 0x13010200;
      let x : Waiter := { off := 64, full := true, take := false, datum := none, core := 0, strand := .C, team := 0, swapped := false, polled := true };
      let s := s0.setCluster 23 0 { Cluster.fresh with waiters := [x] };
      ∃ u, s.wordOf vec .C = some (.ldf .C false 2 1 0 0, u) ∧ (u.myCluster.waiters.any fun x => u.mine x && x.polled) = true) ∧
    (let s0 := atWord drover .X owned 0xA0828210;
      let x : Swait := { start := 0, mask := 2, limit := 5, woken := false };
      let s : State := { s0.setCore drover { s0.core drover with swait := some x } with up := 5 * 65536 };
      (∃ u, s.wordOf drover .X = some (.swait false 5 1 2, u)) ∧ (s.core drover).swait = some x ∧ swaitLate x s.runNs = true) := by
  refine ⟨⟨rfl, rfl, rfl, rfl⟩, ⟨rfl, rfl, rfl⟩, ⟨_, rfl, rfl, Nat.zero_le _⟩, ⟨_, rfl, rfl⟩, ⟨⟨_, rfl⟩, rfl, by decide⟩⟩

/-- A team that has retired all its words. -/
def finished : TeamSt :=
  let t := owned
  { t with c := { t.c with exited := true }, a := { t.a with exited := true }, x := { t.x with exited := true } }

set_option maxRecDepth 8000 in
theorem witness_team_steps :
    (let s := aim (one vec .C owned) vec 0;
      let k := s.core vec;
      let shadow := fun (st : PlaneSt) => s.setCore vec { k with run := false, shadow := { Plane.reset with st := st, team := some owned } };
      ((shadow .loading).core vec).shadow.st = .loading ∧ ((shadow .ready).core vec).run = false ∧ ((shadow .ready).core vec).shadow.pre = none ∧
      ((shadow .ready).core vec).shadow.team = some owned ∧ owned.preNow = false ∧ k.leave = none ∧ coreCls vec ≠ .drover ∧ drained finished = true ∧
      finished.serr.getLsbD 31 = false ∧ drained { finished with serr := 0x80000003 } = true ∧ begunExit finished = true ∧ begunExit owned = false ∧
      phaseHeld owned = false ∧ phaseHeld (phased none false) = true ∧ begunExit (phased none false) = false) ∧
    (let s := aim (one vec .C { owned with waitth := 4 }) vec 0;
      let u : State := { s.setCore vec { s.core vec with waitAt := some 0 } with cyc := 4 };
      (u.core vec).waitAt ≠ none ∧ (u.core vec).team.waitth.toNat ≤ waitCount (u.core vec) u.cyc) ∧
    (let s := aim (one vec .C owned) vec 0;
      let u := s.setCore vec { s.core vec with leave := some .preempt };
      (u.core vec).leave = some .preempt ∧ (∀ τ p e x, Leave.preempt ≠ .entry τ p e x) ∧ phaseGoesOn (u.core vec) = false ∧ saveReady ((u.drainTeam vec).core vec) = true) ∧
    -- a DROVER core that was asked to enter its handler, with nothing queued and with a store that has to wait
    (let e : StoreEnt := { strand := .C, place := .mem farBase .home, ea := 0, size := 1, data := some [1], fromSdq := false, pc := 0, mark := 0,
                           id := 0, again := false, add := false };
      let s := fun l : List StoreEnt => farOf true [10, 11] (one drover .X { team with sq := l });
      let u := fun l => (s l).setCore drover { (s l).core drover with leave := some (.entry .X 1 .TRAP 9) };
      ((u []).core drover).leave = some (.entry .X 1 .TRAP 9) ∧ (u []).canEnter drover = true ∧ (u [e]).canEnter drover = false) ∧
    (let s := aim (one vec .C { owned with phase := some { base := 0, last := none, ended := false, atEnd := false } }) vec 0;
      saveReady ((s.drainTeam vec).core vec) = false) ∧
    (let s := aim (manned (one vec .C owned)) ⟨0, 0⟩ 0;
      let u := s.setDrv 0 { s.drv 0 with away := [gone none, { gone none with dead := true }, { gone none with conds := [.board, .time 0] }] };
      u.awayAt u.ev.site 0 = some (gone none) ∧ (gone none).handle = none ∧ (gone none).conds = [] ∧ (gone none).dead = false ∧
      u.awayAt u.ev.site 1 = some { gone none with dead := true } ∧ (gone none).team.board = [] ∧
      u.awayAt u.ev.site 2 = some { gone none with conds := [.board, .time 0] } ∧ WaitCond.time 0 ∈ [WaitCond.board, .time 0] ∧ 0 ≤ (u.nsAt (gone none).from_.site).toNat) := by
  refine ⟨⟨rfl, rfl, rfl, rfl, rfl, rfl, by decide, rfl, by decide, rfl, rfl, rfl, rfl, rfl, rfl⟩, ⟨by decide, by decide⟩, ⟨rfl, fun _ _ _ _ h => Leave.noConfusion h, rfl, rfl⟩, ⟨rfl, rfl, rfl⟩, rfl,
    ⟨rfl, rfl, rfl, rfl, rfl, rfl, rfl, by decide, Nat.zero_le _⟩⟩

/-- A launch of graph 0 that has not started. -/
def launch (t : Option Nat) : Launch :=
  { req := { LaunchReq.zero with time := t }, patches := [], lid := 7, started := false, startAt := 0, arrived := 0, patched := true, reserved := [],
    commit := none }

/-- A graph of nodes 1 and 2 in some folds with a launch. -/
def graph (mask : Nat) (l : Launch) : Graph :=
  { nodes := [1, 2], bufs := [], mask := mask, asids := [(0, 1)], launches := [l], base := 0, size := 0 }

/-- Drover 0 with that graph, its nodes in some state, on a package whose VEC die 23 is in service. -/
def loaded (g : Graph) (st : NodeSt) : State :=
  let s := manned (one drover .X owned)
  let n : Node := { node st with cls := 2 }
  let u := s.setDrv 0 { s.drv 0 with graphs := [(0, g)], nodes := [(1, n), (2, n)], away := [], disc := [(23, 0x0001000400000000)] }
  aim u ⟨0, 0⟩ 0

set_option maxRecDepth 20000 in
theorem witness_launch_steps :
    (let s : State := { loaded (graph 1 (launch none)) .ready with ev := { EvArg.zero with n := 2 } };
      (∃ e, (s.chooseHeads 0 2 []).nextNode 0 2 [] = some e ∧ ∃ u, (s.chooseHeads 0 2 []).dispatchNext 0 e.1 (e.2.variant.getD false) = some u) ∧
      let v := s.setDrv 0 { s.drv 0 with bpool := [], pools := [] };
      ∃ e, (v.chooseHeads 0 2 []).nextNode 0 2 [] = some e ∧ (v.chooseHeads 0 2 []).dispatchNext 0 e.1 (e.2.variant.getD false) = none) ∧
    (let s0 := loaded (graph 1 (launch none)) .ready;
      let s := s0.setDrv 0 { s0.drv 0 with nodes := [(1, { node .ready with cls := 2 })] };
      (∃ e, s.readyNodes 0 2 = [e] ∧ e.2.variant = none ∧ s.foldOn 0 e.2.fold = true) ∧ ∃ x, s.chooseText 0 (s.node 0 1) = some x) ∧
    (let s0 := loaded (graph 1 (launch none)) .ready;
      let s : State := { s0.setDrv 0 { s0.drv 0 with nodes := [(1, { node .ready with cls := 7 })] } with ev := { EvArg.zero with n := 0 } };
      (s.chooseHeads 0 0 []).nextNode 0 0 [] = none ∧ (s.node 0 1).variant = none ∧ s.chooseText 0 (s.node 0 1) = none) ∧
    (let s := loaded (graph 1 (launch none)) .running;
      let u := s.setDrv 0 { s.drv 0 with doneQ := [(1, false)] };
      (u.drv 0).doneQ = [(1, false)] ∧ (u.node 0 1).count = 4 ∧ (u.node 0 1).compl = 0) ∧
    (let s := loaded (graph 1 (launch none)) .idle; s.nextLaunch 0 0 = some (graph 1 (launch none), launch none) ∧ isGang (graph 1 (launch none)) = false) ∧
    (let s := loaded (graph 1 (launch (some 0))) .idle;
      s.nextLaunch 0 0 = some (graph 1 (launch (some 0)), launch (some 0)) ∧ 0 ≤ (s.nsAt (Config.drvSite 0)).toNat ∧ ∃ u, s.preplaceNext 0 (graph 1 (launch (some 0))) 7 none = some u) ∧
    (let l := { launch none with reserved := [0, 1] };
      let g := graph 3 l;
      let s : State := { loaded g .idle with up := 100000 * 65536 };
      s.nextLaunch 0 0 = some (g, l) ∧ isGang g = true ∧ l.commit = none ∧ (∀ f ∈ foldsOf g, f ∈ l.reserved) ∧ s.runNs ≤ l.arrived + 100000) ∧
    (let g := graph 3 (launch none);
      let s : State := { loaded g .idle with up := 100001 * 65536 };
      (launch none).arrived + 100000 < s.runNs ∧ ∃ u, s.rollBack 0 0 g (launch none) = .ok u) ∧
    (let l := { launch none with commit := some 5 };
      let s : State := { loaded (graph 3 l) .idle with ns := 5 };
      s.nextLaunch 0 0 = some (graph 3 l, l) ∧ 5 ≤ (s.nsAt (Config.drvSite 0)).toNat) ∧
    (let l := { launch none with started := true };
      let g := graph 1 l;
      let s := loaded g .done;
      s.graphAt 0 0 = some g ∧ l.started = true ∧ s.launchTeams 0 7 = false ∧ (∀ n ∈ g.nodes, (s.node 0 n).st = .done) ∧
      ∃ u, s.endLaunch 0 0 0 = .ok u) := by
  refine ⟨⟨⟨_, rfl, _, rfl⟩, _, rfl, rfl⟩, ⟨⟨_, rfl, rfl, rfl⟩, _, rfl⟩, ⟨rfl, rfl, rfl⟩, ⟨rfl, rfl, rfl⟩, ⟨rfl, rfl⟩, ⟨rfl, Nat.zero_le _, ⟨_, rfl⟩⟩, ⟨rfl, rfl, rfl, by decide, by decide⟩, ⟨by decide, _, rfl⟩, ⟨rfl, by decide⟩,
    ⟨rfl, rfl, rfl, by decide, _, rfl⟩⟩

/-- Drover 0 whose slot 1 serves the queue, with a packet of a type at the read index. -/
def ringed (type : Byte) (b : Option (List W64 × W64)) : State :=
  let s := aim (manned (one drover .X owned)) ⟨0, 0⟩ 1
  let u := s.setSlot 0 1 { HwSlot.reset with st := .serving, qcb := 5, copy := queue, look := true, barrier := b }
  { u with mem := [(0x100003, type)] }

/-- What the packet steps ask for. -/
def Served (type : Byte) : Prop :=
  let s := ringed type none
  let w := s.queueWho 0 queue
  ∃ bs p bs' q u, (s.slot 0 1).st = .serving ∧ (s.slot 0 1).look = true ∧ (s.slot 0 1).barrier = none ∧
    s.askRead w (packetAddr queue) 4 4 = .ok (bs, p) ∧ pktType (BitVec.ofNat 32 (leNat bs)) = type.toNat ∧
    s.isChoice 0 1 (BitVec.ofNat 32 (leNat bs)) = true ∧ p.askRead w (packetAddr queue + 4) 60 4 = .ok (bs', q) ∧
    q.servePacket 0 1 (BitVec.ofNat 32 (leNat bs) :: bytesLanes 15 bs') = .ok u

set_option maxRecDepth 20000 in
theorem witness_packets : Served 1 ∧ Served 2 ∧ Served 3 ∧ Served 4 ∧ Served 5 ∧ Served 6 :=
  ⟨⟨_, _, _, _, _, rfl, rfl, rfl, rfl, by decide, rfl, rfl, rfl⟩, ⟨_, _, _, _, _, rfl, rfl, rfl, rfl, by decide, rfl, rfl, rfl⟩,
    ⟨_, _, _, _, _, rfl, rfl, rfl, rfl, by decide, rfl, rfl, rfl⟩, ⟨_, _, _, _, _, rfl, rfl, rfl, rfl, by decide, rfl, rfl, rfl⟩,
    ⟨_, _, _, _, _, rfl, rfl, rfl, rfl, by decide, rfl, rfl, rfl⟩, ⟨_, _, _, _, _, rfl, rfl, rfl, rfl, by decide, rfl, rfl, rfl⟩⟩

/-- A drover whose fold 0 has node slots, and of whose stack the frame that the buffer gets is in a state. -/
def uploading (f : FrameSt) : State :=
  let s := aim (manned (one drover .X owned)) ⟨0, 0⟩ 0
  let u := s.setDrv 0 { s.drv 0 with graphs := [], folds := tmap (fun _ (x : FoldDesc) => { x with slot0 := 1 }) (s.drv 0).folds }
  u.setDie 0 { u.die 0 with frames := [(0x100, f)] }

set_option maxRecDepth 20000 in
theorem witness_graph_steps :
    (let s := aim (manned (one drover .X owned)) ⟨0, 0⟩ 0;
      (∃ g u, s.graphAt 0 0 = some g ∧ g.launches = [] ∧ (s.endGraphBufs 0 g).graphUnmapped 0 g = true ∧ (s.endGraphBufs 0 g).returnTables 0 g = .ok u) ∧
        ∃ o u, s.triggerSignal 0 { LaunchReq.zero with gid := 9 } = .ok (o, u)) ∧
    -- writes that have to wait, for want of a frame
    (let s := uploading .zero;
      (∃ h, s.triggerSignal 0 { LaunchReq.zero with gid := 9, signal := 0x1000000, asid := 1 } = .error h) ∧
      let g : Graph := { nodes := [], bufs := [], mask := 1, asids := [(0, 1)], launches := [], base := 0, size := 0 };
      let u := s.setDrv 0 { s.drv 0 with graphs := [(0, g)], tables := [{ asid := 1, fold := 0, page := 0x101, at_ := 0x1000000 }] };
      u.graphAt 0 0 = some g ∧ (u.endGraphBufs 0 g).graphUnmapped 0 g = true ∧ ∃ h, (u.endGraphBufs 0 g).returnTables 0 g = .error h) ∧
    (let s := aim (manned (one drover .X owned)) ⟨0, 0⟩ 0;
      let x : Window := { asid := 1, fold := 0, buf := 3, pa := 0, len := 65536, users := [], ended := true, left := none };
      let u := s.setDrv 0 { s.drv 0 with wins := [x] };
      ∃ g, u.graphAt 0 0 = some g ∧ g.launches = [] ∧ (u.endGraphBufs 0 g).graphUnmapped 0 g = false) ∧
    (graph 1 (launch none)).launches ≠ [] ∧ (loaded (graph 1 (launch none)) .idle).graphAt 0 0 = some (graph 1 (launch none)) ∧
    (let l : List W64 := [0, 0, 0, 0];
      let s := ringed 3 (some (l, 0));
      ∃ m p q u, s.barrierMet (s.queueWho 0 queue) l 0 0 = .ok (m, p) ∧ m = 15 ∧ p.barrierSignal 0 1 0 = .ok q ∧ q.consumeSlot 0 1 queue = .ok u) ∧
    (let l : List W64 := [0x9000, 0, 0, 0];
      let s := ringed 3 (some (l, 0));
      ∃ m p, s.barrierMet (s.queueWho 0 queue) l 0 0 = .ok (m, p) ∧ m ≠ 15) ∧
    (let s := aim (manned (one drover .X owned)) ⟨0, 0⟩ 0;
      let u := fun (l : List Record) => s.setDrv 0 { s.drv 0 with waitRec := [report], faultQ := l };
      ((u []).drv 0).waitRec = [report] ∧ ((u []).drv 0).faultQ = [] ∧ ((u [report]).drv 0).faultQ ≠ [] ∧
      ((u [report]).drv 0).faultQ.length < 1024) ∧
    1024 ≤ (List.replicate 1024 report).length := by
  refine ⟨⟨⟨_, _, rfl, rfl, rfl, rfl⟩, _, _, rfl⟩, ⟨⟨_, rfl⟩, rfl, rfl, _, rfl⟩, ⟨_, rfl, rfl, rfl⟩, by decide, rfl, ⟨_, _, _, _, rfl, by decide, rfl, rfl⟩, ⟨_, _, rfl, by decide⟩, ⟨rfl, rfl, by decide, by decide⟩,
    by simp⟩

/-- An image of one node of class 2 in fold 0, with one word of text, and one buffer of 4 bytes with initial data (R369). -/
def image : List Byte :=
  let m := cwrite [] 0x100 (List.replicate 64 0xFF)
  let put := fun (m : List (Nat × Byte)) (e : Nat × Nat) => cwrite m e.1 (leBytes 8 e.2)
  cread ([(0x00, 0x0001000100000001), (0x08, 1), (0x10, 0x80), (0x18, 0xC0), (0x20, 0x100), (0x28, 0x1C0), (0x30, 0x140), (0x40, 0x1C4),
    (0x48, 0x200), (0x80, 0x20), (0x88, 1), (0x98, 0x1000001C0), (0xA8, 0x140), (0xB0, 0x100), (0xC0, 4), (0xD8, 4),
    (0x1C0, 0x04030201C0000000)].foldl put m) 0 0x200

theorem freeSlots_first (v : Drover) (h : (tget Node.reset v.nodes 0).used = false) : freeSlots v 1 = [0] :=
  by unfold freeSlots; exact range_filter_first 65536 _ (by simp [h]) (by omega)

theorem gmem_first (v : Drover) (n : Nat) (h : n ≤ Config.graphMemory) (hg : v.graphs = []) : gmemPlace v n = some 0 := by
  simp [gmemPlace, hg, h]

set_option maxRecDepth 200000 in
theorem witness_upload (h : 512 ≤ Config.graphMemory) :
    (∃ x, (uploading (.resident 5)).upload 0 image [] = .ok x) ∧ (uploading (.resident 5)).upload 0 [] [] = .error (.answer .refused) ∧
    ∃ k, (uploading .zero).upload 0 image [] = .error (.wait k) := by
  have h1 : ∀ f, freeSlots ((uploading f).drv 0) 1 = [0] := fun f => freeSlots_first _ rfl
  have h2 : ∀ f, freeBufs ((uploading f).drv 0) 1 = [0] := fun f => freeBufs_first _ rfl
  have h3 : (headerOf image).nodes = 1 := by decide
  have h4 : (headerOf image).bufs = 1 := by decide
  have h5 : (headerOf image).size = 512 := by decide
  have h6 : ∀ f, gmemPlace ((uploading f).drv 0) 512 = some 0 := fun f => gmem_first _ 512 h rfl
  refine ⟨?_, rfl, ?_⟩
  · unfold State.upload; dsimp only
    rw [h3, h4, h1, h2, h5, h6]
    exact ⟨_, rfl⟩
  · unfold State.upload; dsimp only
    rw [h3, h4, h1, h2, h5, h6]
    exact ⟨_, rfl⟩

/-- A die that reaches stack 0, which fold 0's window holds; the step acts for it in fold 0 and ASID 1. -/
def homed (site : Nat) (x : EvArg) : State :=
  let s := paths [23, 22, 21, 20, 10, 0] [0] (one vec .C owned)
  let d := fun (k : Nat) => { s.die k with window := [(0, (0, 1))] }
  let u := ((s.setDie 0 (d 0)).setDie 10 (d 10)).setDie 23 { d 23 with atb := 0x8000 }
  { u with ev := { x with site := site, fold := some 0 }, mem := (paged none).mem }

/-- The same with frame 1 of stack 0, which holds page 1, in a state of the frame map and no free frame where the pool is dry. -/
def framed (f : FrameSt) (dry : Bool) : State :=
  let s := homed 0 { EvArg.zero with n := 1 }
  s.setDie 0 { s.die 0 with frames := [(1, f)], freeFr := if dry then [] else [5] }

set_option maxRecDepth 20000 in
theorem witness_memory_steps :
    (let s := homed 23 { EvArg.zero with n := 1, m := 0x10000 };
      ((s.die 23).tlb.any fun x => tlbHit x s.evWho.asid 0x10000) = false ∧
        ∃ f, s.walk s.evWho (0x10000 % 2 ^ 52) .read 0 = .ok f ∧ (f.2.die 23).tlb ≠ [] ∧ (f.2.die 23).tlb.any (fun x => tlbHit x 1 0x10000) = true) ∧
    (let s := homed 23 { EvArg.zero with n := 64 };
      hasL2 23 = true ∧ (∃ u, s.l2Own s.evWho 23 64 false 0 = .ok u) ∧ ∃ bs u, s.l2Read s.evWho 23 64 0 = .ok (bs, u)) ∧
    (let s := homed 10 { EvArg.zero with n := 64 }; hasL2 s.evWho.c.site = false ∧ ∃ u, s.reachHome s.evWho (64 * 64) 0 = .ok u) ∧
    (let s := homed 23 { EvArg.zero with n := 64, op := .amo 0 };
      64 % atomSize (.amo 0) = 0 ∧ ∃ old u, s.doAtomic s.evWho (.mem 64 .l2) (.amo 0) 0 0 0 = .ok (old, u)) ∧
    (let s := homed 23 { EvArg.zero with n := 64, bytes := [1, 2] };
      s.ev.bytes ≠ [] ∧ s.ev.m + s.ev.bytes.length ≤ 64 ∧ ∃ u, s.cohWrite s.evWho .home (64 * 64) [1, 2] 0 = .ok u) ∧
    (let s := homed 23 { EvArg.zero with n := 64 }; ∃ bs u, s.cohRead s.evWho .home (64 * 64) 64 0 = .ok (bs, u)) ∧
    (let s := framed .zero true;
      ∃ h, s.atStack s.evWho (1 * 65536) 0 = .ok h ∧ (expandFrame (s.die h.1) h.2).isNone = true) ∧
    (let s := framed .zero false;
      ∃ h u, s.atStack s.evWho (1 * 65536) 0 = .ok h ∧ (expandFrame (s.die h.1) h.2).isNone = false ∧
        s.makeResident s.evWho h.1 h.2 (1 * 65536) 0 = .ok u) ∧
    (let s := homed 23 { EvArg.zero with target := .line 5 }; s.ev.target = .line 5 ∧ tget 0 s.latent 5 ≠ 2) ∧
    (let s := homed 23 { EvArg.zero with target := .cspWord 23 0 3 }; s.ev.flag = false ∧ 4 * 3 < Config.cspSize (Config.kindAt 23)) ∧
    (let s := homed 23 { EvArg.zero with target := .dspWord sparse.site 3 };
      s.ev.flag = false ∧ Config.kindAt sparse.site ≠ .cub ∧ 4 * 3 < Config.dspSize (Config.kindAt sparse.site)) ∧
    (let s := homed 23 { EvArg.zero with target := .counter 3 }; s.ev.target = .counter 3 ∧ s.ev.flag = false) ∧
    (let s := homed 23 { EvArg.zero with target := .l2Piece 23 9 };
      let p : Piece := { bytes := [], dirty := true, poison := false };
      (s.setPiece 23 9 p).piece 23 9 = some p ∧ (s.setPiece 23 9 { p with dirty := false }).piece 23 9 = some { p with dirty := false }) := by
  refine ⟨⟨rfl, ⟨_, rfl, by decide, by decide⟩⟩, ⟨rfl, ⟨_, rfl⟩, _, _, rfl⟩, ⟨rfl, _, rfl⟩, ⟨rfl, _, _, rfl⟩, ⟨by decide, by decide, _, rfl⟩, ⟨_, _, rfl⟩, ⟨_, rfl, rfl⟩,
    ⟨_, _, rfl, rfl, rfl⟩, ⟨rfl, by decide⟩, ⟨rfl, by decide⟩, ⟨rfl, by decide, by decide⟩, ⟨rfl, rfl⟩, ⟨rfl, rfl⟩⟩

/-- An extent of the first 32 MiB of the far tier. -/
def extent (rel sweep : Bool) : Extent :=
  { port := 0, dpa := 0, base := farBase, len := 2 ^ 25, fold := 0, releasing := rel, sweep := sweep, asked := 0, gone := false }

/-- A package whose FAR die 21 holds one extent of 32 MiB. -/
def extended (rel sweep : Bool) (ns : Nat) : State :=
  let s : State := { paths [23, 22, 21, 20, 19, 18, 17] [21] (one vec .C owned) with
    ev := { EvArg.zero with site := 21, k := farBase + 2 ^ 25, list := [2 ^ 25] }, up := ns * 65536 }
  s.setDie 21 { s.die 21 with extents := [(0, extent rel sweep)] }

/-- A package in operation, fold 0 enabled, its window in stack 0. -/
def running (x : EvArg) : State :=
  let s := paths [19, 18, 17, 16, 15, 14, 13, 12, 11, 10, 0, 20, 21, 22, 23, 24, 25, 26, 27, 28, 29] [0, 10] (manned (one drover .X owned))
  let f := Config.fabSite 0
  let u := (s.setDrv 0 { s.drv 0 with disc := [(10, 0x0001000000000000), (23, 0x0001000400000000)] }).setDie f { s.die f with
    window := [(0, (0, 1))], peers := [(7, 0x8000000100000001)], exports := [(0, (0, 16))] }
  { u with ev := x, mgmt := { u.mgmt with phase := 4 } }

set_option maxRecDepth 20000 in
theorem witness_extents :
    (let s := extended false false 0;
      let x : Extent := { extent false false with base := farBase + 2 ^ 25 };
      tfree (goneUnder x (s.die 21).extents) 256 = some 1 ∧ s.extentFits 21 x = true) ∧
    (∃ e, (extended false false 0).extentAt 21 0 = some e ∧ e.releasing = false) ∧
    (∃ e, (extended true false 10000000).extentAt 21 0 = some e ∧ e.releasing = true ∧ e.sweep = false ∧
      e.asked + 10000000 ≤ (extended true false 10000000).runNs) ∧
    (∃ e, (extended true true 0).extentAt 21 0 = some e ∧ e.releasing = true ∧ e.sweep = true) ∧
    Memory.wf (extended true true 0).mem = true ∧ (extended false false 0).ev.k ≠ 2 ∧
    (let s := extended false false 0;
      ∃ v, ({ s with lapse := none } : State).reachHome (s.who vec) farBase 0 = .ok v ∧
        ({ s with lapse := some (0, 0) } : State).lapse = some (0, 0)) ∧
    (let late := fun (k a : Nat) => ({ running EvArg.zero with lapse := some (k, a) } : State);
      let o := fun (k a : Nat) => ({ late k a with lapse := none } : State);
      (late 1 2).lapse = some (1, 2) ∧ (o 1 2).hostWay ((late 1 2).who vec) 0 = .ok () ∧
        (late 2 0).lapse = some (2, 0) ∧ (o 2 0).peerWay ((late 2 0).who vec) 7 0 = .ok () ∧
        (late 2 1).lapse = some (2, 1) ∧ (o 2 1).peerWay ((late 2 1).who vec) 7 0 = .ok ()) :=
  ⟨⟨rfl, by decide⟩, ⟨_, rfl, rfl⟩, ⟨_, rfl, rfl, rfl, by decide⟩, ⟨_, rfl, rfl, rfl⟩, rfl, by decide, ⟨_, rfl, rfl⟩, ⟨rfl, rfl, rfl, rfl, rfl, rfl⟩⟩

/-- The same with a link in some condition. -/
def linked (l : Link) (x : EvArg) : State := (running { x with site := 23 }).setLink 23 0 l

set_option maxRecDepth 200000 in
theorem witness_links_host_peers :
    (let s := linked Link.reset { EvArg.zero with list := [0, 0, 6, 3] }; ((s.give 23 0 s.ev.list).link 23 0).maySend = true) ∧
    (let s := linked { Link.reset with down := some 0 } { EvArg.zero with list := [0, 0, 6, 3] };
      ((s.give 23 0 s.ev.list).link 23 0).maySend = false) ∧
    ((linked Link.reset EvArg.zero).link 23 0).down = none ∧
    (let l := (linked { Link.reset with replayRq := some 0 } EvArg.zero).link 23 0; l.replayRq = some 0 ∧ l.down = none ∧ l.replays < 8) ∧
    (let l := (linked { Link.reset with replays := 8 } EvArg.zero).link 23 0; l.down = none ∧ 8 ≤ l.replays) ∧
    (let s : Bool → State := fun b => { linked { Link.reset with down := some 0, told := b } EvArg.zero with up := 1000000 * 65536 };
      ((s false).link 23 0).down = some 0 ∧ (s false).heldDown 23 0 = false ∧
        ({ s false with mgmt := { (s false).mgmt with record := [(23, 1, 0)] } } : State).heldDown 23 0 = true ∧ 0 + 1000000 ≤ (s false).runNs ∧ ((s false).link 23 0).told = false ∧ ((s true).link 23 0).told = true) ∧
    (let s := running { EvArg.zero with n := 2 ^ 36 - 8, req := .read 8 };
      s.ev.fold = none ∧ s.hostUp = true ∧ ∃ k ∈ linesOf (s.aperture (2 ^ 36 - 8)) 8, s.openFold (k * 64) = none) ∧
    (let s := running { EvArg.zero with n := 64, req := .read 8 };
      64 + 8 ≤ 2 ^ 36 ∧ (∀ k ∈ linesOf (s.aperture 64) 8, s.openFold (k * 64) ≠ none) ∧
      ∃ r, performReq (.read 8) s (fun u k => u.homeBytes (s.aperture 64) k (k / 64 + 2)) (fun u d => u.homePut (s.aperture 64) d (d.length / 64 + 2)) = .ok r) ∧
    (pcieAtomic (.amo 0) = true ∧ 64 % atomSize (.amo 0) = 0) ∧
    (running EvArg.zero).siteStatus 0 (Config.drvSite 0) ≠ 3 ∧
    (let s := running { EvArg.zero with n := 7 };
      let pl : Place := .mem (s.exportPa 0 0 0) .home;
      s.peerAccepts 0 7 0 0 0 8 = true ∧ s.peerAccepts 0 7 0 1 0 8 = false ∧ peerNum s.ev = tget 0 s.peerNext (peerKey s.ev) ∧
        (∃ r, performReq (.read 8) s (fun u n => u.doLoad (peerWho 0 0) pl n 0) (fun u d => u.doStore (peerWho 0 0) pl d 0) = .ok r)) ∧
    -- a request of a peer that is performed already, and one that comes early
    (let s : State := { running { EvArg.zero with n := 7 } with peerNext := [(7 * 64 * 3, 1)] }; peerNum s.ev < tget 0 s.peerNext (peerKey s.ev)) ∧
    (let s := running { EvArg.zero with n := 7, list := [0, 0, 1] }; tget 0 s.peerNext (peerKey s.ev) < peerNum s.ev) ∧
    -- a request for a peer: on a port of the die that holds it, on one of the other fabric die, and without a port
    (let s := running { EvArg.zero with n := 7 };
      let f := Config.fabSite 0;
      let u := s.setDie f { s.die f with peers := [(7, 0x8000010000000001)], routes := [(Config.fabSite 1, 0x86)] };
      (newPacket s.ev.m s.evFold (s.ev.k + 1) 60 64 f none none (some 7)).wf = true ∧ (7 : Nat) ≠ (s.die f).pkgid.toNat ∧
        lowPort (fieldW (tget 0 (s.die f).peers 7) 47 32) = some 0 ∧ Config.fabSite (0 / 8) = f ∧
        lowPort (fieldW (tget 0 (u.die f).peers 7) 47 32) = some 8 ∧ Config.fabSite (8 / 8) ≠ f ∧ u.portTo f (Config.fabSite (8 / 8)) = some 6 ∧
        lowPort (fieldW (tget 0 (s.die f).peers 8) 47 32) = none) ∧
    (let s := running { EvArg.zero with n := 0x3900, m := 8, word := 1 };
      regAccess 0x3900 8 = true ∧ s.ev.fold = none ∧ ∃ n u, regAccess n 8 = true ∧ s.mmioWrite 0 n (leBytes 8 1) = some u) ∧
    (let s := running { EvArg.zero with n := 64, fold := some 1 }; s.ev.fold = some 1 ∧ s.hostUp = true ∧ s.ev.n % 8 = 0) := by
  refine ⟨by decide, by decide, rfl, ⟨rfl, rfl, by decide⟩, ⟨rfl, by decide⟩, ⟨rfl, rfl, rfl, by decide, rfl, rfl⟩, ⟨rfl, rfl, (2 ^ 36 - 8) / 64, by decide, rfl⟩,
    ⟨by decide, by decide, _, rfl⟩, ⟨rfl, rfl⟩, by decide, ⟨by decide, by decide, rfl, ⟨_, rfl⟩⟩, by decide, by decide,
    ⟨rfl, by decide, rfl, rfl, rfl, by decide, rfl, rfl⟩, ⟨rfl, rfl, ⟨0x3900, _, rfl, rfl⟩⟩, ⟨rfl, rfl, rfl⟩⟩

/-- A package in operation with a running VEC team, at a time. -/
def inUse (x : EvArg) (ns : Nat) : State :=
  let s := running x
  { s.setCore vec { CoreSt.reset with run := true, team := owned } with up := ns * 65536 }

set_option maxRecDepth 200000 in
theorem witness_resets :
    (let s := inUse { EvArg.zero with site := 23, n := 0 } 40000;
      let u := s.setCluster 23 0 { Cluster.fresh with reset := some 0 };
      (u.cluster 23 0).reset = some 0 ∧ (u.cluster 23 0).clearing = false ∧ 0 + 40000 ≤ u.runNs ∧ ({ u with up := 1 } : State).runNs < 0 + 40000 ∧
        ((u.setCluster 23 0 { Cluster.fresh with reset := some 0, clearing := true }).cluster 23 0).clearing = true) ∧
    (let s := inUse { EvArg.zero with word := 0x5A005C01 } 0;
      s.rstActs 1 = true ∧ bits 0x5A005C01 15 10 = 23 ∧ bits 0x5A005C01 9 6 = 0 ∧ s.siteLive 23 = true ∧ 0 < clustersOf 23 ∧ s.inReset 23 0 = false ∧
      s.siteLive 24 = false ∧ (s.setCluster 23 0 { Cluster.fresh with reset := some 0 }).inReset 23 0 = true) ∧
    (inUse { EvArg.zero with word := 0x5A000002 } 0).rstActs 2 = true ∧ (inUse { EvArg.zero with word := 0x5A000003 } 0).rstActs 3 = true ∧
    (let s := inUse { EvArg.zero with word := 0x5A002804 } 0;
      s.rstActs 4 = true ∧ bits 0x5A002804 15 10 = 10 ∧ Config.kindAt 10 = .drv ∧ s.siteLive 10 = true) ∧
    (let s : State := { State.reset with ev := { EvArg.zero with bytes := [1] } };
      s.rom.mgmt.phase = 1 ∧ s.rom.mgmt.brownout = false ∧ s.ev.n + s.ev.bytes.length ≤ stagingSize ∧ imageFault s.rom.mgmt.staging = 1) ∧
    (let s := inUse { EvArg.zero with site := 10 } 0;
      s.starterRuns = true ∧ s.siteLive (Config.drvSite (10 % 2)) = true ∧ s.mgmt.brownout = false ∧ State.reset.starterRuns = false ∧
        s.mgmt.fwwords ≤ s.ev.m ∧ s.ev.m < ({ s.mgmt with fwwords := 1 } : Mgmt).fwwords) ∧
    (let s := inUse { EvArg.zero with site := 23, n := 3, list := [1] } 0;
      s.siteStatus s.timeDrv 23 = 1 ∧ 3 < bits (tget 0 (s.drv s.timeDrv).disc 23).toNat 47 32 ∧ Config.kindAt 23 ≠ .none ∧ s.mgmt.retired 23 = false ∧
        s.mgmt.phase = 4 ∧ s.reasonHolds 23 1 = true ∧ State.reset.mgmt.phase ≠ 4) := by
  refine ⟨⟨rfl, rfl, by decide, by decide, rfl⟩, ⟨rfl, rfl, rfl, rfl, by decide, rfl, rfl, rfl⟩, rfl, rfl, ⟨rfl, rfl, rfl, rfl⟩,
    ⟨rfl, rfl, by decide, rfl⟩, ⟨rfl, rfl, rfl, rfl, by decide, by decide⟩, ⟨rfl, by decide, by decide, rfl, rfl, rfl, by decide⟩⟩

/-- An image whose checks all pass boots: whether one does rests on the opaque digest and signature check (R437), so the image is any that
passes. -/
theorem witness_bootgo (m : List (Nat × Byte)) (h : imageFault m = 0) :
    let r := State.reset.rom
    let s : State := { r with mgmt := { r.mgmt with staging := m }, ev := { EvArg.zero with list := r.mgmt.expected } }
    s.rom.mgmt.phase = 1 ∧ imageFault s.rom.mgmt.staging = 0 ∧ (∀ x < 60, s.ev.list.contains x = s.rom.mgmt.expected.contains x) ∧
      ∀ x ∈ s.ev.list, x < 60 :=
  ⟨rfl, h, fun _ _ => rfl, show ∀ x ∈ State.reset.rom.mgmt.expected, x < 60 by decide⟩

set_option maxRecDepth 200000 in
theorem witness_watchdogs :
    (let s0 := aim (inUse EvArg.zero 0) vec 0;
      let s : State := { s0 with cyc := 2 ^ 26 };
      (s.core vec).run = true ∧ coreCls vec ≠ .drover ∧ (s.core vec).leave = none ∧ (s.core vec).lastIss + 2 ^ 26 ≤ s.cyc) ∧
    (let s := inUse EvArg.zero 100000000;
      (s.core ⟨Config.drvSite 0, 0⟩).run = true ∧ (s.core ⟨Config.drvSite 0, 0⟩).halted = false ∧
        tget 0 (s.drv 0).fwkick 0 + 100000000 ≤ s.runNs) ∧
    (let s0 := inUse { EvArg.zero with n := 3 } 5000;
      let s := s0.setDrv 0 { s0.drv 0 with wdcfg := [(0, 0x100000005)] };
      (s.node 0 3).used = true ∧ (s.node 0 3).st = .running ∧ fieldW (tget 0 (s.drv 0).wdcfg (s.node 0 3).fold) 31 0 = 5 ∧
        (s.node 0 3).readyNs + 1000 * 5 ≤ s.runNs) ∧
    (let s := inUse { EvArg.zero with site := 23 } 1000000;
      let u := s.setCore vec { s.core vec with leave := some .preempt };
      0 < clustersOf 23 ∧ u.inReset 23 0 = false ∧ u.clusterLate 23 0 = true) ∧
    (let l := { launch none with started := true };
      let s := loaded (graph 1 l) .running;
      graphOf s.ev.n = some (0, 0) ∧ s.graphAt 0 0 = some (graph 1 l) ∧ (graph 1 l).launches = [l] ∧ l.started = true) ∧
    (let s0 := inUse { EvArg.zero with site := 23 } 1000000;
      let s := s0.setDie 23 { s0.die 23 with hotAt := some 0 };
      (s.die 23).hotAt = some 0 ∧ 0 + 1000000 ≤ s.runNs ∧ s.mayRetire 23 = true ∧ s.mgmt.phase = 4) ∧
    (Config.kindAt 0 = .mem ∧ (1 : W64).getLsbD 0 = true) ∧
    State.reset.noFold = true ∧ (inUse EvArg.zero 0).noFold = false ∧
    (let s := inUse { EvArg.zero with n := 15 } 0;
      s.ev.n ≤ 15 ∧ (tget [] (s.die (Config.fabSite 1)).ptp 7).length < 64 ∧ 64 ≤ (List.replicate 64 ((0, 0, 0) : BitVec 16 × BitVec 4 × Nat)).length) ∧
    (let s := inUse EvArg.zero 2000000000;
      let u : State := { s with mgmt := { s.mgmt with timeSrc := 1 } };
      tget true u.mgmt.hostUp 0 = true ∧ u.mgmt.timeSrc ≠ 0 ∧ u.mgmt.srcAt + 2000000000 ≤ u.runNs) := by
  refine ⟨⟨rfl, by decide, rfl, by decide⟩, ⟨rfl, rfl, by decide⟩, ⟨rfl, rfl, by decide, by decide⟩, ⟨by decide, rfl, by decide⟩, ⟨rfl, rfl, rfl, rfl⟩, ⟨rfl, by decide, rfl, rfl⟩,
    ⟨rfl, rfl⟩, rfl, rfl, ⟨by decide, by decide, by simp⟩, ⟨rfl, by decide, by decide⟩⟩

/-- A collective of a type on one FP32 element at 0x20000, from the package that is rank `r`, with its result at 0x30000. -/
def collective (type : Nat) : Coll :=
  { desc := [BitVec.ofNat 32 (type * 2 ^ 24), 0, 0, 0, 0x20000, 0, 0x30000, 0, 1, 0, 0, 0, 0, 0, 0, 0], idx := 0, started := false, own := [], kids := [],
    up := none, final := none, ranks := [], parts := [], status := none, since := 0 }

/-- A package whose ring 0 has that collective, in a group of two members of which this one has a rank. -/
def engaged (k : Coll) (rank : Nat) : State :=
  let s := running { EvArg.zero with site := 0 }
  let f := Config.fabSite 0
  let d := s.die f
  let u := s.setDie f { d with
    tlb := [{ asid := 1, glob := true, va := 0, size := 2 ^ 30, pa := 0, r := true, w := true, nc := false, ms := false, d := true, pte := 0 }],
    rings := [(0, (0x100000, 4, 0, 0x8000))], groups := [(0, BitVec.ofNat 128 (31 * 2 ^ 24 + 2 * 2 ^ 29 + rank * 2 ^ 42))] }
  { u with colls := [(ringKey 0 0, k)], up := 10000000 * 65536 }

set_option maxRecDepth 200000 in
theorem witness_collectives :
    (let k := collective 1;
      let s := engaged k 0;
      tget? s.colls (ringKey 0 0) = some k ∧ k.started = false ∧ k.status = none ∧ dType k.desc = 1 ∧
        (∃ x u r v, s.collInputs (s.engineWho 0 0) k.desc = .ok (x, u) ∧ u.readRanks (s.engineWho 0 0) (s.group 0 k.desc) = .ok (r, v)) ∧
        let k' : Coll := { k with started := true };
        k'.output (s.group 0 k.desc) = none ∧ k'.since + 10000000 ≤ s.runNs) ∧
    dType (collective 2).desc = 2 ∧ dType (collective 3).desc = 3 ∧ dType (collective 5).desc = 5 ∧
    (let k := collective 4;
      let s := engaged k 0;
      dType k.desc = 4 ∧ grp (s.group 0 k.desc) 53 42 = (pw k.desc 3).toNat ∧
        ∃ b u, s.collRead (s.engineWho 0 0) (pw64 k.desc 4) (dCount k.desc * enBits (pw k.desc 1) / 8) = .ok (b, u)) ∧
    (let k := collective 4; grp ((engaged k 1).group 0 k.desc) 53 42 ≠ (pw k.desc 3).toNat) ∧
    (let k : Coll := { collective 4 with started := true, final := some [.code 0x3F800000] };
      let s := engaged k 0;
      ∃ b, k.output (s.group 0 k.desc) = some b ∧ b ≠ [] ∧ ∃ u v q x, s.collWrite (s.engineWho 0 0) (pw64 k.desc 6) b = .ok u ∧
        u.collSignal (u.engineWho 0 0) k.desc 0 = .ok v ∧ v.consumeAs (u.engineWho 0 0) (v.ring 0 0) = .ok (q, x, none)) ∧
    ((({ collective 5 with started := true, final := some [] } : Coll)).output 0 = some []) ∧
    (let k : Coll := { collective 4 with status := some 2 };
      let s := engaged k 0;
      ∃ v q x, s.collSignal (s.engineWho 0 0) k.desc 2 = .ok v ∧ v.consumeAs (s.engineWho 0 0) (v.ring 0 0) = .ok (q, x, none)) ∧
    -- a part that has come before its descriptor, and one that meets it
    (let k : Coll := collective 1;
      let s := engaged k 0;
      let f := Config.fabSite 0;
      let u := s.setDie f { s.die f with collSeq := [(0, 1)] };
      tget 0 (s.die f).collSeq 0 ≤ s.ev.m ∧ u.ev.m < tget 0 (u.die f).collSeq 0 ∧ grp (tget 0 (u.die f).groups 0) 62 57 = 0 ∧
        tget? u.colls (ringKey 0 0) = some k ∧ dGroup k.desc = 0 ∧ k.idx = u.ev.m ∧ k.status = none) := by
  refine ⟨⟨rfl, rfl, rfl, rfl, ⟨_, _, _, _, rfl, rfl⟩, rfl, by decide⟩, rfl, rfl, rfl, ⟨rfl, by decide, _, _, rfl⟩, by decide,
    ⟨_, rfl, by decide, _, _, _, _, rfl, rfl, rfl⟩, rfl, ⟨_, _, _, rfl, rfl⟩, ⟨by decide, by decide, rfl, rfl, rfl, rfl, rfl⟩⟩

/-- An open packet whose cluster is reset ends with an abort tail as its class's next flit, and is not sent again (R290). -/
theorem test_cluster_reset_cuts_packet :
    (let s := State.reset.give 23 0 [0, 0, 6, 3];
      let l := ((s.link 23 0).nextFlit fun _ => 1).2;
      let k := (l.cutFrom 3).nextFlit fun _ => 1;
      l.opened.length = 1 ∧ k.1.pos = 2 ∧ k.1.abort = 2 ∧ k.2.opened = [] ∧ k.2.flown = [] ∧ l.cutFrom 4 = l) := by decide

/-- A line of a device page at which a `PREF` with D = 1 ends, and a store and an add that `SIGNAL` puts in the store queue. -/
theorem witness_prefetch_and_signal :
    (let s := rowed;
      ∃ sp at_ lvl q v, s.checkEa s.me 0x10000 0x10000 64 64 0 = .ok sp ∧ s.placeOf s.me sp 64 0 .read 0x10000 = .ok (.mem at_ lvl, q) ∧
        isKick (q.forward at_) = false ∧ q.reachHome q.me (q.forward at_) 0x10000 = .ok v) ∧
    (let s := homed 23 EvArg.zero;
      ∃ sp pl q, s.checkEa s.me 0x10000 0x10000 8 8 0 = .ok sp ∧ s.placeOf s.me sp 8 0 .both 0x10000 = .ok (pl, q)) ∧
    (let s := one vec .C owned;
      let e : StoreEnt := { storeAt .C (.csp 23 0 0) (some (leBytes 8 5)) with add := true };
      (∃ v, s.doStore (s.who vec) e.place (leBytes 8 5) e.ea = .ok v) ∧ ∃ old v, s.doAtomic (s.who vec) e.place (.amo 0) 5 0 e.ea = .ok (old, v)) := by
  refine ⟨⟨_, _, _, _, _, rfl, rfl, rfl, rfl⟩, ⟨_, _, _, rfl, rfl⟩, ⟨_, rfl⟩, _, _, rfl⟩

/-- Selectors, mask numbers and function codes that X does not take. -/
theorem witness_illegal_of_x :
    (let s := lanesOf vec;
      s.strand = .X ∧ s.srcOk 48 = true ∧ s.destOk 48 = false ∧ s.srcOk 61 = false ∧ decide ((7 : BitVec 6).toNat < 7) = false ∧
        decide ((4 : BitVec 6).toNat < 4) = false ∧ decide ((8 : BitVec 6).toNat < 8) = false ∧ decide ((48 : BitVec 6).toNat < 48) = false) ∧
    (let s := fw 0 0; s.strand = .X ∧ s.destOk 48 = false ∧ s.srcOk 61 = false) ∧
    (0x21000001 : W32).extractLsb' 22 8 = 0x84 ∧ (0x21000001 : W32).extractLsb' 0 9 ≠ 0 ∧
    (0x20000001 : W32).extractLsb' 22 8 = 0x80 ∧ (0x20000001 : W32).extractLsb' 0 3 ≠ 0 := by
  decide

/-- What the scalar FP32 words are rounded to: a magnitude between two codes, one that ties and one beyond the greatest. -/
theorem witness_rounding :
    (fFP32, 31, 0x7F800000, 0x7FC00000) ∈ ([(fFP32, 31, 0x7F800000, 0x7FC00000), (fBF16, 15, 0x7F80, 0x7FC0), (fFP16, 15, 0x7C00, 0x7E00)] :
      List (FFmt × Nat × Nat × Nat)) ∧ (0 : Nat) < 4 ∧ -(149 : Int) ≤ -1 ∧ -(149 : Int) ≤ fFP32.emin - fFP32.t ∧ (0 : Nat) < 3 ∧
    (one vec .C team).strand = .C ∧ tagRuns .C (one vec .C team).strand = true ∧ (3 : BitVec 3) < 4 ∧ 48 ≤ (48 : BitVec 6).toNat := by
  decide

/-- A cube command under a lease that is wanted, and under one whose time is used up (R235). -/
theorem witness_lease_waits :
    (let s := one cube .X tiled;
      ((s.setCore cube { s.core cube with lease := .want }).core cube).lease = .want ∧
      let u : State := { s.setCore cube { s.core cube with lease := .held, leaseN := 16 } with cyc := 4096 };
      u.Issues .X false ∧ (u.core u.cur).lease = .held ∧ leaseLive (u.core u.cur) u.cyc = false) := by
  refine ⟨rfl, issues rfl, rfl, rfl⟩

/-- A page that `MINV` reaches with its copies, one that a migration's broadcast reaches, and one that is compressed. -/
theorem witness_row_copies :
    (let s := rowed;
      s.pageCopies s.me 0x10000 true 0x10000 = .ok () ∧ s.pageCopies s.me 0x10000 false 0x10000 = .ok () ∧
      (∃ h, s.atStack s.me 0x10000 0x10000 = .ok h) ∧ (0x10000 : Nat) < farBase ∧
      ∃ l q v, s.rowPages 0x10000 1 .mapped = .ok (l, q) ∧ q.needFree l = .ok () ∧
        q.eachPart (State.invRow · ((0 : BitVec 3) == 0)) l = .ok v) ∧
    (let s := farAt (paged none);
      s.partOk 0x10000 65536 = true ∧ s.twoWay s.cur.site migSite = true) := by
  refine ⟨⟨rfl, rfl, ⟨_, rfl⟩, by decide, _, _, _, rfl, rfl, rfl⟩, rfl, by decide⟩

/-- A packet for a cluster whose interface does not answer, and links with and without an other end. -/
theorem witness_interface :
    (let s := running { EvArg.zero with site := 23, list := [1] };
      ∃ q : Packet, q.dst = some 1 ∧ 1 ∈ s.ev.list ∧ ((s.toCluster 23 q).cluster 23 1).inbox = [(q, s.runNs)]) ∧
    (∃ e, otherEnd 23 0 = some e) ∧ otherEnd 0 0 = none := by
  refine ⟨⟨newPacket 0 0 1 8 23 23 none (some 1) none, rfl, by decide, rfl⟩, ⟨_, rfl⟩, rfl⟩

set_option maxRecDepth 200000 in
/-- A cluster and a fold that a reset covers, a retirement that waits for PHASE 4, and a die too hot before it. -/
theorem witness_resets_and_retirements :
    (let s := inUse { EvArg.zero with site := 23, n := 0 } 40000;
      0 < clustersOf 23 ∧ s.inReset 23 0 = false ∧ vec ∈ clusterIds 23 0 ∧ (s.core vec).run = true ∧
      (s.setCluster 23 0 { Cluster.fresh with reset := some 0 }).inReset 23 0 = true) ∧
    (let l := { launch none with started := true };
      let s := loaded (graph 1 l) .running;
      (0, graph 1 l) ∈ (s.drv 0).graphs ∧ bit (graph 1 l).mask 0 = true ∧ l ∈ (graph 1 l).launches ∧ (0, 0, l, 5) ∈ s.foldLaunches 0) ∧
    (let s : State := { inUse { EvArg.zero with site := 23, n := 3 } 0 with mgmt := { Mgmt.reset with phase := 2, toRetire := [(23, 3)] } };
      s.ev.site < 60 ∧ Config.kindAt s.ev.site ≠ .none ∧ s.mgmt.retired s.ev.site = false ∧ (s.ev.site, s.ev.n) ∈ s.mgmt.toRetire ∧ s.mgmt.phase ≠ 4) ∧
    (let s0 := inUse { EvArg.zero with site := 23 } 1000000;
      let s1 := s0.setDie 23 { s0.die 23 with hotAt := some 0 };
      let s : State := { s1 with mgmt := { s1.mgmt with phase := 3 } };
      (s.die s.ev.site).hotAt = some 0 ∧ 0 + 1000000 ≤ s.runNs ∧ s.mayRetire s.ev.site = true ∧ s.mgmt.phase ≠ 4) := by
  refine ⟨⟨by decide, rfl, by decide, rfl, rfl⟩, ⟨by decide, rfl, by decide, by decide⟩, ⟨by decide, by decide, rfl, by decide, by decide⟩,
    ⟨rfl, by decide, rfl, by decide⟩⟩

/-- A suspended team that stands at its drain point, one that goes on, and a long wait in a transfer phase. -/
theorem witness_resume_and_held_swap :
    (let s := fw 0x100000000 0;
      let y : Away := { gone (some 0) with team := finished };
      let u := s.setDrv 0 { s.drv 0 with away := [y] };
      u.suspAway 0 0 = some (0, y) ∧ (drained y.team && !y.team.serr.getLsbD 31) = true ∧
        (drained (gone (some 0)).team && !(gone (some 0)).team.serr.getLsbD 31) = false) ∧
    (let s := aim (one vec .C { phased none false with waitth := 4 }) vec 0;
      let u : State := { s.setCore vec { s.core vec with waitAt := some 0 } with cyc := 4 };
      (u.core vec).waitAt ≠ none ∧ (u.core vec).team.waitth.toNat ≤ waitCount (u.core vec) u.cyc ∧ phaseHeld (u.core vec).team = true ∧
        begunExit (u.core vec).team = false) := by
  refine ⟨⟨rfl, by decide, by decide⟩, by decide, by decide, rfl, rfl⟩

/-- A far line in an L1, a load of which goes past it, and the copies of a piece that a request of its home reaches. -/
theorem witness_far_and_copies :
    (let s := farOf false [22, 23] (one vec .C team);
      farBase ≤ s.forward farBase ∧ isKick farBase = false ∧ farBase % 64 + 2 ≤ 64 ∧ s.forward 64 < farBase) ∧
    (let s := homed 23 { EvArg.zero with n := 64 };
      let p : Piece := { bytes := List.replicate 64 0, dirty := false, poison := false };
      let u := s.setDie 23 { s.die 23 with l2 := [(64, p)], tags := [(2, 0)] };
      u.piece 23 64 = some p ∧ p.bytes.length = 64 ∧ u.reachHome u.evWho 4096 0 = .ok u ∧
        u.reachCopies u.evWho 64 ((u.holders 64).filter (· != 23)) 0 = .ok ()) ∧
    (let s := homed 10 { EvArg.zero with n := 64 };
      hasL2 s.evWho.c.site = false ∧ ∃ u, s.reachHome s.evWho 4096 0 = .ok u ∧ u.reachCopies s.evWho 64 (u.holders 64) 0 = .ok ()) := by
  refine ⟨⟨by decide, rfl, by decide, by decide⟩, ⟨rfl, rfl, rfl, rfl⟩, rfl, _, rfl, rfl⟩

/-- A part that completes a member's own result, and one that does not. -/
theorem witness_collective_wait :
    (let k := collective 1;
      let s := engaged k 0;
      let h := s.group 0 k.desc;
      ((k.receive h s.ev.part).settle h).up.isSome = false ∧ k.up.isNone = true) := by
  refine ⟨rfl, rfl⟩

end Sys2Proof.Tests
end

/-! SUPPORT. How the scalar integer words end (R53, R99): one lemma a form, over the function that gives the result. -/

namespace Sys2Proof.Machine

variable {s u : State} {t : Tag} {d l : Bool} {r a b : BitVec 6} {x y v : W64}

/-- A word that no phase and no privilege asks about ends past itself where its head and its body allow it. -/
theorem run_headOf {body : State → Iss Done} (hi : s.Issues t false) (hl : l = true) (hb : body s = .ok u.goOn) :
    s.run (headOf t l) body = .next (u.past t) :=
  run_past (h := headOf t l) hi hl nofun hb

theorem run_headOf_illegal {body : State → Iss Done} (hi : s.Issues t false) (hl : l = false) :
    s.run (headOf t l) body = .next (s.faulted .ILLEGAL 0 0) := by
  obtain ⟨hrun, hslip, _⟩ := hi
  exact run_illegal (h := headOf t l) hrun hslip hl

/-- A K form gives what its function makes of both operands. -/
theorem run_intK {g : State → W64 → W64 → W64} (hi : s.Issues t false) (ht : tagInt s.cls t = true) (hd : s.destOk r = true)
    (ha : s.srcOk a = true) (hb : s.srcOk b = true) (hr : s.room d r = .ok ()) (h : s.Reads2 a b x y u) (hl : l = true)
    (hv : g s x y = v) :
    s.run (s.intK t r a b l) (fun s => s.frameK d r a b (g s)) = .next ((u.put d r v).past t) := by
  subst hv
  exact run_headOf hi (by simp [ht, hd, ha, hb, hl]) (frameK_ok h hr)

/-- A K form whose FN has no meaning raises `ILLEGAL`. -/
theorem run_intK_illegal {body : State → Iss Done} (hi : s.Issues t false) (hl : l = false) :
    s.run (s.intK t r a b l) body = .next (s.faulted .ILLEGAL 0 0) :=
  run_headOf_illegal hi (by simp [hl])

/-- An I form gives what its function makes of its operand. -/
theorem run_intI {g : W64 → W64} (hi : s.Issues t false) (ht : tagInt s.cls t = true) (hd : s.destOk r = true)
    (ha : s.srcOk a = true) (hr : s.room d r = .ok ()) (h : s.Reads1 a x u) (hv : g x = v) :
    s.run (s.intI t r a) (fun s => s.frameI d r a g) = .next ((u.put d r v).past t) := by
  subst hv
  exact run_headOf hi (by simp [ht, hd, ha]) (frameI_ok h hr)

end Sys2Proof.Machine

/-! SUPPORT. The results of `ADD`, `SUB`, `MUL` and `DIV` as R102 to R104 name them, and the words that give them. -/

namespace Sys2Proof.Machine

/-! ### Sums and differences (R67, R102) -/

theorem clampI_eq_max_min {lo hi : Int} (v : Int) (h : lo ≤ hi) : clampI lo hi v = max lo (min hi v) := by
  unfold clampI
  split
  · omega
  · split <;> omega

theorem satOp_wrap_add (x y : W64) : satOp 0 (· + ·) x y = x + y := by
  simp [satOp, w64, BitVec.ofInt_add, BitVec.ofInt_toInt]

theorem satOp_wrap_sub (x y : W64) : satOp 0 (· - ·) x y = x - y :=
  BitVec.eq_of_toInt_eq (by simp [satOp, w64, BitVec.toInt_sub])

theorem satOp_signed (g : Int → Int → Int) (x y : W64) :
    satOp 1 g x y = BitVec.ofInt 64 (max (-(2 ^ 63)) (min (2 ^ 63 - 1) (g x.toInt y.toInt))) :=
  congrArg (BitVec.ofInt 64) (clampI_eq_max_min _ (by decide))

theorem satOp_unsigned (g : Int → Int → Int) (x y : W64) :
    satOp 2 g x y = BitVec.ofInt 64 (max 0 (min (2 ^ 64 - 1) (g x.toNat y.toNat))) :=
  congrArg (BitVec.ofInt 64) (clampI_eq_max_min _ (by decide))

theorem satOp_unsigned_add (x y : W64) : satOp 2 (· + ·) x y = BitVec.ofNat 64 (min (2 ^ 64 - 1) (x.toNat + y.toNat)) := by
  have h : max (0 : Int) (min (2 ^ 64 - 1) (x.toNat + y.toNat)) = ((min (2 ^ 64 - 1) (x.toNat + y.toNat) : Nat) : Int) := by omega
  rw [satOp_unsigned, h, BitVec.ofInt_natCast]

/-- A difference below zero saturates at 0, and any other is exact. -/
theorem satOp_unsigned_sub (x y : W64) : satOp 2 (· - ·) x y = if x.toNat < y.toNat then 0 else x - y := by
  rw [satOp_unsigned]
  split
  · next h =>
    have : max (0 : Int) (min (2 ^ 64 - 1) (x.toNat - y.toNat)) = 0 := by omega
    rw [this]; rfl
  · next h =>
    have hx := x.isLt
    have : max (0 : Int) (min (2 ^ 64 - 1) (x.toNat - y.toNat)) = ((x.toNat - y.toNat : Nat) : Int) := by omega
    rw [this, BitVec.ofInt_natCast]
    exact BitVec.eq_of_toNat_eq (by simp only [BitVec.toNat_ofNat, BitVec.toNat_sub]; omega)

/-! ### Quotients and remainders (R104) -/

theorem divOp_signed (x y : W64) : divOp 0 x y = if y = 0 then 0xFFFFFFFFFFFFFFFF else x.sdiv y := by
  have h : w64 (x.toInt.tdiv y.toInt) = x.sdiv y :=
    BitVec.eq_of_toInt_eq (by rw [w64, BitVec.toInt_ofInt, BitVec.toInt_sdiv])
  simp [divOp, h]

theorem divOp_unsigned (x y : W64) : divOp 1 x y = if y = 0 then 0xFFFFFFFFFFFFFFFF else x / y := by simp [divOp]

theorem divOp_signed_rem (x y : W64) : divOp 2 x y = if y = 0 then x else x.srem y := by
  have h : w64 (x.toInt.tmod y.toInt) = x.srem y := by rw [w64, ← BitVec.toInt_srem, BitVec.ofInt_toInt]
  simp [divOp, h]

theorem divOp_unsigned_rem (x y : W64) : divOp 3 x y = if y = 0 then x else x % y := by simp [divOp]

end Sys2Proof.Machine

namespace Sys2Proof

open Sys2Proof.Machine

/-- Settles O15: each word is its form of R99 with the result that FN names. -/
theorem arithmeticWordsGiveTheirResults : Obligations.ArithmeticWordsGiveTheirResults := by
  intro s u t d r a b f i x y hi ht hd ha hr
  refine ⟨fun hf => ?_, fun hf => ?_, fun h => run_intI hi ht hd ha hr h rfl, fun hb h => ?_⟩
  · have hl : decide (f < 3) = false := decide_eq_false (by bv_omega)
    exact ⟨run_intK_illegal hi hl, run_intK_illegal hi hl⟩
  · have hl : decide (f < 4) = false := decide_eq_false (by bv_omega)
    exact ⟨run_intK_illegal hi hl, run_intK_illegal hi hl⟩
  refine ⟨?_, ?_, ?_, ?_, ?_, ?_, ?_, ?_, ?_, ?_, ?_, ?_, ?_, ?_⟩
  all_goals
    rintro rfl
    refine run_intK hi ht hd ha hb hr h (by decide) ?_
  · exact satOp_wrap_add x y
  · exact satOp_signed _ x y
  · exact satOp_unsigned_add x y
  · exact satOp_wrap_sub x y
  · exact satOp_signed _ x y
  · exact satOp_unsigned_sub x y
  · rfl
  · rfl
  · rfl
  · rfl
  · exact divOp_signed x y
  · exact divOp_unsigned x y
  · exact divOp_signed_rem x y
  · exact divOp_unsigned_rem x y

end Sys2Proof

/-! SUPPORT. Words whose unused field is not zero, and the results of the logical words, the shifts, `MIN`, `MAX` and `SEL` (R105, R107). -/

namespace Sys2Proof

/-- A word of the half that every class shares (R42). -/
theorem decode_common {k : Cls} {w : W32} (h : opOf w < 0x80) : decode k w = decodeCommon w := if_pos h

theorem opOf_eq {w : W32} {n : BitVec 8} (h : w.extractLsb' 22 8 = n) : opOf w = n.toNat := congrArg BitVec.toNat h

/-- The logical words and the shifts have no FN: bits 2 to 0 are zero (R47). -/
theorem decode_logic_fn {k : Cls} {w : W32} (h : opOf w ∈ [0x06, 0x08, 0x0A, 0x0C, 0x0E, 0x10]) (hf : w.extractLsb' 0 3 ≠ 0) :
    decode k w = none := by
  simp only [List.mem_cons, List.not_mem_nil, or_false] at h
  obtain h | h | h | h | h | h := h <;> simpa [decode_common, decodeCommon, h] using hf

namespace Machine

theorem minOp_signed (x y : W64) : minOp 0 x y = if x.toInt ≤ y.toInt then x else y := by simp [minOp, BitVec.sle_iff_toInt_le]

theorem minOp_unsigned (x y : W64) : minOp 1 x y = if x.toNat ≤ y.toNat then x else y := by simp [minOp, BitVec.ule_iff_toNat_le]

theorem maxOp_signed (x y : W64) : maxOp 0 x y = if x.toInt ≤ y.toInt then y else x := by simp [maxOp, BitVec.sle_iff_toInt_le]

theorem maxOp_unsigned (x y : W64) : maxOp 1 x y = if x.toNat ≤ y.toNat then y else x := by simp [maxOp, BitVec.ule_iff_toNat_le]

/-- The sign of an immediate does not reach its shift amount (R105). -/
theorem amount_imm9 (i : BitVec 9) : amount (imm9 i) = i.toNat % 64 := by
  simp only [amount, imm9, BitVec.toNat_signExtend, BitVec.toNat_setWidth]
  split <;> omega

end Machine

open Sys2Proof.Machine

/-- Settles O16: each word is its form of R99 with its operation. -/
theorem logicAndShiftWordsGiveTheirResults : Obligations.LogicAndShiftWordsGiveTheirResults := by
  intro s u t d r a b f i x y hi ht hd ha hr
  refine ⟨rfl, fun hf => ?_, fun k w => decode_logic_fn, fun h => ?_, fun hb h => ?_⟩
  · have hl : decide (f < 2) = false := decide_eq_false (by bv_omega)
    exact ⟨run_intK_illegal hi hl, run_intK_illegal hi hl⟩
  · rw [← amount_imm9]
    refine ⟨?_, ?_, ?_, ?_, ?_, ?_⟩
    all_goals exact run_intI hi ht hd ha hr h rfl
  · refine ⟨?_, ?_, ?_, ?_, ?_, ?_, ?minSigned, ?minUnsigned, ?maxSigned, ?maxUnsigned, ?_⟩
    case minSigned => rintro rfl; exact run_intK hi ht hd ha hb hr h rfl (minOp_signed x y)
    case minUnsigned => rintro rfl; exact run_intK hi ht hd ha hb hr h rfl (minOp_unsigned x y)
    case maxSigned => rintro rfl; exact run_intK hi ht hd ha hb hr h rfl (maxOp_signed x y)
    case maxUnsigned => rintro rfl; exact run_intK hi ht hd ha hb hr h rfl (maxOp_unsigned x y)
    all_goals exact run_intK hi ht hd ha hb hr h rfl rfl

end Sys2Proof

/-! SUPPORT. The results of the constant, field and count words (R108 to R110): fields by their descriptor, the order of bytes, and
the counts of zeros and ones of a word. -/

namespace Sys2Proof

/-- `BFI` has no FN: bits 2 to 0 are zero (R109). -/
theorem decode_bfi_fn {k : Cls} {w : W32} (h : w.extractLsb' 22 8 = 0x1A) (hf : w.extractLsb' 0 3 ≠ 0) : decode k w = none := by
  simpa [decode_common, decodeCommon, opOf_eq h] using hf

namespace Machine

/-! ### Fields (R109) -/

/-- A field descriptor holds the position in bits 5 to 0 and the length in bits 13 to 8, where 0 means 64. -/
theorem fieldOf_eq (y : W64) : fieldOf y =
    ((y.extractLsb' 0 6).toNat, if (y.extractLsb' 8 6).toNat = 0 then 64 else (y.extractLsb' 8 6).toNat) := by
  simp [fieldOf, fieldW, bits, Nat.shiftRight_eq_div_pow]

/-! ### Bytes in reverse order (R110) -/

theorem length_leBytes (n v : Nat) : (leBytes n v).length = n := by
  induction n generalizing v with
  | zero => rfl
  | succ n ih => simp [leBytes, ih]

theorem getElem_leBytes {n v k : Nat} (h : k < (leBytes n v).length) : (leBytes n v)[k] = BitVec.ofNat 8 (v / 256 ^ k) := by
  induction n generalizing v k with
  | zero => simp [leBytes] at h
  | succ n ih =>
    cases k with
    | zero => simp [leBytes]
    | succ k => simp [leBytes, ih, Nat.div_div_eq_div_mul, Nat.pow_succ']

theorem getElem_reverse_leBytes {n v k : Nat} (h : k < (leBytes n v).reverse.length) :
    (leBytes n v).reverse[k] = BitVec.ofNat 8 (v / 256 ^ (n - 1 - k)) := by
  rw [List.getElem_reverse, getElem_leBytes, length_leBytes]

theorem leNat_lt (l : List Byte) : leNat l < 256 ^ l.length := by
  induction l with
  | nil => simp [leNat]
  | cons b l ih =>
    have hb := b.isLt
    simp only [leNat, List.length_cons, Nat.pow_succ']
    omega

/-- Byte `k` of the number of a list of bytes is its entry `k` (R6). -/
theorem leNat_div_mod {l : List Byte} {k : Nat} (h : k < l.length) : leNat l / 256 ^ k % 256 = l[k].toNat := by
  induction l generalizing k with
  | nil => simp at h
  | cons b l ih =>
    have hb := b.isLt
    cases k with
    | zero => simp [leNat]; omega
    | succ k =>
      have hq : (b.toNat + 256 * leNat l) / 256 = leNat l := by omega
      simpa [leNat, Nat.pow_succ', ← Nat.div_div_eq_div_mul, hq] using ih (by simpa using h)

/-- Byte `k` of a word is its bits 8 `k` + 7 to 8 `k`. -/
theorem extractLsb'_byte (x : W64) (k : Nat) : (x.extractLsb' (8 * k) 8).toNat = x.toNat / 256 ^ k % 256 := by
  simp [Nat.shiftRight_eq_div_pow, Nat.pow_mul]

theorem bitcOp_bytes (x : W64) {k : Nat} (hk : k < 8) : (bitcOp 4 x).extractLsb' (8 * k) 8 = x.extractLsb' (8 * (7 - k)) 8 := by
  have hlen : (leBytes 8 x.toNat).reverse.length = 8 := by rw [List.length_reverse, length_leBytes]
  have hlt : leNat (leBytes 8 x.toNat).reverse < 2 ^ 64 := by simpa [hlen] using leNat_lt (leBytes 8 x.toNat).reverse
  apply BitVec.eq_of_toNat_eq
  calc ((bitcOp 4 x).extractLsb' (8 * k) 8).toNat
      = leNat (leBytes 8 x.toNat).reverse / 256 ^ k % 256 := by
        rw [extractLsb'_byte]
        exact congrArg (· / 256 ^ k % 256) (Nat.mod_eq_of_lt hlt)
    _ = x.toNat / 256 ^ (7 - k) % 256 := by
        rw [leNat_div_mod (by omega), getElem_reverse_leBytes, BitVec.toNat_ofNat]
    _ = (x.extractLsb' (8 * (7 - k)) 8).toNat := (extractLsb'_byte x (7 - k)).symm

/-! ### Zeros and ones (R110) -/

theorem pop64_eq_countP (x : W64) : pop64 x = (List.range 64).countP fun k => x.getLsbD k := List.countP_eq_length_filter.symm

theorem clz64_le (x : W64) : clz64 x ≤ 64 := by
  unfold clz64
  split <;> omega

theorem toNat_ne_zero {x : W64} (h : x ≠ 0) : x.toNat ≠ 0 := BitVec.toNat_ne.1 h

/-- The highest one of a word stands below its leading zeros. -/
theorem clz64_add_log2 {x : W64} (h : x ≠ 0) : clz64 x + x.toNat.log2 = 63 := by
  have hlog : x.toNat.log2 < 64 := (Nat.log2_lt (toNat_ne_zero h)).2 x.isLt
  have hclz : clz64 x = 63 - x.toNat.log2 := if_neg (by simpa using h)
  omega

/-- The bits that are counted are zero. -/
theorem getLsbD_of_clz64 {x : W64} {k : Nat} (h : 64 ≤ k + clz64 x) : x.getLsbD k = false := by
  by_cases hx : x = 0
  · simp [hx]
  · have hsum := clz64_add_log2 hx
    exact Nat.testBit_lt_two_pow ((Nat.log2_lt (toNat_ne_zero hx)).1 (by omega))

/-- The bit below those that are counted is one. -/
theorem getLsbD_clz64 {x : W64} (h : clz64 x < 64) : x.getLsbD (63 - clz64 x) = true := by
  have hx : x ≠ 0 := by rintro rfl; exact absurd h (by decide)
  have hsum := clz64_add_log2 hx
  have hk : 63 - clz64 x = x.toNat.log2 := by omega
  rw [hk]
  exact Nat.testBit_log2 (toNat_ne_zero hx)

theorem getLsbD_revBits (x : W64) {k : Nat} (h : k < 64) : (revBits x).getLsbD k = x.getLsbD (63 - k) := by
  rw [revBits, BitVec.getLsbD_reverse, BitVec.getMsbD, decide_eq_true h, Bool.true_and]

/-- The trailing zeros of a word, as the leading zeros of its reverse: the bits that are counted are zero. -/
theorem getLsbD_of_clz64_revBits {x : W64} {k : Nat} (h : k < clz64 (revBits x)) : x.getLsbD k = false := by
  have := clz64_le (revBits x)
  have hk : x.getLsbD k = (revBits x).getLsbD (63 - k) := by
    rw [getLsbD_revBits x (by omega), show 63 - (63 - k) = k by omega]
  exact hk.trans (getLsbD_of_clz64 (by omega))

/-- The bit above those that are counted is one. -/
theorem getLsbD_clz64_revBits {x : W64} (h : clz64 (revBits x) < 64) : x.getLsbD (clz64 (revBits x)) = true := by
  have hk := getLsbD_clz64 h
  rwa [getLsbD_revBits x (by omega), show 63 - (63 - clz64 (revBits x)) = clz64 (revBits x) by omega] at hk

end Machine

open Sys2Proof.Machine

/-- Settles O17: the constants and fields by their words, the counts by the bits that they count. -/
theorem constantAndFieldWordsGiveTheirResults : Obligations.ConstantAndFieldWordsGiveTheirResults := by
  intro s u t d r a b f n x y hi ht
  refine ⟨fun hr => ?_, fun hf => ?_, fun hf => ?_, fun k w => decode_bfi_fn, fun hd hr => ?_, fun hd hr => ?_,
    fun hd ha hr h => ?_, fun hd ha hb h => ?_⟩
  · have hreg : regOk r = false := decide_eq_false (by omega)
    exact ⟨run_headOf_illegal hi (by simp [hreg]), run_intK_illegal hi hreg⟩
  · exact run_intK_illegal hi (decide_eq_false (by bv_omega))
  · have hl : decide (f < 5) = false := decide_eq_false (by bv_omega)
    exact run_headOf_illegal hi (by rw [hl, Bool.and_false])
  · exact run_headOf hi (by simp [ht, hd]) (frameV_ok hr)
  · have hreg : regOk r = true := decide_eq_true hr
    exact run_headOf hi (by simp [ht, hd, hreg]) (frameV_ok (room_reg s false hr))
  · have bitc : f < 5 → exec (.bitc t d r a f) s = .next ((u.put d r (bitcOp f x)).past t) := fun hf =>
      run_headOf hi (by rw [ht, hd, ha, decide_eq_true hf]; rfl) (frameI_ok h hr)
    refine ⟨?_, ?_, ?_, ?_, ?_⟩ <;> rintro rfl
    · rw [← pop64_eq_countP]
      exact bitc (by decide)
    · exact ⟨_, bitc (by decide), clz64_le x, fun k hk => getLsbD_of_clz64 hk, getLsbD_clz64⟩
    · exact ⟨_, bitc (by decide), clz64_le _, fun k hk => getLsbD_of_clz64_revBits hk, getLsbD_clz64_revBits⟩
    · exact ⟨_, bitc (by decide), fun k hk => bitcOp_bytes x hk⟩
    · exact bitc (by decide)
  · intro pos len mask
    have hfield : fieldOf y = (pos, len) := fieldOf_eq y
    refine ⟨?_, ?_, fun hr => ?_⟩
    · rintro hr rfl
      exact run_intK hi ht hd ha hb hr h (by decide) (by simp [bfxOp, hfield, maskW, mask])
    · rintro hr rfl
      exact run_intK hi ht hd ha hb hr h (by decide) (by simp [bfxOp, hfield, maskW, mask])
    · have hreg : regOk r = true := decide_eq_true hr
      have hv : bfiOp (s.reg r.toNat) x y = (s.reg r.toNat &&& ~~~(mask <<< pos)) ||| ((x <<< pos) &&& (mask <<< pos)) := by
        simp [bfiOp, hfield, maskW, mask]
      rw [← hv]
      exact run_headOf hi (by simp [ht, hd, ha, hb, hreg]) (frameD_ok h)

end Sys2Proof

/-! SUPPORT. The words that set and read predicates and loop indexes (R106, R111, R112, R125): their unused fields, the conditions of
compares, and the byte of predicates. -/

namespace Sys2Proof

/-- The fields that `CMP`, `PMOV`, `LCNT` and `PLOG` do not use are zero (R47). -/
theorem decode_predicate_unused {c : Cls} {w : W32}
    (h : (w.extractLsb' 22 8 = 0x14 ∧ w.extractLsb' 18 3 ≠ 0) ∨ (w.extractLsb' 22 8 = 0x1D ∧ w.extractLsb' 3 6 ≠ 0) ∨
      (w.extractLsb' 22 8 = 0x36 ∧ w.extractLsb' 3 12 ≠ 0) ∨
      (w.extractLsb' 22 8 = 0x1C ∧ (w.extractLsb' 18 3 ≠ 0 ∨ w.extractLsb' 12 3 ≠ 0 ∨ w.extractLsb' 6 3 ≠ 0))) : decode c w = none := by
  obtain ⟨ho, hf⟩ | ⟨ho, hf⟩ | ⟨ho, hf⟩ | ⟨ho, hf⟩ := h
  · simpa [decode_common, decodeCommon, opOf_eq ho] using hf
  · simpa [decode_common, decodeCommon, opOf_eq ho] using hf
  · simpa [decode_common, decodeCommon, opOf_eq ho] using hf
  · have hn : ¬(w.extractLsb' 18 3 = 0 ∧ w.extractLsb' 12 3 = 0 ∧ w.extractLsb' 6 3 = 0) := fun ⟨h18, h12, h6⟩ =>
      hf.elim (· h18) (·.elim (· h12) (· h6))
    simpa [decode_common, decodeCommon, opOf_eq ho] using hn

namespace Machine

variable {s u : State} {a : BitVec 6} {x : W64}

/-- The conditions of `CMP` and `CMPI` (R106). -/
theorem cmpCond_iff (k : BitVec 3) (x y : W64) : cmpCond k x y = true ↔
    (k = 0 ∧ x = y) ∨ (k = 1 ∧ x ≠ y) ∨ (k = 2 ∧ x.toInt < y.toInt) ∨ (k = 3 ∧ x.toInt ≤ y.toInt) ∨
      (k = 4 ∧ x.toNat < y.toNat) ∨ (k = 5 ∧ x.toNat ≤ y.toNat) ∨ (k = 6 ∧ x &&& y ≠ 0) ∨ (k = 7 ∧ x &&& y = 0) := by
  have hk : k = 0 ∨ k = 1 ∨ k = 2 ∨ k = 3 ∨ k = 4 ∨ k = 5 ∨ k = 6 ∨ k = 7 := by bv_omega
  obtain rfl | rfl | rfl | rfl | rfl | rfl | rfl | rfl := hk <;>
    simp [cmpCond, BitVec.slt_iff_toInt_lt, BitVec.sle_iff_toInt_le, BitVec.ult_iff_toNat_lt, BitVec.ule_iff_toNat_le]

/-- The logic of `PLOG` by FN, each of which may be issued (R111). -/
theorem plogOp_eq_and_legal {f q : BitVec 3} {m n v : Bool} (h : (f = 0 ∧ v = (m && n)) ∨ (f = 1 ∧ v = (m || n)) ∨ (f = 2 ∧ v = (m ^^ n)) ∨
    (f = 3 ∧ v = (m && !n)) ∨ (f = 4 ∧ v = (m || !n)) ∨ (f = 5 ∧ q = 0 ∧ v = !m)) :
    plogOp f m n = v ∧ (decide (f < 6) && (f != 5 || q == 0)) = true := by
  obtain ⟨rfl, rfl⟩ | ⟨rfl, rfl⟩ | ⟨rfl, rfl⟩ | ⟨rfl, rfl⟩ | ⟨rfl, rfl⟩ | ⟨rfl, rfl, rfl⟩ := h <;> exact ⟨rfl, rfl⟩

/-- A write of c7 is discarded (R21). -/
theorem setPred_c7 (s : State) (v : Bool) : s.setPred 7 v = s := rfl

/-- The byte of predicates shows each of them, c7 as true (R112). -/
theorem getLsbD_predByte (s : State) {n : Nat} (h : n < 8) : s.predByte.getLsbD n = s.pred n := by
  have hc7 : ∀ n < 8, (0x80 : BitVec 8).getLsbD n = (n == 7) := by decide
  rw [State.predByte, BitVec.getLsbD_or, hc7 n h, Bool.or_comm, State.pred]

theorem countSel_zero_sel (a : BitVec 6) {n : Nat} (hn : n ≠ 62) : countSel [a, 62] n = countSel [a] n := by
  simp [countSel, List.filter_cons, hn.symm]

/-- The selector of zero pops nothing (R25). -/
theorem popsOk_zero_sel (s : State) (a : BitVec 6) : s.popsOk [a, 62] = s.popsOk [a] := by
  simp (disch := decide) only [State.popsOk, countSel_zero_sel]

/-- A word of one operand reads 0 as its second. -/
theorem reads2_zero_sel (h : s.Reads1 a x u) : s.Reads2 a 62 x 0 u := by
  obtain ⟨hpops, hsrc⟩ := h
  exact ⟨(popsOk_zero_sel s a).trans hpops, u, hsrc, rfl⟩

/-- `PMOV` of an FN without a meaning, or with a selector that its FN does not use, may not be issued (R112). -/
theorem pmov_illegal {f : BitVec 3} {r : BitVec 6} (h : 1 < f ∨ (f = 0 ∧ a ≠ 0) ∨ (f = 1 ∧ r ≠ 0)) :
    (if f == 0 then s.destOk r && a == 0 else f == 1 && r == 0 && s.srcOk a) = false := by
  obtain hf | ⟨rfl, ha⟩ | ⟨rfl, hr⟩ := h
  · have h0 : ¬(f == 0) = true := by simpa using show f ≠ 0 by bv_omega
    rw [if_neg h0, beq_false_of_ne (show f ≠ 1 by bv_omega), Bool.false_and, Bool.false_and]
  · rw [if_pos (beq_self_eq_true _), beq_false_of_ne ha, Bool.and_false]
  · rw [if_neg (by decide), beq_false_of_ne hr, Bool.and_false, Bool.false_and]

/-- `PLOG` of an FN without a meaning, or of FN 5 with a second predicate, may not be issued (R111). -/
theorem plog_illegal {f q : BitVec 3} (h : 5 < f ∨ (f = 5 ∧ q ≠ 0)) : (decide (f < 6) && (f != 5 || q == 0)) = false := by
  obtain hf | ⟨rfl, hq⟩ := h
  · rw [decide_eq_false (by bv_omega), Bool.false_and]
  · rw [beq_false_of_ne hq]; rfl

end Machine

open Sys2Proof.Machine

/-- Settles O18: each word by its form of R99, with the predicate that its condition gives. -/
theorem predicateWordsGiveTheirResults : Obligations.PredicateWordsGiveTheirResults := by
  intro s u t d p q r a b f k i x y hi ht
  refine ⟨fun hf => ?_, fun hf => ?_, fun hf => ?_, fun c w => decode_predicate_unused,
    ⟨rfl, setPred_c7 s, fun n => getLsbD_predByte s⟩, fun ha hb h => ?_, fun ha h => ?_, fun v hv => ?_, fun hd hr => ?_,
    fun ha h => ?_, fun hd hr hf => ?_⟩
  · exact run_headOf_illegal hi (by rw [Bool.and_assoc, plog_illegal hf, Bool.and_false])
  · have hl : decide (f < 4) = false := decide_eq_false (by bv_omega)
    exact run_headOf_illegal hi (by rw [hl, Bool.and_false])
  · exact run_headOf_illegal hi (by rw [pmov_illegal hf, Bool.and_false])
  · exact ⟨cmpCond k x y, run_headOf hi (by simp [ht, ha, hb]) (frameP_ok h), cmpCond_iff k x y⟩
  · refine ⟨cmpCond k x (imm9 i), run_headOf hi (by simp [ht, ha]) (frameP_ok (reads2_zero_sel h)), ?_⟩
    rintro rfl
    exact cmpCond_iff k x _
  · obtain ⟨rfl, hl⟩ := plogOp_eq_and_legal hv
    exact run_headOf hi (by rw [ht, Bool.true_and, hl]) rfl
  · exact run_headOf hi (by simp [ht, hd]) (frameV_ok hr)
  · obtain ⟨hpops, hsrc⟩ := h
    exact run_headOf hi (by simp [ht, ha]) (by simp [hpops, hsrc, bind, Except.bind])
  · exact run_headOf hi (by rw [ht, hd, decide_eq_true hf]; rfl) (frameV_ok hr)

end Sys2Proof

/-! SUPPORT. The fields of a word (R12, R41): what a word shows from a place up, and how the pieces of a concatenation are its fields. -/

namespace Sys2Proof

/-! ### Fields -/

/-- From bit `s` up a word holds the field `x`. -/
def Shows (w : W32) (s : Nat) {k : Nat} (x : BitVec k) : Prop := w.extractLsb' s k = x

theorem extractLsb'_field (w : W32) (s : Nat) {l t n : Nat} (h : t + n ≤ l) :
    (w.extractLsb' s l).extractLsb' t n = w.extractLsb' (s + t) n := by
  apply BitVec.eq_of_getLsbD_eq
  intro i hi
  simp [hi, Nat.add_assoc]
  omega

/-- A word holds a concatenation where it holds both of its pieces. -/
theorem shows_append {n m : Nat} (w : W32) (s : Nat) (x : BitVec n) (y : BitVec m) :
    Shows w s (x ++ y) ↔ Shows w (s + m) x ∧ Shows w s y := by
  unfold Shows
  constructor
  · intro h
    have hx := congrArg (BitVec.extractLsb' m n) h
    have hy := congrArg (BitVec.extractLsb' 0 m) h
    rw [BitVec.extractLsb'_append_eq_left, extractLsb'_field _ _ (by omega)] at hx
    rw [BitVec.extractLsb'_append_eq_right, extractLsb'_field _ _ (by omega)] at hy
    exact ⟨hx, hy⟩
  · rintro ⟨rfl, rfl⟩
    exact (BitVec.extractLsb'_append_extractLsb'_eq_extractLsb' rfl).symm

theorem eq_iff_shows (x w : W32) : x = w ↔ Shows w 0 x := by
  rw [Shows, BitVec.extractLsb'_eq_self, eq_comm]

/-! ### The tag, the opcode and single bits -/

/-- The tag that two bits stand for (R12). -/
def tagOfBits (b : BitVec 2) : Tag :=
  match b.toNat with
  | 0 => .C
  | 1 => .A
  | 2 => .X
  | _ => .W

theorem tagOf_eq (w : W32) : tagOf w = tagOfBits (w.extractLsb' 30 2) := rfl

theorem tagOfBits_tagBits (t : Tag) : tagOfBits (tagBits t) = t := by cases t <;> rfl

theorem tagBits_tagOfBits : ∀ b : BitVec 2, tagBits (tagOfBits b) = b := by decide

theorem tagBits_tagOf (w : W32) : tagBits (tagOf w) = w.extractLsb' 30 2 := tagBits_tagOfBits _

theorem tagLow_tagOf (w : W32) : tagLow (tagOf w) = w.extractLsb' 30 1 := by
  have h : ∀ b : BitVec 2, tagLow (tagOfBits b) = b.extractLsb' 0 1 := by decide
  rw [tagOf_eq, h, extractLsb'_field w 30 (by decide)]

/-- The tags of a row with bit 31 clear (R48). -/
theorem tagCA_tagOf (w : W32) : tagCA (tagOf w) = (w.extractLsb' 31 1 == 0) := by
  have h : ∀ b : BitVec 2, tagCA (tagOfBits b) = (b.extractLsb' 1 1 == 0) := by decide
  rw [tagOf_eq, h, extractLsb'_field w 30 (by decide)]

/-- The tags of a row with bit 31 set (R48). -/
theorem tagXW_tagOf (w : W32) : tagXW (tagOf w) = (w.extractLsb' 31 1 == 1) := by
  have h : ∀ b : BitVec 2, tagXW (tagOfBits b) = (b.extractLsb' 1 1 == 1) := by decide
  rw [tagOf_eq, h, extractLsb'_field w 30 (by decide)]

theorem extractLsb'_opcode (w : W32) : w.extractLsb' 22 8 = BitVec.ofNat 8 (opOf w) := by
  rw [opOf, BitVec.ofNat_toNat, BitVec.setWidth_eq]

theorem ofBool_getLsbD (w : W32) (n : Nat) : BitVec.ofBool (w.getLsbD n) = w.extractLsb' n 1 := by
  apply BitVec.eq_of_getLsbD_eq
  intro i hi
  obtain rfl : i = 0 := by omega
  simp

/-! ### Encode of decode -/

/-- `i` stands for a step of the part, and its word is `w`. -/
def IsWordOf (i : Instr) (w : W32) : Prop := WellFormed i = true ∧ encode i = some w

/-- A word that shows every field of an instruction is its word. -/
theorem isWordOf {i : Instr} {x w : W32} (hw : WellFormed i = true) (he : encode i = some x) (hx : Shows w 0 x) : IsWordOf i w :=
  ⟨hw, he.trans (congrArg some ((eq_iff_shows x w).2 hx))⟩

/-- Every row of the opcode map (R42, R47 to R52) reads its operands from the fields where the encoder puts them, and checks those that
the encoder fixes. -/
theorem isWordOf_of_decode {k : Cls} {w : W32} {i : Instr} (h : decode k w = some i) : IsWordOf i w := by
  unfold decode decodeCommon decodeVector decodeVec decodeSparse decodeSort decodeCube decodeMem decodeDrover at h
  repeat' split at h
  all_goals cases h
  all_goals
    refine isWordOf ?_ rfl ?_
    · simp only [WellFormed, tagCA_tagOf, tagXW_tagOf, *, beq_self_eq_true]
    · simp only [shows_append]
      simp only [Shows, Nat.reduceAdd, extractLsb'_opcode, tagBits_tagOf, tagLow_tagOf, ofBool_getLsbD, BitVec.ofNat_eq_ofNat, and_self, *]

/-- Settles O4. -/
theorem encodeOfDecodeIsTheWord : Obligations.EncodeOfDecodeIsTheWord := fun _ _ _ => isWordOf_of_decode

end Sys2Proof

/-! SUPPORT. The word of an instruction shows its opcode and its operands, and so the row of its opcode reads it back (R41 to R52). -/

namespace Sys2Proof

theorem getLsbD_eq_beq (w : W32) (n : Nat) : w.getLsbD n = (w.extractLsb' n 1 == 1#1) := by
  rw [← ofBool_getLsbD]
  cases w.getLsbD n <;> rfl

theorem ofBool_beq (d : Bool) : (BitVec.ofBool d == 1#1) = d := by cases d <;> rfl

/-- Where the opcode fixes bit 31, bit 30 alone says the tag (R48). -/
theorem tagOf_of_tagLow {w : W32} {t : Tag} (h : (tagCA t = true ∧ w.extractLsb' 31 1 = 0) ∨ (tagXW t = true ∧ w.extractLsb' 31 1 = 1))
    (hlow : w.extractLsb' 30 1 = tagLow t) : tagOf w = t := by
  rw [← tagLow_tagOf] at hlow
  have hw : (tagCA t = true ∧ tagCA (tagOf w) = true) ∨ (tagXW t = true ∧ tagXW (tagOf w) = true) := by
    simpa [tagCA_tagOf, tagXW_tagOf] using h
  revert hlow hw
  cases t <;> cases tagOf w <;> decide

theorem decode_of_encode {i : Instr} {w : W32} (hi : WellFormed i = true) (h : encode i = some w) : decode (classOf i) w = some i := by
  cases i
  -- The steps of the part have no word.
  all_goals try exact absurd h.symm (Option.some_ne_none w)
  all_goals
    have hf := (eq_iff_shows _ w).1 (Option.some.inj h)
    simp only [shows_append] at hf
    simp only [Shows, Nat.reduceAdd] at hf
    have ho := Eq.refl (opOf w)
    conv at ho =>
      rhs
      simp only [opOf, hf]
    rw [decode.eq_def, ho]
  -- Words of the common half whose fields are operands, every one of them.
  case add | addi | sub | mul | div | andi | ori | xori | shli | shri | srai | minK | maxK | cmpi | sel | li | lsi | bfx | br | ldb |
      ldh | ldw | ldd | ldbz | ldhz | ldwz | stb | sth | stw | std | amo | amow | amof =>
    refine (if_pos (by decide)).trans ?_
    rw [decodeCommon, ho]
    refine (show _ = some _ from rfl).trans ?_
    simp only [tagOf_eq, getLsbD_eq_beq, hf, tagOfBits_tagBits, ofBool_beq]
  -- Words whose opcode fixes bit 31.
  case fadd | fmul | ffma | fmnx | fcmp | fcvt | ldf | stf | fefill =>
    refine (if_pos (by decide)).trans ?_
    rw [decodeCommon, ho]
    have ht := tagOf_of_tagLow (w := w) (.inl ⟨hi, by simp only [hf, BitVec.ofNat_eq_ofNat]⟩) (by simp only [hf])
    refine (if_pos ?_).trans ?_
    · simp only [hf, BitVec.ofNat_eq_ofNat, and_self]
    · simp only [ht, getLsbD_eq_beq, hf, ofBool_beq]
  case fmtc =>
    refine (if_pos (by decide)).trans ?_
    rw [decodeCommon, ho]
    have ht := tagOf_of_tagLow (w := w) (.inr ⟨hi, by simp only [hf, BitVec.ofNat_eq_ofNat]⟩) (by simp only [hf])
    refine (if_pos ?_).trans ?_
    · simp only [hf, BitVec.ofNat_eq_ofNat, and_self]
    · simp only [ht, hf]
  -- The other rows check the fields that the encoder fixes.
  case nop | andK | orK | xorK | shl | shr | sra | cmp | bfi | bitc | plog | pmov | call | ret | jmpr | loop | lbrk | lcnt | slip |
      push | pop | align | time | waitt | exit | trap | cpy | cpyw | cpys | cas | casw | fence | xfence | pref | fjoin | fleave | fbar |
      fred | xph | xmit | msel | xend | bopen | bgive | bdup | bdrop | binfo | nparam | inst | signal | cfr | cfw | halt | tlbi | eret =>
    refine (if_pos (by decide)).trans ?_
    rw [decodeCommon, ho]
    refine (if_pos ?_).trans ?_
    · simp only [hf, BitVec.ofNat_eq_ofNat, and_self]
    · simp only [tagOf_eq, getLsbD_eq_beq, hf, tagOfBits_tagBits, ofBool_beq]
  case vadd | vsub | vmul | vfma | vfnma | vmin | vmax | vuna | vcmp | vsel | vcvt | vrcp | vrsq | vexp2 | vlog2 | vscl2 | vdot | vdota |
      vrsum | vrmax | vscan | vperm | vrot | vbcast | viadd | visub | vimul | vand | vor | vxor | vshl | vshr | vsra | vimnx | vicmp |
      vpack | vunpk | ldv | stv | vgath | vscat | vmset | vmlog | vmov | viota | vext | vins | pset | pgo | phalt | pstat =>
    refine ((if_neg (by decide)).trans (if_pos (by decide))).trans ?_
    rw [decodeVector, ho]
    refine (if_pos ?_).trans ?_
    · simp only [hf, BitVec.ofNat_eq_ofNat, and_self]
    · simp only [getLsbD_eq_beq, hf, ofBool_beq]
  case vqnt | vdqnt =>
    refine ((if_neg (by decide)).trans (if_neg (by decide))).trans ?_
    rw [decodeVec, ho]
    refine (if_pos ?_).trans ?_
    · simp only [hf, BitVec.ofNat_eq_ofNat]
    · simp only [getLsbD_eq_beq, hf, ofBool_beq]
  case mpath | csrw | segsum | segcar | vgathx =>
    refine ((if_neg (by decide)).trans (if_neg (by decide))).trans ?_
    rw [decodeSparse, ho]
    refine (if_pos ?_).trans ?_
    · simp only [hf, BitVec.ofNat_eq_ofNat, and_self]
    · simp only [getLsbD_eq_beq, hf, ofBool_beq]
  case sbit | smrg | skey | stopk | spay =>
    refine ((if_neg (by decide)).trans (if_neg (by decide))).trans ?_
    rw [decodeSort, ho]
    refine (if_pos ?_).trans ?_
    · simp only [hf, BitVec.ofNat_eq_ofNat, and_self]
    · simp only [getLsbD_eq_beq, hf, ofBool_beq]
  case clease | crel | ccfg | tri | mma | accz | accst | tzero | tshape | tld | tst | tcvt | teadd | temul | temax | tesub | tred | tix |
      cwait | tbcast =>
    refine (if_neg (by decide)).trans ?_
    rw [decodeCube, ho]
    refine (if_pos ?_).trans ?_
    · simp only [hf, BitVec.ofNat_eq_ofNat, and_self]
    · simp only [hf]
  case mrowz | mrowc | mloc | minv | mcomp | mexpd | mscrb | mmig | mred | mfill | mstat =>
    refine (if_neg (by decide)).trans ?_
    rw [decodeMem, ho]
    refine (if_pos ?_).trans ?_
    · simp only [hf, BitVec.ofNat_eq_ofNat, and_self]
    · simp only [getLsbD_eq_beq, hf, ofBool_beq]
  case rfetch | bfxm | swait | disp | qsave | qload | gdec | glnch | brnew | brfree | flknew | fltpop | resume | kill | qmap | prio =>
    refine (if_neg (by decide)).trans ?_
    rw [decodeDrover, ho]
    refine (if_pos ?_).trans ?_
    · simp only [hf, BitVec.ofNat_eq_ofNat, and_self]
    · simp only [getLsbD_eq_beq, hf, ofBool_beq]

theorem encode_of_ctorIdx_lt {i : Instr} (h : i.ctorIdx < 208) : ∃ w, encode i = some w := by
  cases i
  all_goals try exact ⟨_, rfl⟩
  all_goals exact absurd h (by decide)

/-- Settles O3. -/
theorem decodeOfEncodeIsTheInstruction : Obligations.DecodeOfEncodeIsTheInstruction :=
  fun _ hi => ⟨fun _ => decode_of_encode hi, encode_of_ctorIdx_lt⟩

end Sys2Proof

/-! SUPPORT. Every meaning answers a next state, and every move and step with it. -/

namespace Sys2Proof

namespace Machine

theorem execFbar_next (a : BitVec 6) (s : State) : ∃ t, execFbar a s = .next t := by
  unfold execFbar
  split
  · split <;> exact ⟨_, rfl⟩
  · exact ⟨_, rfl⟩

theorem execPolledWaitRetry_next (s : State) : ∃ t, execPolledWaitRetry s = .next t := by
  unfold execPolledWaitRetry
  split
  · split <;> exact ⟨_, rfl⟩
  · split <;> exact ⟨_, rfl⟩
  · exact ⟨_, rfl⟩

theorem execWaittExpire_next (s : State) : ∃ t, execWaittExpire s = .next t := by
  unfold execWaittExpire
  split
  · split <;> exact ⟨_, rfl⟩
  · exact ⟨_, rfl⟩

theorem execSwaitTimeout_next (s : State) : ∃ t, execSwaitTimeout s = .next t := by
  unfold execSwaitTimeout
  split
  · split <;> exact ⟨_, rfl⟩
  · exact ⟨_, rfl⟩

/-- A word is run, and a step of the part is a next state by its definition; four choose between such answers. -/
theorem exec_next (i : Instr) (s : State) : ∃ t, exec i s = .next t := by
  cases i
  case fbar a => exact execFbar_next a s
  case polledWaitRetry => exact execPolledWaitRetry_next s
  case waittExpire => exact execWaittExpire_next s
  case swaitTimeout => exact execSwaitTimeout_next s
  all_goals exact ⟨_, rfl⟩

theorem issueStep_next (c : CoreId) (σ : Strand) (s : State) : ∃ t, issueStep c σ s = .next t := by
  unfold issueStep
  split
  · split
    · exact exec_next ..
    · exact ⟨_, rfl⟩
    · split
      · exact ⟨_, rfl⟩
      · exact exec_next ..
  · exact ⟨_, rfl⟩

theorem moveStep_next (m : Sched) (s : State) : ∃ t, moveStep m s = .next t := by
  induction m generalizing s with
  | issue c σ => exact issueStep_next c σ s
  | step i x =>
    unfold moveStep
    split
    · exact ⟨_, rfl⟩
    · exact exec_next ..
  | late k a m ih =>
    obtain ⟨t, ht⟩ := ih { s with lapse := some (k, a) }
    exact ⟨_, by rw [moveStep, ht]⟩
  | _ => exact ⟨_, rfl⟩

theorem step_next (s : State) : ∃ t, step s = .next t := by
  unfold step
  split <;> exact moveStep_next ..

end Machine

open Sys2Proof.Machine

/-- Settles O5, by induction on the number of steps. -/
theorem noRunStops : Obligations.NoRunStops := by
  intro k
  induction k with
  | zero => exact fun s => ⟨s, rfl⟩
  | succ k ih =>
    intro s
    obtain ⟨t, ht⟩ := step_next s
    obtain ⟨u, hu⟩ := ih t
    refine ⟨u, ?_⟩
    have hs : core.step s = .next t := ht
    simp only [Host.Core.run, hs, hu]

end Sys2Proof

/-! SUPPORT. A word runs under its own tag (R12, R13, R19). -/

namespace Sys2Proof

open Sys2Proof.Machine

theorem wordTag_eq_tagOf (w : W32) : wordTag w = tagOf w := by
  have h : (w >>> 30).toNat = (w.extractLsb' 30 2).toNat := by
    simp [Nat.shiftRight_eq_div_pow]
    omega
  unfold wordTag tagOf
  rw [h] <;> rfl

/-- Every word but `FBAR` is run under a head with the tag of its word. -/
theorem exec_eq_run {i : Instr} {w : W32} (hi : WellFormed i = true) (h : encode i = some w) (hn : ∀ a, i ≠ .fbar a) (s : State) :
    ∃ (k : Head) (body : State → Iss Done), k.tag = wordTag w ∧ exec i s = s.run k body := by
  rw [wordTag_eq_tagOf]
  cases i
  all_goals try exact absurd h.symm (Option.some_ne_none w)
  case fbar a => exact absurd rfl (hn a)
  all_goals
    have hf := (eq_iff_shows _ w).1 (Option.some.inj h)
    simp only [shows_append] at hf
    simp only [Shows, Nat.reduceAdd] at hf
    refine ⟨_, _, ?_, rfl⟩
  case fadd | fmul | ffma | fmnx | fcmp | fcvt | ldf | stf | fefill =>
    exact (tagOf_of_tagLow (.inl ⟨hi, by simp only [hf, BitVec.ofNat_eq_ofNat]⟩) (by simp only [hf])).symm
  case fmtc => exact (tagOf_of_tagLow (.inr ⟨hi, by simp only [hf, BitVec.ofNat_eq_ofNat]⟩) (by simp only [hf])).symm
  all_goals
    have ht := tagOf_eq w
    simp only [hf, tagOfBits_tagBits] at ht
    exact ht.symm

theorem wordTag_fbar {a : BitVec 6} {w : W32} (h : encode (.fbar a) = some w) : wordTag w = .W := by
  have hf := (eq_iff_shows _ w).1 (Option.some.inj h)
  simp only [shows_append] at hf
  simp only [Shows, Nat.reduceAdd] at hf
  rw [wordTag_eq_tagOf, tagOf_eq, hf.1.1.1]
  rfl

/-- Settles O9. -/
theorem wordsOfOtherStrandsArePassedOver : Obligations.WordsOfOtherStrandsArePassedOver := by
  intro s i w hi h
  refine ⟨fun ht => ?_, fun hn hw hs => ?_⟩
  · have hn : ∀ a, i ≠ .fbar a := by
      rintro a rfl
      rw [wordTag_fbar h] at ht
      exact nomatch ht
    obtain ⟨k, body, hk, he⟩ := exec_eq_run hi h hn s
    rw [he]
    exact run_other (by rw [hk, ht])
  · obtain ⟨k, body, hk, he⟩ := exec_eq_run hi h hn s
    rw [he]
    exact run_slip (by rw [hk, hw]; rfl) (hk.trans hw) hs

end Sys2Proof

/-! SUPPORT. What a byte of memory reads as after several bytes were written or a range was cleared, and that a list of cells in its canonical
form is known by what it reads. -/

namespace Sys2Proof.Machine

theorem getD_cons_sub_add_one (b : Byte) (d : List Byte) {a k : Nat} (h : a + 1 ≤ k) : (b :: d).getD (k - a) 0 = d.getD (k - (a + 1)) 0 := by
  rw [show k - a = k - (a + 1) + 1 by omega, List.getD_cons_succ]

theorem cget_cwrite {m : List Host.Cell} (a k : Nat) (d : List Byte) (h : Memory.wf m = true) :
    cget (cwrite m a d) k = if a ≤ k ∧ k < a + d.length then d.getD (k - a) 0 else cget m k := by
  induction d generalizing m a with
  | nil => rw [if_neg (by simp)]; rfl
  | cons b d ih =>
    have hlen : (b :: d).length = d.length + 1 := rfl
    rw [cwrite, ih (a + 1) (wf_cset a b h), cget_cset a b k h, hlen]
    by_cases hk : k = a
    · subst hk
      rw [if_neg (by omega), if_pos rfl, if_pos (by omega), Nat.sub_self, List.getD_cons_zero]
    · rw [if_neg hk]
      by_cases hr : a + 1 ≤ k ∧ k < a + 1 + d.length
      · rw [if_pos hr, if_pos (by omega), getD_cons_sub_add_one b d hr.1]
      · rw [if_neg hr, if_neg (by omega)]

theorem cget_filter_from {m : List Host.Cell} {b : Nat} (p : Nat → Bool) (h : cellsFrom b m = true) (k : Nat) :
    cget (m.filter fun e => p e.1) k = if p k = true then cget m k else emptyByte := by
  induction m generalizing b with
  | nil => simp [cget]
  | cons e t ih =>
    obtain ⟨i, w⟩ := e
    simp only [cellsFrom, Bool.and_eq_true, decide_eq_true_eq] at h
    obtain ⟨⟨hb, hw⟩, ht⟩ := h
    have hbelow : ∀ j ≤ i, cget t j = emptyByte := fun j hj => cget_below ht (by omega)
    by_cases hp : p i = true
    · rw [List.filter_cons, if_pos hp, cget, cget, ih ht]
      by_cases hik : i = k
      · subst hik; simp [hp]
      · simp only [hik, if_false]
        split <;> simp
    · rw [List.filter_cons, if_neg hp, ih ht, cget]
      by_cases hik : i = k
      · subst hik; simp [hp]
      · simp only [hik, if_false]
        by_cases hlt : k < i
        · simp [hlt, hbelow k (by omega)]
        · simp [hlt]

theorem cget_cclear {m : List Host.Cell} (a k n : Nat) (h : Memory.wf m = true) :
    cget (cclear m a n) k = if a ≤ k ∧ k < a + n then 0 else cget m k := by
  rw [cclear, cget_filter_from (fun i => decide (i < a) || decide (a + n ≤ i)) h]
  by_cases hr : a ≤ k ∧ k < a + n
  · rw [if_pos hr, if_neg (by simp; omega)]; rfl
  · rw [if_neg hr, if_pos (by simp; omega)]

theorem cread_cwrite {m : List Host.Cell} (a : Nat) (d : List Byte) (h : Memory.wf m = true) : cread (cwrite m a d) a d.length = d := by
  apply List.ext_getElem (by simp [cread])
  intro k h1 h2
  simp [cread, cget_cwrite _ _ _ h, h2]

/-- A canonical list that reads as empty everywhere holds nothing. -/
theorem eq_nil_of_cget {m : List Host.Cell} {b : Nat} (h : cellsFrom b m = true) (hg : ∀ j, cget m j = emptyByte) : m = [] := by
  cases m with
  | nil => rfl
  | cons e t =>
    have := hg e.1
    simp_all [cellsFrom, cget]

/-- Two canonical lists that read alike are the same: their first cells are, for each is the lowest address that does not read as empty. -/
theorem eq_of_cget {m n : List Host.Cell} {b c : Nat} (hm : cellsFrom b m = true) (hn : cellsFrom c n = true)
    (hg : ∀ j, cget m j = cget n j) : m = n := by
  induction m generalizing n b c with
  | nil => exact (eq_nil_of_cget hn fun j => (hg j).symm).symm
  | cons e t ih =>
    cases n with
    | nil => exact eq_nil_of_cget hm hg
    | cons f u =>
      obtain ⟨i, v⟩ := e
      obtain ⟨j, w⟩ := f
      simp only [cellsFrom, Bool.and_eq_true, decide_eq_true_eq] at hm hn
      obtain ⟨⟨-, hv⟩, ht⟩ := hm
      obtain ⟨⟨-, hw⟩, hu⟩ := hn
      have hi := hg i
      have hj := hg j
      simp only [cget, if_true] at hi hj
      have hij : i = j := by
        refine Decidable.byContradiction fun hne => ?_
        rw [if_neg (Ne.symm hne)] at hi
        rw [if_neg hne] at hj
        by_cases hlt : i < j
        · rw [if_pos hlt] at hi; exact hv hi
        · rw [if_pos (by omega)] at hj; exact hw hj.symm
      subst hij
      rw [if_pos rfl] at hi
      subst hi
      have htu : t = u := ih ht hu fun k => by
        by_cases hk : k < i + 1
        · rw [cget_below ht hk, cget_below hu hk]
        · have := hg k
          simpa [cget, show ¬i = k by omega, show ¬k < i by omega] using this
      rw [htu]

end Sys2Proof.Machine

namespace Sys2Proof

open Sys2Proof.Machine

/-- Settles O7. -/
theorem memoryReadsAsItWasWritten : Obligations.MemoryReadsAsItWasWritten := fun _ a k n b d h =>
  ⟨wf_cset a b h, wf_cwrite a d h, wf_cclear a n h, cget_cset a b k h, cget_cwrite a k d h, cget_cclear a k n h, cread_cwrite a d h,
    fun _ h' hg => eq_of_cget h h' hg⟩

end Sys2Proof

/-! SUPPORT. What a step does with what stands first on the agenda, and where the agenda is empty (log 1). -/

namespace Sys2Proof

namespace Machine

variable {s u : State} {c : CoreId} {σ : Strand} {n : Nat} {w : W32} {m : Sched}

theorem step_of_agenda {rest : List Sched} (h : s.agenda = m :: rest) : step s = moveStep m { s.tick with agenda := rest } := by
  rw [step, h]

theorem step_of_empty (h : s.agenda = []) : step s = moveStep s.nextMove.1 s.nextMove.2.tick := by
  rw [step, h]

theorem issueStep_instr {i : Instr} (hc : u.canIssue c σ = true) (hf : u.fetch c σ = .word n w) (hd : decode (coreCls c) w = some i) :
    issueStep c σ u = exec i (({ u with cur := c, strand := σ } : State).atWord n) := by
  simp only [issueStep, hc, hf, hd, if_true]

theorem issueStep_badWord (hc : u.canIssue c σ = true) (hf : u.fetch c σ = .word n w) (hd : decode (coreCls c) w = none) :
    issueStep c σ u = .next ((({ u with cur := c, strand := σ } : State).atWord n).badWord w) := by
  simp only [issueStep, hc, hf, hd, if_true]

theorem issueStep_loopEnd (hc : u.canIssue c σ = true) (hf : u.fetch c σ = .loopEnd) :
    issueStep c σ u = exec .loopEnd { u with ev := { EvArg.zero with core := c, strand := some σ } } := by
  simp only [issueStep, hc, hf, if_true]

theorem issueStep_past (hc : u.canIssue c σ = true) (hf : u.fetch c σ = .past) :
    issueStep c σ u = .next ({ u with cur := c, strand := σ } : State).pastEnd := by
  simp only [issueStep, hc, hf, if_true]

theorem issueStep_idle (hc : u.canIssue c σ = false) : issueStep c σ u = .next u := by
  simp only [issueStep, hc, Bool.false_eq_true, if_false]

/-- With an empty agenda a request moves whose wait is over: as if it stood on the agenda alone. -/
theorem step_of_wait {rest : List (Nat × Sched)} (h : s.agenda = []) (hw : s.waits = (n, m) :: rest) (hn : n ≤ s.turn) :
    step s = step { s with agenda := [m], waits := rest } := by
  have hm : s.nextMove = (m, { s with waits := rest }) := by rw [State.nextMove, hw]; exact if_pos hn
  rw [step_of_empty h, hm, step_of_agenda rfl]
  simp only [h, State.tick]

/-- Else the rotation moves: as if its next stood on the agenda alone. -/
theorem step_of_rotation {rest : List (Nat × Sched)} (h : s.agenda = []) (hw : s.waits = [] ∨ (s.waits = (n, m) :: rest ∧ s.turn < n)) :
    step s = step { s with agenda := [rotation s.turn], turn := s.turn + 1 } := by
  have hm : s.nextMove = (rotation s.turn, { s with turn := s.turn + 1 }) := by
    obtain hw | ⟨hw, hn⟩ := hw
    · rw [State.nextMove, hw]
    · rw [State.nextMove, hw]; exact if_neg (by omega)
  rw [step_of_empty h, hm, step_of_agenda rfl]
  simp only [h, State.tick]

end Machine

open Sys2Proof.Machine

/-- Settles O2. -/
theorem writtenWordsDecode : Obligations.WrittenWordsDecode := by
  unfold Obligations.WrittenWordsDecode
  decide

/-- Settles O1. -/
theorem stepRunsTheDecodedInstruction : Obligations.StepRunsTheDecodedInstruction := by
  intro s u v m rest c σ n k a w i x m' waits req
  refine ⟨fun ha hu hv => ?_, fun ha => ⟨fun hw hn => ?_, fun hw => ?_⟩⟩
  · rw [step_of_agenda ha, ← hu, hv]
    refine ⟨?_, ?_, ?_, ?_, ?_, ?_, ?_⟩
    · rintro rfl
      exact ⟨issueStep_instr, issueStep_badWord, issueStep_loopEnd, issueStep_past, issueStep_idle⟩
    · rintro rfl
      exact ⟨fun hb => if_neg (by simp [hb]), fun hb => if_pos hb⟩
    all_goals
      rintro rfl
      rfl
  · exact step_of_wait ha hw hn
  · exact step_of_rotation ha hw

/-- Settles O6. -/
theorem resetLeavesWhatTheSpecSays : Obligations.ResetLeavesWhatTheSpecSays := by
  refine ⟨rfl, rfl, rfl, rfl, rfl, ?_, ?_, ?_, ?_, ?_⟩
  · exact ⟨rfl, rfl, fun _ => rfl, fun _ _ => rfl, fun _ => rfl, fun _ => rfl, rfl, rfl, rfl⟩
  · exact fun _ => ⟨rfl, rfl, rfl, rfl, rfl, rfl, rfl, rfl, rfl⟩
  · exact fun _ _ _ => ⟨rfl, rfl⟩
  · exact fun _ => rfl
  · exact fun _ _ => ⟨rfl, rfl, rfl⟩

end Sys2Proof

/-! SUPPORT. A word whose head does not allow it raises `ILLEGAL`, whatever phase its strand is in (R53). -/

namespace Sys2Proof

namespace Machine

variable {s : State} {t : Tag} {l : Bool} {r a b : BitVec 6} {body : State → Iss Done}

/-- `headOf` with what is not allowed: neither a phase nor a privilege is asked for. -/
theorem run_headOf_false (hrun : tagRuns t s.strand = true) (hslip : t = .W → slipFree s.tm s.strand = true) (hl : l = false) :
    s.run (headOf t l) body = .next (s.faulted .ILLEGAL 0 0) :=
  run_illegal (h := headOf t l) hrun hslip hl

/-- X and W words of the scalar half stand on MEM and DROVER cores alone (R48). -/
theorem tagInt_eq_false_iff (k : Cls) (t : Tag) : tagInt k t = false ↔ (t = .W ∨ t = .X) ∧ k ≠ .mem ∧ k ≠ .drover := by
  cases t <;> cases k <;> decide

/-- X of a CUBE core has no registers (R100). -/
theorem reg_not_ok_of_cubeX (hc : s.cls = .cube) (hx : s.strand = .X) (hr : r.toNat < 48) : s.srcOk r = false ∧ s.destOk r = false := by
  have hcube : s.cubeX = true := by simp [State.cubeX, hc, hx]
  simp [State.srcOk, State.destOk, hr, hcube]

theorem destOk_eq_false (h : 48 ≤ r.toNat) (h' : r.toNat < 62) : s.destOk r = false := by
  simp [State.destOk, show ¬r.toNat < 48 by omega, h']

end Machine

open Sys2Proof.Machine

/-- Settles O10. -/
theorem illegalFormsRaiseIllegal : Obligations.IllegalFormsRaiseIllegal := by
  intro s t d r a b f i n hrun hslip
  refine ⟨?_, ?_, fun hl => ?_, fun hl => ?_, tagInt_eq_false_iff s.cls t, reg_not_ok_of_cubeX, destOk_eq_false⟩
  · simp only [List.forall_mem_cons, List.not_mem_nil, false_implies, implies_true, and_true]
    refine ⟨?_, ?_, ?_, ?_, ?_, ?_, ?_, ?_, ?_, ?_, ?_, ?_, ?_, ?_, ?_⟩
    all_goals exact run_headOf_false hrun hslip
  · simp only [List.forall_mem_cons, List.not_mem_nil, false_implies, implies_true, and_true]
    refine ⟨?_, ?_, ?_, ?_, ?_, ?_, ?_⟩
    all_goals exact run_headOf_false hrun hslip
  · exact run_headOf_false hrun hslip hl
  · exact run_headOf_false hrun hslip hl

end Sys2Proof

/-! SUPPORT. The checks of an access one by one (R135, R136): what each asks for, and in which order they are made. -/

namespace Sys2Proof

namespace Machine

variable {s : State} {w : Who} {base ea : W64} {n al pol : Nat}

theorem bits_eq_zero_iff (x : W64) (lo m hi : Nat) (h : hi + 1 - lo = m) : bits x.toNat hi lo = 0 ↔ x.extractLsb' lo m = 0 := by
  rw [← BitVec.toNat_inj]
  simp [bits, h, Nat.shiftRight_eq_div_pow]

theorem toNat_extractLsb'_eq_bits (x : W64) (lo m hi : Nat) (h : hi + 1 - lo = m) : (x.extractLsb' lo m).toNat = bits x.toNat hi lo := by
  simp [bits, h, Nat.shiftRight_eq_div_pow]

theorem tagNum_eq_iff : tagNum ea = tagNum base ↔ ea >>> 60 = base >>> 60 := BitVec.toNat_inj

/-- The dies whose cores have a cluster scratchpad, and those with a scratchpad of the die (R272). -/
theorem clusterCores_pos_iff (k : Config.DieKind) : 0 < Config.clusterCores k ↔ k = .vec ∨ k = .spr ∨ k = .srt ∨ k = .cub := by
  cases k <;> decide

theorem dspSize_pos_iff (k : Config.DieKind) : 0 < Config.dspSize k ↔ k = .cub ∨ k = .spr ∨ k = .srt := by
  cases k <;> decide

/-- The spaces that a base pointer may name (R135 step 1). -/
theorem spaceOk_iff {k : Config.DieKind} {tag : Nat} (hk : Config.kindAt w.c.site = k) (ht : tagNum base = tag) :
    s.spaceOk w base pol = true ↔ tag = 0 ∨ (tag = 1 ∧ pol = 0 ∧ (k = .vec ∨ k = .spr ∨ k = .srt ∨ k = .cub)) ∨ tag = 2 ∨
      (tag = 3 ∧ (pol = 0 ∨ pol = 3)) ∨ (tag = 4 ∧ pol = 0) ∨
      (tag = 5 ∧ pol = 0 ∧ (k = .cub ∨ k = .spr ∨ k = .srt)) ∨ (tag = 6 ∧ pol = 0) := by
  rw [State.spaceOk, ht, hk, ← clusterCores_pos_iff, ← dspSize_pos_iff]
  split <;> simp_all

/-- The bits of an effective address that must be zero, and the peer that it may name (R135 step 3, R458). -/
theorem eaOk_iff {tag : Nat} (ht : tagNum ea = tag) :
    s.eaOk w ea = true ↔ (tag = 0 → ea.extractLsb' 52 8 = 0) ∧ (tag = 2 → ea.extractLsb' 48 12 = 0) ∧ (tag = 4 → ea.extractLsb' 57 3 = 0) ∧
      (tag = 6 → ea.extractLsb' 32 28 = 0) ∧ (tag = 3 → s.peerOk w (ea.extractLsb' 48 12).toNat = true) := by
  rw [State.eaOk, mbzOk, ht, toNat_extractLsb'_eq_bits ea 48 12 59 rfl, ← bits_eq_zero_iff ea 52 8 59 rfl,
    ← bits_eq_zero_iff ea 48 12 59 rfl, ← bits_eq_zero_iff ea 57 3 59 rfl, ← bits_eq_zero_iff ea 32 28 59 rfl]
  split <;> simp_all [Decidable.imp_iff_not_or]

theorem privOk_iff {tag : Nat} (ht : tagNum ea = tag) :
    (tagNum ea != 6 || coreCls w.c == .drover) = true ↔ (tag = 6 → coreCls w.c = .drover) := by
  simp [ht, Decidable.or_iff_not_imp_left]

/-- One check after another (R135 to R137): the first that fails says how the access ends. -/
theorem checkEa_eq (s : State) (w : Who) (base ea : W64) (n al pol : Nat) : s.checkEa w base ea n al pol =
    if s.spaceOk w base pol = true then
      if tagNum ea = tagNum base then
        if s.eaOk w ea = true then
          if (tagNum ea != 6 || coreCls w.c == .drover) = true then
            if ea.toNat % al = 0 then
              if s.rangeOk w ea n = true then .ok (spotOf w ea) else flt .BOUNDS ea 0
            else flt .ALIGN ea 0
          else flt .PRIV ea 0
        else flt .SPACE ea 0
      else flt .BOUNDS ea 0
    else flt .SPACE ea 0 := by
  simp only [State.checkEa, State.checkSpace, need, beq_iff_eq]
  repeat' split
  all_goals rfl

end Machine

open Sys2Proof.Machine

/-- Settles O13: each check in its place among `checkEa_eq`. -/
theorem accessChecksAreMadeInOrder : Obligations.AccessChecksAreMadeInOrder := by
  intro s w base ea n al pol k tag r space same zero priv
  have hspace : s.spaceOk w base pol = true ↔ space := spaceOk_iff rfl rfl
  have hsame : tagNum ea = tagNum base ↔ same := tagNum_eq_iff
  have hzero (h : same) : s.eaOk w ea = true ↔ zero := eaOk_iff (hsame.2 h)
  have hpriv (h : same) : (tagNum ea != 6 || coreCls w.c == .drover) = true ↔ priv := privOk_iff (hsame.2 h)
  have hr : r = _ := checkEa_eq s w base ea n al pol
  rw [hr]
  refine ⟨fun h1 => ?_, fun h1 h2 => ?_, fun h1 h2 h3 => ?_, fun h1 h2 h3 h4 => ?_, fun h1 h2 h3 h4 h5 => ?_,
    fun h1 h2 h3 h4 h5 h6 => ?_, fun h1 h2 h3 h4 h5 h6 => ?_, fun ht h2 _ => ?_⟩
  · rw [if_neg (mt hspace.1 h1)]
  · rw [if_pos (hspace.2 h1), if_neg (mt hsame.1 h2)]
  · rw [if_pos (hspace.2 h1), if_pos (hsame.2 h2), if_neg (mt (hzero h2).1 h3)]
  · rw [if_pos (hspace.2 h1), if_pos (hsame.2 h2), if_pos ((hzero h2).2 h3), if_neg (mt (hpriv h2).1 h4)]
  · rw [if_pos (hspace.2 h1), if_pos (hsame.2 h2), if_pos ((hzero h2).2 h3), if_pos ((hpriv h2).2 h4), if_neg h5]
  · rw [if_pos (hspace.2 h1), if_pos (hsame.2 h2), if_pos ((hzero h2).2 h3), if_pos ((hpriv h2).2 h4), if_pos h5, if_neg (by simp [h6])]
  · rw [if_pos (hspace.2 h1), if_pos (hsame.2 h2), if_pos ((hzero h2).2 h3), if_pos ((hpriv h2).2 h4), if_pos h5, if_pos h6]
  · have hea : tagNum ea = 2 := (hsame.2 h2).trans ht
    rw [State.rangeOk, hea]
    exact decide_eq_true_iff

end Sys2Proof

/-! SUPPORT. The checks of a transfer's target and of the bodies that it may not leave (R17, R56, R122), and how a word of the control group
ends that goes on, transfers control or begins a wait. -/

namespace Sys2Proof

namespace Machine

variable {s u : State} {t : Tag} {l : Bool} {n : Int} {f : Option Flt} {body : State → Iss Done}

theorem need_ok {b : Bool} (h : b = true) (c : Code) (a : W64) (k : Nat) : need b c a k = .ok () := by rw [need, if_pos h]

theorem inText_iff : inText n = true ↔ 0 ≤ n ∧ n.toNat < 16384 := by simp [inText]

/-- A transfer of one strand alone stays in its span, a W-tagged one in the window where its strand checks it. -/
theorem targetOk_ok {mine : Bool}
    (hspan : t ≠ .W → (0 ≤ n ∧ n.toNat < 16384) ∧ spanNo (s.text s.cur) n.toNat = spanNo (s.text s.cur) s.st.pc)
    (hwin : t = .W → mine = true → 0 ≤ n ∧ n.toNat < 16384) : s.targetOk t n mine = .ok () := by
  unfold State.targetOk
  by_cases ht : t = .W
  · subst ht
    by_cases hm : mine = true
    · simp [hm, need_ok (inText_iff.2 (hwin rfl hm))]
    · simp [hm]
  · obtain ⟨hin, hsame⟩ := hspan ht
    simp [ht, inText_iff.2 hin, hsame, need]

theorem bodiesOk_ok (h : ∀ l ∈ s.st.loops, inBody l s.st.pc = (decide (0 ≤ n) && inBody l n.toNat)) : s.bodiesOk n = .ok () :=
  need_ok (List.all_eq_true.2 fun l hl => beq_iff_eq.2 (h l hl)) ..

theorem pushBq_ok {v : BqVal} (hx : (s.tm.a.exited || s.tm.x.exited) = false) (hroom : s.tm.bq.length < 32) :
    s.pushBq v = .ok (s.setTm { s.tm with bq := s.tm.bq ++ [{ val := v, popA := false, popX := false }] }) := by
  simp [State.pushBq, hx, hroom]

theorem pushBq_queue {v : BqVal} (hx : (s.tm.a.exited || s.tm.x.exited) = true) : s.pushBq v = flt .QUEUE 0 0 := by
  simp [State.pushBq, hx]

theorem follows_eq (ht : t = .W) (hs : s.strand ≠ .C) : s.follows t = true := by simp [State.follows, ht, hs]

theorem not_follows_of_C (hs : s.strand = .C) : s.follows t = false := by simp [State.follows, hs]

theorem not_follows_of_ne (ht : t ≠ .W) : s.follows t = false := by simp [State.follows, ht]

/-- The word of a control instruction with the fault of check 5 that it would meet in a phase, which is not asked for outside one. -/
theorem run_target_goOn (hi : s.Issues t false) (hl : l = true) (hb : body s = .ok u.goOn) :
    s.run { headOf t l with target := f } body = .next (u.past t) :=
  run_past (h := { headOf t l with target := f }) hi hl nofun hb

theorem run_target_goTo {k : Nat} (hi : s.Issues t false) (hl : l = true) (hb : body s = .ok (u.goTo k)) :
    s.run { headOf t l with target := f } body = .next (u.jumped t k) :=
  run_ok (h := { headOf t l with target := f }) hi hl nofun hb rfl rfl

theorem run_target_fault {x : Flt} (hi : s.Issues t false) (hl : l = true) (hb : body s = .error (.fault x)) :
    s.run { headOf t l with target := f } body = .next (s.takeFault s.st.pc s.st.pc x) :=
  run_fault (h := { headOf t l with target := f }) hi hl nofun hb

/-- A branch goes to its target where its outcome is true, and on where it is not. -/
theorem run_target_branch {b : Bool} {k : Nat} (hi : s.Issues t false) (hl : l = true)
    (hb : body s = .ok (if b then u.goTo k else u.goOn)) :
    s.run { headOf t l with target := f } body = .next (if b = true then u.jumped t k else u.past t) := by
  cases b with
  | false => exact run_target_goOn hi hl hb
  | true => exact run_target_goTo hi hl hb

end Machine

open Sys2Proof.Machine

/-- Settles O20: the target is checked, then the bodies, then the outcome is taken from the strand's own state, pushed or popped. -/
theorem transfersGoWhereTheySay : Obligations.TransfersGoWhereTheySay := by
  intro s u v t c i a x b hi pc inWindow inSpan bodies tgt
  refine ⟨fun hc ht hspan hb => ?_, fun hc ht hs hwin hb hroom hx hv => ?_, fun hc ht hs hwin hb hx => ?_, fun hc ht hs hb hpop => ?_,
    fun hspan hwin hlink => ?_, fun n rest hn hspan hwin => ?_, fun ht ha h hspan hb => ?_, fun ht hs ha h hwin hb hroom hx hv => ?_,
    fun ht hs hpop hb => ?_⟩
  · have htgt : s.targetOk t (dispTarget s.st.pc i) (s.strand == .C) = .ok () := targetOk_ok (fun _ => hspan) fun h => absurd h ht
    refine run_target_branch hi (bne_iff_ne.2 hc) ?_
    simp [htgt, bodiesOk_ok (n := dispTarget s.st.pc i) hb, not_follows_of_ne ht, ht, bind, Except.bind]
    rfl
  · subst ht hv
    have htgt : s.targetOk .W (dispTarget s.st.pc i) (s.strand == .C) = .ok () := targetOk_ok (fun h => absurd rfl h) fun _ _ => hwin
    refine run_target_branch hi (bne_iff_ne.2 hc) ?_
    simp [htgt, bodiesOk_ok (n := dispTarget s.st.pc i) hb, not_follows_of_C hs, pushBq_ok hx hroom, bind, Except.bind, Except.map]
    rfl
  · subst ht
    have htgt : s.targetOk .W (dispTarget s.st.pc i) (s.strand == .C) = .ok () := targetOk_ok (fun h => absurd rfl h) fun _ _ => hwin
    refine run_target_fault hi (bne_iff_ne.2 hc) ?_
    simp [htgt, bodiesOk_ok (n := dispTarget s.st.pc i) hb, not_follows_of_C hs, pushBq_queue hx, bind, Except.bind, Except.map, flt]
  · subst ht
    have htgt : s.targetOk .W (dispTarget s.st.pc i) (s.strand == .C) = .ok () :=
      targetOk_ok (fun h => absurd rfl h) fun _ h => absurd (eq_of_beq h) hs
    refine run_target_branch hi (bne_iff_ne.2 hc) ?_
    simp [htgt, bodiesOk_ok (n := dispTarget s.st.pc i) hb, follows_eq rfl hs, hpop, bqTrue, bind, Except.bind, Except.map]
    rfl
  · have htgt : s.targetOk t (dispTarget s.st.pc i) (s.strand == .C) = .ok () :=
      targetOk_ok hspan fun ht h => hwin ht (eq_of_beq h)
    refine run_target_goTo hi rfl ?_
    simp [htgt, need, hlink, bind, Except.bind]
    rfl
  · have htgt : s.targetOk t n true = .ok () := targetOk_ok hspan fun ht _ => hwin ht
    refine run_target_goTo hi rfl ?_
    simp [hn, htgt, bind, Except.bind]
  · obtain ⟨hpops, hsrc⟩ := h
    have htgt : s.targetOk t (x.toNat : Int) true = .ok () := targetOk_ok (fun _ => hspan) fun h => absurd h ht
    refine run_target_goTo hi (by simp [ha]) ?_
    simp [not_follows_of_ne ht, ht, hpops, hsrc, htgt, bodiesOk_ok hb, bind, Except.bind]
  · subst ht hv
    obtain ⟨hpops, hsrc⟩ := h
    have htgt : s.targetOk .W (x.toNat : Int) true = .ok () := targetOk_ok (fun h => absurd rfl h) fun _ _ => hwin
    refine run_target_goTo hi (by simp [ha]) ?_
    simp [not_follows_of_C hs, hpops, hsrc, htgt, bodiesOk_ok hb, pushBq_ok hx hroom, bind, Except.bind]
  · subst ht
    have hf : s.follows .W = true := follows_eq rfl hs
    refine run_target_goTo hi (by rw [hf, Bool.true_or]) ?_
    simp [hf, hpop, bqNum, bodiesOk_ok hb, bind, Except.bind]

end Sys2Proof

/-! SUPPORT. What retiring a word does to the strands of its team (R14, R18, R39, R165), and where a `LOOP` that opens its loop leaves the
flow (R122). -/

namespace Sys2Proof

namespace Machine

@[simp] theorem heldSwap_team (σ : Strand) (now : Nat) (k : CoreSt) : (heldSwap σ now k).team = k.team := by
  unfold heldSwap CoreSt.askLeave
  split
  · rfl
  · dsimp only
    split <;> rfl

@[simp] theorem preemptHeld_str (σ τ : Strand) (now : Nat) (k : CoreSt) : (preemptHeld σ now k).team.str τ = k.team.str τ := by
  unfold preemptHeld CoreSt.askLeave
  dsimp only
  split
  · rfl
  · split <;> cases τ <;> rfl

/-- After its word the running strand stands at the next one, in sequential flow or not. -/
theorem st_retire (s : State) (w : Bool) (n : Nat) (flow : Bool) : (s.retire w n flow).st =
    { s.st with pc := n, org := if flow then some s.st.pc else none, hold := .none, feDone := none,
                span := if w then s.st.span + 1 else s.st.span } := by
  unfold State.retire
  simp only [State.st, State.tm, State.team, State.setSt, State.setTm, setCore_cur, setCore_strand, setTeam_cur, setTeam_strand,
    core_setCore, heldSwap_team, preemptHeld_str, core_setTeam, str_setStr]

/-- Where the flow of the running strand comes from after a word. -/
def orgAfter : Host.Outcome State Fault Refusal → Option Nat
  | .next u => u.st.org
  | _ => none

/-- The reset state with C at word 0 and a count of 1 in r0. -/
def countInR0 : State := State.reset.setSt { State.reset.st with regs := [(0, 1)] }

theorem issues_countInR0 : countInR0.Issues .W false := ⟨rfl, fun _ => by decide, nofun⟩

theorem orgAfter_loop_countInR0 : orgAfter (exec (.loop 0 0 1) countInR0) = some 0 := by decide

end Machine

open Sys2Proof.Machine

/-- Refutes O21: where the count is not 0 the model retires `LOOP` as sequential flow (it keeps the word it comes from in `org`), and the
statement says a transfer. -/
theorem not_loopWordsOpenPassAndClose : ¬ Obligations.LoopWordsOpenPassAndClose := by
  intro h
  have hopen := (h.1 countInR0 countInR0 _ 0 0 1 1 issues_countInR0 (by decide) (by decide) (by decide)
    (.inl ⟨rfl, rfl, ⟨rfl, rfl⟩, by decide, by decide, rfl⟩)).2 (by decide)
  have horg := congrArg orgAfter hopen
  rw [orgAfter_loop_countInR0, orgAfter, st_retire] at horg
  exact absurd horg (by simp)

end Sys2Proof

/-! SUPPORT. How a coordination word ends that begins a wait or raises its trap (R131, R133), and the queue that `POP` takes from. -/

namespace Sys2Proof

namespace Machine

variable {s u : State} {t : Tag} {l : Bool} {a : BitVec 6} {x : W64} {body : State → Iss Done}

theorem run_headOf_waitOn {k : Nat} (hi : s.Issues t false) (hl : l = true) (hb : body s = .ok (u.waitOn k)) :
    s.run (headOf t l) body = .next (u.noteHold (.longWait k)) :=
  run_held (h := headOf t l) hi hl nofun hb rfl

theorem run_headOf_trap {f : Flt} (hi : s.Issues t false) (hl : l = true) (hb : body s = .ok { u.goOn with trap := some f }) :
    s.run (headOf t l) body = .next ((u.past t).takeFault s.st.pc (u.st.pc + 1) f) :=
  run_trap (h := headOf t l) (d := { u.goOn with trap := some f }) hi hl nofun hb rfl rfl

theorem popNamed_cons {k : QName} {e : QEnt} {q : List QEnt} (h : s.tm.q k = e :: q) :
    s.popNamed k = .ok (e.val, s.setTm (s.tm.setQ k q)) := by
  rw [State.popNamed, h]

theorem popCheck_one {n : Nat} (h : 1 ≤ n) (gone : Bool) : popCheck n 1 gone = .ok () := if_pos h

end Machine

open Sys2Proof.Machine

/-- Settles O22: each word by its body, with the operand that it reads. -/
theorem coordinationWordsComplete : Obligations.CoordinationWordsComplete := by
  refine ⟨fun s u t r a n x k => ⟨fun hi => ?_, fun hi hn hle => ⟨fun hs => ?_, fun hs => ?_⟩,
    fun hi => ⟨fun ht hs => ?_, fun ht hs => ?_, fun ht => ?_, fun ht hq hp hroom => ⟨fun hix ha h => ?_, fun hix hpops => ?_⟩,
      fun ht hq hc e q he hr => ⟨fun hix hd => ?_, fun hix => ?_⟩,
      fun hd hr => ⟨fun hn => ?_, fun hn => ?_, fun hn => ?_⟩, fun ha h hn => ⟨fun hle => ?_, fun hlt => ?_⟩⟩,
    fun hi hserr => ?_⟩, fun s u t a n x hi => ⟨fun ht ha h => ?_, fun ht hs => ?_⟩⟩
  case refine_1 => exact run_past (h := { tag := t, legal := true, priv := false, phase := t == .X }) hi rfl nofun rfl
  case refine_2 | refine_3 =>
    have hl : (n != 0 && decide (n ≤ 64)) = true := by
      rw [bne_iff_ne.2 hn, Bool.true_and, decide_eq_true_eq]
      exact hle
    exact run_headOf hi hl (by simp [hs])
  case refine_4 => exact run_headOf hi (by obtain rfl | rfl := ht <;> rfl) (by simp [hs])
  case refine_5 => exact run_headOf hi (by rw [ht]; rfl) (by simp [hs])
  case refine_6 => exact run_headOf hi ht (by simp only [List.isEmpty_iff])
  case refine_7 =>
    obtain ⟨hpops, hsrc⟩ := h
    exact run_headOf hi (by simp [tagCAX, ht, ha, hq, hp]) (by simp [hq, hpops, hroom, hix, hsrc, bind, Except.bind])
  case refine_8 => exact run_headOf hi (by simp [tagCAX, ht, hix, hq, hp]) (by simp [hq, hpops, hroom, hix, bind, Except.bind])
  case refine_9 =>
    exact run_headOf hi (by simp [tagCAX, ht, hd, hq, hc])
      (by simp [hq, he, popCheck_one, popNamed_cons he, hr, hix, bind, Except.bind])
  case refine_10 =>
    exact run_headOf hi (by simp [tagCAX, ht, hix, hq, hc])
      (by simp [hq, he, popCheck_one, popNamed_cons he, hr, hix, bind, Except.bind])
  case refine_11 | refine_12 | refine_13 =>
    subst hn
    exact run_headOf hi (by simp [hd]) (frameV_ok hr)
  case refine_14 =>
    obtain ⟨hpops, hsrc⟩ := h
    have hult : ¬(s.nsAt s.cur.site).ult (s.waitTarget x n) = true := by
      rw [BitVec.ult_iff_lt]
      exact BitVec.not_lt.2 hle
    exact run_headOf hi (by rw [ha, Bool.true_and]; exact decide_eq_true hn)
      (by simp only [hpops, hsrc, bind, Except.bind, if_neg hult])
  case refine_15 =>
    obtain ⟨hpops, hsrc⟩ := h
    have hult : (s.nsAt s.cur.site).ult (s.waitTarget x n) = true := BitVec.ult_iff_lt.2 hlt
    exact run_headOf_waitOn hi (by rw [ha, Bool.true_and]; exact decide_eq_true hn)
      (by simp only [hpops, hsrc, bind, Except.bind, if_pos hult])
  case refine_16 =>
    refine run_headOf hi rfl ?_
    simp only [hserr, bind, Except.bind, beq_iff_eq]
  case refine_17 =>
    obtain ⟨hpops, hsrc⟩ := h
    have hf : s.follows t = false := ht.elim not_follows_of_ne not_follows_of_C
    exact run_headOf_trap hi (by rw [hf, ha]; rfl) (by simp [hf, hpops, hsrc, bind, Except.bind])
  case refine_18 =>
    have hf : s.follows t = true := follows_eq ht hs
    exact run_headOf hi (by rw [hf]; rfl) (by rw [hf]; rfl)

end Sys2Proof

/-! SUPPORT. A store that adds is performed as an atomic add (R173). -/

namespace Sys2Proof

namespace Machine

/-- A store of C that adds the byte 1 to byte 0 of the scratchpad of cluster 0 of die 0. -/
def addOne : StoreEnt :=
  { strand := .C, place := .csp 0 0 0, ea := 0, size := 1, data := some [1], fromSdq := false, pc := 0, mark := 0, id := 0, again := false,
    add := true }

/-- The reset state whose scratchpad byte holds 1, with `addOne` alone in the store queue of the core that the event names. -/
def addQueued : State :=
  let s := State.reset.cspWrite 0 0 0 [1]
  s.setTeam s.ev.core { s.team s.ev.core with sq := [addOne] }

/-- Byte 0 of that scratchpad after a step. -/
def cspByte : Host.Outcome State Fault Refusal → Byte
  | .next u => u.byte (.csp 0 0 0)
  | _ => 0

theorem cspByte_storePerform_addQueued : cspByte (exec .storePerform addQueued) = 2 := by decide

end Machine

open Sys2Proof.Machine

/-- Refutes O25: a queued store that adds (R173) is performed as an atomic, and the statement says that its datum is stored. -/
theorem not_queuedAccessesArePerformedInOrder : ¬ Obligations.QueuedAccessesArePerformedInOrder := by
  intro h
  have hstore := ((h addQueued _ addOne [] [1] ⟨.ILLEGAL, 0, 0, [], false, none⟩ { data := .scalar 0, locks := [], poison := none, mark := 0 }
    (.csp 0 0 0) 0 0 0 0 0 false false false []).1 (by decide) (by decide) rfl (by decide)).2.1 rfl
  have hbyte := congrArg cspByte hstore
  rw [cspByte_storePerform_addQueued] at hbyte
  exact absurd hbyte (by decide)

end Sys2Proof

/-! SUPPORT. The one body of the loads (R139, R141): a load performed at its issue, a queued load, and a queued load of a register. -/

namespace Sys2Proof

namespace Machine

variable {s u q v : State} {t : Tag} {d sg : Bool} {r a : BitVec 6} {p : BitVec 2} {o : BitVec 7} {x : W64} {pl : Place} {bs : List Byte}
  {size : Nat}

/-- A load of a word of `size` bytes, its access checked and free of what stands before it. -/
def State.LoadReady (s : State) (size : Nat) (a : BitVec 6) (p : BitVec 2) (o : BitVec 7) (x : W64) (u : State) (pl : Place) (q : State) : Prop :=
  s.Reads1 a x u ∧ u.access x (memEa x o size) size size p.toNat .read = .ok (pl, q) ∧ q.orderFree pl = .ok ()

/-- Whether a load of A goes into `dq` (R139). -/
def State.queuesLoad (s : State) (r : BitVec 6) (d : Bool) : Bool := s.strand == .A && r == 63 && !d

theorem queuesLoad_iff : s.queuesLoad r d = true ↔ s.strand = .A ∧ r = 63 ∧ d = false := by
  simp [State.queuesLoad, and_assoc]

theorem loadBody_now (h : s.LoadReady size a p o x u pl q) (hq : s.queuesLoad r d = false) (hroom : s.room d r = .ok ())
    (hfree : q.loadFree = .ok ()) (hload : q.doLoad q.me pl size (memEa x o size) = .ok (bs, v)) :
    s.loadBody size sg d r a p o = .ok (v.put d r (loadVal sg bs)).goOn := by
  obtain ⟨⟨hpops, hsrc⟩, hacc, hord⟩ := h
  have hq' : (s.strand == .A && r == 63 && !d) = false := hq
  simp only [State.loadBody, hq', hpops, hroom, hsrc, hacc, hord, hfree, hload, bind, Except.bind, Bool.false_and, Bool.false_eq_true,
    if_false]

theorem loadBody_queued (h : s.LoadReady size a p o x u pl q) (hq : s.queuesLoad r d = true) (hroom : dqCheck s.tm = .ok ())
    (hmem : isMmio pl = false) (henq : q.enqueueLoad pl (memEa x o size) size sg false = .ok v) :
    s.loadBody size sg d r a p o = .ok v.goOn := by
  obtain ⟨⟨hpops, hsrc⟩, hacc, hord⟩ := h
  have hq' : (s.strand == .A && r == 63 && !d) = true := hq
  simp only [State.loadBody, hq', hpops, hroom, hsrc, hacc, hord, hmem, henq, bind, Except.bind, Bool.not_false, Bool.true_and, if_true]

theorem loadBody_register (h : s.LoadReady size a p o x u pl q) (hq : s.queuesLoad r d = true) (hroom : dqCheck s.tm = .ok ())
    (hmmio : isMmio pl = true) (hfree : q.loadFree = .ok ()) (hload : q.doLoad q.me pl size (memEa x o size) = .ok (bs, v)) :
    s.loadBody size sg d r a p o =
      .ok (v.pushDq v.me { data := .scalar (loadVal sg bs), locks := [], poison := none, mark := markOf v.st }).goOn := by
  obtain ⟨⟨hpops, hsrc⟩, hacc, hord⟩ := h
  have hq' : (s.strand == .A && r == 63 && !d) = true := hq
  simp only [State.loadBody, hq', hpops, hroom, hsrc, hacc, hord, hmmio, hfree, hload, bind, Except.bind, Bool.not_true, Bool.true_and,
    Bool.false_eq_true, if_false, if_true]

end Machine

open Sys2Proof.Machine

/-- Settles O23: the seven loads share their body. -/
theorem loadsGiveTheirValue : Obligations.LoadsGiveTheirValue := by
  intro s u q v t d r a p o x pl bs
  have hload (size : Nat) (sg : Bool) (hi : s.Issues t false) (ht : tagMem s.cls t = true) (hd : s.destOk r = true)
      (ha : s.srcOk a = true) (hr : s.Reads1 a x u) (hacc : u.access x (memEa x o size) size size p.toNat .read = .ok (pl, q))
      (hord : q.orderFree pl = .ok ()) :
      let queued := s.strand = .A ∧ r = 63 ∧ d = false
      let run := s.run (s.memHead t r a) fun s => s.loadBody size sg d r a p o
      (¬queued → s.room d r = .ok () → q.loadFree = .ok () → q.doLoad q.me pl size (memEa x o size) = .ok (bs, v) →
        run = .next ((v.put d r (loadVal sg bs)).past t)) ∧
      (queued → dqCheck s.tm = .ok () → isMmio pl = false → q.enqueueLoad pl (memEa x o size) size sg false = .ok v →
        run = .next (v.past t)) ∧
      (queued → dqCheck s.tm = .ok () → isMmio pl = true → q.loadFree = .ok () → q.doLoad q.me pl size (memEa x o size) = .ok (bs, v) →
        run = .next ((v.pushDq v.me { data := .scalar (loadVal sg bs), locks := [], poison := none, mark := markOf v.st }).past t)) := by
    have hready : s.LoadReady size a p o x u pl q := ⟨hr, hacc, hord⟩
    have hhead : (tagMem s.cls t && s.destOk r && s.srcOk a) = true := by simp [ht, hd, ha]
    refine ⟨fun hq hroom hfree hl => ?_, fun hq hroom hm he => ?_, fun hq hroom hm hfree hl => ?_⟩
    · exact run_headOf hi hhead (loadBody_now hready (Bool.eq_false_iff.2 (mt queuesLoad_iff.1 hq)) hroom hfree hl)
    · exact run_headOf hi hhead (loadBody_queued hready (queuesLoad_iff.2 hq) hroom hm he)
    · exact run_headOf hi hhead (loadBody_register hready (queuesLoad_iff.2 hq) hroom hm hfree hl)
  simp only [List.forall_mem_cons, List.not_mem_nil, false_implies, implies_true, and_true]
  exact ⟨hload 1 true, hload 2 true, hload 4 true, hload 8 false, hload 1 false, hload 2 false, hload 4 false⟩

end Sys2Proof

/-! SUPPORT. What reaching a line's home leaves unchanged: every L1 and every L2 (R328). -/

namespace Sys2Proof

namespace Machine

/-! ### What a word that has not failed has passed -/

theorem ok_of_ite_error {α : Type} {c : Prop} [Decidable c] {e : Stop} {k : Iss α} {a : α} (h : (if c then .error e else k) = .ok a) :
    k = .ok a := by
  split at h
  · cases h
  · exact h

theorem ok_of_bind {α β : Type} {m : Iss α} {f : α → Iss β} {b : β} (h : m >>= f = .ok b) : ∃ a, m = .ok a ∧ f a = .ok b := by
  cases m with
  | error e => cases h
  | ok a => exact ⟨a, rfl, h⟩

theorem ok_of_map {α β : Type} {m : Iss α} {f : α → β} {b : β} (h : m.map f = .ok b) : ∃ a, m = .ok a ∧ f a = b := by
  cases m with
  | error e => cases h
  | ok a => exact ⟨a, rfl, Except.ok.inj h⟩

/-! ### The frames of reaching a home -/

/-- A part of a table's entries that a change of every entry keeps is the same at every number. -/
theorem tget_tmap_part {α β : Type} {g : α → β} {f : Nat → α → α} (hf : ∀ k v, g (f k v) = g v) (d : α) (t : Tab α) (k : Nat) :
    g (tget d (tmap f t) k) = g (tget d t k) := by
  induction t with
  | nil => rfl
  | cons e t ih =>
    simp only [tmap, List.map_cons, tget] at ih ⊢
    split
    · exact hf ..
    · exact ih

/-- A part of a die that a write of the die keeps is the same at every die. -/
theorem die_setDie_part {β : Type} (g : Die → β) {s : State} {n : Nat} {v : Die} (hv : g v = g (s.die n)) (x : Nat) :
    g ((s.setDie n v).die x) = g (s.die x) := by
  by_cases h : x = n
  · subst h
    rw [die_setDie, hv]
  · rw [die_setDie_ne s v h]

/-- A part of a core that a write of the core keeps is the same at every core. -/
theorem core_setCore_part {β : Type} (g : CoreSt → β) {s : State} {c : CoreId} {v : CoreSt} (hv : g v = g (s.core c)) (x : CoreId) :
    g ((s.setCore c v).core x) = g (s.core x) := by
  by_cases h : coreKey x = coreKey c
  · simp only [State.core, State.setCore, h, tget_tset_self] at hv ⊢
    exact hv
  · rw [core_setCore_ne s v h]

variable {s u v : State} {w : Who} {d e : Die} {ea : W64}

theorem l2_of_takeFrame {r : Nat × Die} (h : takeFrame d = some r) : r.2.l2 = d.l2 := by
  unfold takeFrame at h
  split at h
  · cases h; rfl
  · split at h
    · cases h; rfl
    · cases h

theorem l2_of_expandFrame {lf : Nat} (h : expandFrame d lf = some e) : e.l2 = d.l2 := by
  unfold expandFrame at h
  split at h
  · cases h; rfl
  · obtain ⟨r, hr, rfl⟩ := Option.map_eq_some_iff.1 h
    exact l2_of_takeFrame hr

theorem ite_eq_else_or_then {α : Type} (c : Prop) [Decidable c] (x y : α) : (if c then x else y) = y ∨ (if c then x else y) = x := by
  split
  · exact .inr rfl
  · exact .inl rfl

/-- A page expanded is counted at the team that it is expanded for, or at none. -/
theorem expanded_cases (s : State) (w : Who) : s.expanded w = s ∨ s.expanded w = { s with
    cores := tmap (fun _ (k : CoreSt) => { k with team := k.team.countPage w }) s.cores,
    drovers := tmap (fun _ (d : Drover) => { d with away := d.away.map fun (a : Away) => a.countPage w }) s.drovers } :=
  ite_eq_else_or_then ..

theorem l1_expanded (s : State) (w : Who) (c : CoreId) : ((s.expanded w).core c).l1 = (s.core c).l1 := by
  obtain h | h := expanded_cases s w <;> rw [h]
  exact tget_tmap_part (g := CoreSt.l1) (f := fun _ (k : CoreSt) => { k with team := k.team.countPage w }) (fun _ _ => rfl) ..

theorem die_expanded (s : State) (w : Who) (x : Nat) : (s.expanded w).die x = s.die x := by
  obtain h | h := expanded_cases s w <;> rw [h]
  rfl

/-- The caches are as they were. -/
def SameCaches (s t : State) : Prop := (∀ c, (t.core c).l1 = (s.core c).l1) ∧ ∀ x, (t.die x).l2 = (s.die x).l2

theorem sameCaches_refl (s : State) : SameCaches s s := ⟨fun _ => rfl, fun _ => rfl⟩

theorem sameCaches_of_makeResident {site lf pa : Nat} (h : s.makeResident w site lf pa ea = .ok v) : SameCaches s v := by
  unfold State.makeResident at h
  dsimp only at h
  split at h
  · cases h; exact sameCaches_refl s
  · split at h
    · cases h
    · next hexp =>
      split at h
      · cases h
      · have hl2 := l2_of_expandFrame hexp
        cases h
        refine ⟨fun c => ?_, fun x => ?_⟩
        · rw [l1_expanded]
          split <;> rfl
        · rw [die_expanded]
          split
          · exact die_setDie_part (s := s.blankPage (stackPage site lf)) Die.l2 hl2 x
          · exact die_setDie_part Die.l2 hl2 x

theorem sameCaches_of_reachHome {pa : Nat} (h : s.reachHome w pa ea = .ok v) : SameCaches s v := by
  unfold State.reachHome at h
  split at h
  · cases he : s.extentOf pa with
    | none =>
      rw [he] at h
      cases h
    | some e =>
      rw [he] at h
      obtain ⟨_, _, rfl⟩ := ok_of_map (ok_of_ite_error (ok_of_ite_error h))
      exact sameCaches_refl s
  · obtain ⟨_, _, hres⟩ := ok_of_bind h
    exact sameCaches_of_makeResident hres

/-! ### The store queue (R142, R143) -/

theorem feed_of_no_claims {t : TeamSt} (h : t.claims = []) : t.feed = t := by
  unfold TeamSt.feed
  rw [h]
  rfl

theorem failClaims_of_no_claims {t : TeamSt} (h : t.claims = []) : t.failClaims = t := by
  unfold TeamSt.failClaims
  rw [h]
  cases t
  cases h
  rfl

/-- A store that has its data stands last in the store queue of a team that claims nothing. -/
theorem enqueueStore_of_no_claims {pl : Place} {size : Nat} {bs : List Byte} {add : Bool} (h : s.tm.claims = []) :
    s.enqueueStore pl ea size (some bs) add = s.setTm { s.tm with
      sq := s.tm.sq ++ [{ strand := s.strand, place := pl, ea := ea, size := size, data := some bs, fromSdq := false, pc := s.st.pc,
                          mark := markOf s.st, id := s.tm.nextId, again := false, add := add }],
      nextId := s.tm.nextId + 1 } := by
  simp [State.enqueueStore, feed_of_no_claims, failClaims_of_no_claims, h]

theorem sameMemory_setTm (s : State) (t : TeamSt) : SameMemory s (s.setTm t) := by
  intro p
  cases p with
  | l1 c id k =>
    have hl1 : ((s.setTm t).core c).l1 = (s.core c).l1 :=
      core_setCore_part (v := { s.core s.cur with team := t }) CoreSt.l1 rfl c
    simp only [State.byte, hl1]
  | _ => rfl

/-- A store of a word of `size` bytes with its data, which no claim takes. -/
theorem storeBody_data {size : Nat} {b a : BitVec 6} {p : BitVec 2} {o : BitVec 7} {x y : W64} {pl : Place} {q : State}
    (h : s.Reads2 b a x y u) (hacc : u.access y (memEa y o size) size size p.toNat .write = .ok (pl, q))
    (hord : q.orderFree pl = .ok ()) :
    s.storeBody size false b a p o = .ok (q.enqueueStore pl (memEa y o size) size (some (leBytes size x.toNat))).goOn := by
  obtain ⟨hpops, v, hb, ha⟩ := h
  simp [State.storeBody, hpops, hb, ha, hacc, hord, bind, Except.bind]

theorem storeBody_claim {size : Nat} {b a : BitVec 6} {p : BitVec 2} {o : BitVec 7} {y : W64} {pl : Place} {q : State}
    (h : s.Reads1 a y u) (hacc : u.access y (memEa y o size) size size p.toNat .write = .ok (pl, q)) (hord : q.orderFree pl = .ok ()) :
    s.storeBody size true b a p o = .ok (q.enqueueStore pl (memEa y o size) size none).goOn := by
  obtain ⟨hpops, ha⟩ := h
  simp [State.storeBody, hpops, ha, hacc, hord, bind, Except.bind]

end Machine

open Sys2Proof.Machine

/-- Settles O24: the four stores share their body; a `PREF` ends by `State.prefetch`. -/
theorem storesEnterTheStoreQueue : Obligations.StoresEnterTheStoreQueue := by
  refine ⟨fun s u q t v a p o x y pl ha => ⟨?_, fun hi ht h d => ?_⟩, fun s q v base ea pol at_ lvl sp hsp hq hk hv => ⟨?_, ?_⟩,
    fun s pl ea size bs add hc => ⟨?_, ?_⟩⟩
  · have hstore (size : Nat) (hi : s.Issues t false) (ht : tagMem s.cls t = true)
        (hacc : u.access y (memEa y o size) size size p.toNat .write = .ok (pl, q)) (hord : q.orderFree pl = .ok ()) :
        (s.srcOk v = true → s.Reads2 v a x y u → s.run (s.storeHead t false v a) (fun s => s.storeBody size false v a p o) =
          .next ((q.enqueueStore pl (memEa y o size) size (some (leBytes size x.toNat))).past t)) ∧
        (t = .A → v = 63 → s.Reads1 a y u → s.run (s.storeHead t true v a) (fun s => s.storeBody size true v a p o) =
          .next ((q.enqueueStore pl (memEa y o size) size none).past t)) := by
      refine ⟨fun hv h => ?_, fun hA hv h => ?_⟩
      · exact run_headOf hi (by simp [ht, ha, hv]) (storeBody_data h hacc hord)
      · exact run_headOf hi (by rw [ht, ha, hA, hv]; rfl) (storeBody_claim h hacc hord)
    simp only [List.forall_mem_cons, List.not_mem_nil, false_implies, implies_true, and_true]
    exact ⟨hstore 1, hstore 2, hstore 4, hstore 8⟩
  · obtain ⟨hpops, hsrc⟩ := h
    refine run_headOf hi (by simp [ht, ha]) ?_
    simp only [State.prefBase, hpops, hsrc, bind, Except.bind]
    rfl
  · simp [State.prefetch, hsp, hq, hk, hv, bind, Except.bind]
  · exact sameCaches_of_reachHome hv
  · rw [enqueueStore_of_no_claims hc, tm_setTm]
  · rw [enqueueStore_of_no_claims hc]
    exact sameMemory_setTm s _

end Sys2Proof

/-! SUPPORT. The full/empty words by their bodies (R146, R147). -/

namespace Sys2Proof

open Sys2Proof.Machine

/-- Settles O26: `LDF` and `STF` by the outcome of `State.feOp`, `FEFILL` by its checks in order. -/
theorem fullEmptyWordsComplete : Obligations.FullEmptyWordsComplete := by
  intro s u v w t d r b a p o f x y z off hi ht ha ea
  have hea : memEa x o 4 = ea := rfl
  refine ⟨fun hd hp ⟨hpops, hsrc⟩ hchk => ⟨fun hq hroom hfe => ?_, fun hA hr hd0 hroom hfe => ?_, fun hq hroom hfe hw => ?_⟩,
    fun hr hp ⟨hpops, q, hsrc, hsrc'⟩ hchk => ⟨fun hfe => ?_, fun hfe hw => ?_⟩,
    fun hd hb hroom ⟨hpops, q, hsrc, hsrc'⟩ hf hcsp hal hn0 hn4 hn hrange hfree hsq hrel hacq => ?_⟩
  · have hq' : (s.strand == .A && r == 63 && !d) = false := Bool.eq_false_iff.2 (mt queuesLoad_iff.1 hq)
    refine run_headOf hi (by simp only [ht, hd, ha, Bool.true_and]; exact decide_eq_true hp) ?_
    simp only [hq', hpops, hroom, hsrc, hchk, hfe, hea, bind, Except.bind, Bool.false_eq_true, if_false]
  · have hq' : (s.strand == .A && r == 63 && !d) = true := queuesLoad_iff.2 ⟨hA, hr, hd0⟩
    refine run_headOf hi (by simp only [ht, hd, ha, Bool.true_and]; exact decide_eq_true hp) ?_
    simp only [hq', hpops, hroom, hsrc, hchk, hfe, hea, bind, Except.bind, if_true]
  · have hq' : (s.strand == .A && r == 63 && !d) = false := Bool.eq_false_iff.2 (mt queuesLoad_iff.1 hq)
    refine run_headOf_waitOn hi (by simp only [ht, hd, ha, Bool.true_and]; exact decide_eq_true hp) ?_
    simp only [hq', hpops, hroom, hsrc, hchk, hfe, hw, hea, bind, Except.bind, Bool.false_eq_true, if_false]
  · refine run_headOf hi (by simp only [ht, hr, ha, Bool.true_and]; exact decide_eq_true hp) ?_
    simp only [hpops, hsrc, hsrc', hchk, hfe, hea, lo32, beq_iff_eq, bind, Except.bind]
  · refine run_headOf_waitOn hi (by simp only [ht, hr, ha, Bool.true_and]; exact decide_eq_true hp) ?_
    simp only [hpops, hsrc, hsrc', hchk, hfe, hw, hea, lo32, beq_iff_eq, bind, Except.bind]
  · refine run_headOf hi (by simp only [ht, hd, ha, hb, Bool.true_and]; exact decide_eq_true hf) ?_
    simp only [BitVec.ofNat_eq_ofNat] at hacq
    simp [hpops, hroom, hsrc, hsrc', need, hcsp, hal, hn0, hn4, hn, hrange, State.feFree, hfree, hsq, hrel, hacq, bind, Except.bind]

end Sys2Proof

/-! SUPPORT. Rounding once into a format (R71, R81), and the codes of the formats with a sign, infinities and NaN (R69, R72). -/

namespace Sys2Proof

namespace Machine

/-! ### The magnitudes that codes stand for -/

/-- The magnitude of a code in units of 2^-k (R69). -/
def magVal (f : FFmt) (k c : Nat) : Nat :=
  if c < 2 ^ f.t then c * 2 ^ (f.emin - f.t + k).toNat
  else (2 ^ f.t + c % 2 ^ f.t) * 2 ^ (f.emin - f.t + (c / 2 ^ f.t - 1 : Nat) + k).toNat

/-- A code is its binade and its significand; the significand of the next binade's first code is written here too. -/
theorem magVal_binade {f : FFmt} {k j M : Nat} (hk : -(k : Int) ≤ f.emin - f.t) (hM : M ≤ 2 ^ (f.t + 1)) (hj : 2 ^ f.t ≤ M ∨ j = 0) :
    magVal f k (j * 2 ^ f.t + M) = M * 2 ^ (f.emin - f.t + j + k).toNat := by
  have hT : 0 < 2 ^ f.t := Nat.two_pow_pos _
  rw [Nat.pow_succ] at hM
  unfold magVal
  by_cases hlt : M < 2 ^ f.t
  · obtain rfl : j = 0 := hj.resolve_left (by omega)
    rw [if_pos (by simpa using hlt)]
    simp
  · have hge : ¬(j * 2 ^ f.t + M < 2 ^ f.t) := by omega
    rw [if_neg hge]
    by_cases htop : M = 2 ^ f.t * 2
    · subst htop
      have hc : j * 2 ^ f.t + 2 ^ f.t * 2 = 2 ^ f.t * (j + 2) := by rw [Nat.mul_add, Nat.mul_comm j]
      have he : (f.emin - f.t + ((j + 2 - 1 : Nat) : Int) + k).toNat = (f.emin - f.t + j + k).toNat + 1 := by omega
      rw [hc, Nat.mul_mod_right, Nat.mul_div_cancel_left _ hT, he, Nat.pow_succ, Nat.add_zero, Nat.mul_assoc, Nat.mul_comm 2]
    · obtain ⟨r, rfl⟩ : ∃ r, M = 2 ^ f.t + r := ⟨M - 2 ^ f.t, by omega⟩
      have hr : r < 2 ^ f.t := by omega
      have hc : j * 2 ^ f.t + (2 ^ f.t + r) = 2 ^ f.t * (j + 1) + r := by rw [Nat.mul_add, Nat.mul_one, Nat.mul_comm j, Nat.add_assoc]
      rw [hc, Nat.mul_add_mod, Nat.mod_eq_of_lt hr, Nat.mul_add_div hT, Nat.div_eq_of_lt hr]
      rfl

/-! ### Rounding once -/

/-- What a mode makes of a magnitude `v` between the codes `lo` and `lo + 1`, whose magnitudes are `a` and `b` (R71). -/
def RoundsTo (mode : Nat) (neg : Bool) (v a b lo c : Nat) : Prop :=
  (v = a → c = lo) ∧
  (v ≠ a →
    (mode = 0 → (2 * v < a + b → c = lo) ∧ (a + b < 2 * v → c = lo + 1) ∧ (2 * v = a + b → (c = lo ∨ c = lo + 1) ∧ c % 2 = 0)) ∧
    (mode = 1 → c = lo) ∧ (mode = 2 → c = if neg = true then lo else lo + 1) ∧ (mode = 3 → c = if neg = true then lo + 1 else lo))

theorem roundsTo_exact (mode : Nat) (neg : Bool) (a b lo : Nat) : RoundsTo mode neg a a b lo lo := ⟨fun _ => rfl, fun h => absurd rfl h⟩

/-- A magnitude of `q` steps and `r` of `U` units, rounded by what it has beyond its whole steps. -/
theorem roundsTo_roundUp {mode : Nat} {neg : Bool} {q r U P lo : Nat} (hP : 0 < P) :
    RoundsTo mode neg ((q * U + r) * P) (q * (U * P)) ((q + 1) * (U * P)) lo
      (if roundUp mode neg (lo % 2 == 1) r U then lo + 1 else lo) := by
  have hv : (q * U + r) * P = q * (U * P) + r * P := by rw [Nat.add_mul, Nat.mul_assoc]
  have hb : (q + 1) * (U * P) = q * (U * P) + U * P := Nat.add_one_mul ..
  rw [hv, hb]
  have hlt : 2 * r < U ↔ 2 * (r * P) < U * P := by rw [← Nat.mul_assoc, Nat.mul_lt_mul_right hP]
  have hgt : U < 2 * r ↔ U * P < 2 * (r * P) := by rw [← Nat.mul_assoc, Nat.mul_lt_mul_right hP]
  have heq : 2 * r = U ↔ 2 * (r * P) = U * P := by rw [← Nat.mul_assoc, Nat.mul_left_inj (Nat.ne_of_gt hP)]
  have h0 : r = 0 ↔ r * P = 0 :=
    ⟨fun h => by rw [h, Nat.zero_mul], fun h => (Nat.mul_eq_zero.1 h).resolve_right (Nat.ne_of_gt hP)⟩
  generalize q * (U * P) = A at *
  generalize r * P = R at *
  generalize U * P = B at *
  refine ⟨fun h => ?_, fun h => ⟨?_, ?_, ?_, ?_⟩⟩
  · rw [h0.2 (by omega)]
    rfl
  all_goals
    have hr0 : (r == 0) = false := beq_false_of_ne (mt h0.1 (by omega))
    rintro rfl
  · refine ⟨fun h' => ?_, fun h' => ?_, fun h' => ?_⟩
    · have h1 : 2 * r < U := hlt.2 (by omega)
      simp [roundUp, hr0, show ¬U < 2 * r by omega, show 2 * r ≠ U by omega]
    · have h1 : U < 2 * r := hgt.2 (by omega)
      simp [roundUp, hr0, h1]
    · have h1 : 2 * r = U := heq.2 (by omega)
      simp only [roundUp, hr0, h1, Nat.lt_irrefl, decide_false, beq_self_eq_true, Bool.true_and, Bool.false_or, Bool.false_eq_true,
        if_false, beq_iff_eq]
      split <;> omega
  · simp [roundUp, hr0]
  · cases neg <;> simp [roundUp, hr0]
  · cases neg <;> simp [roundUp, hr0]

/-- A magnitude lies between the codes beside it, and its code is one of them as the mode says. -/
theorem ffRoundMag_roundsTo {f : FFmt} {mode k m : Nat} {neg : Bool} {e : Int} (hm : 0 < m) (he : -(k : Int) ≤ e)
    (hk : -(k : Int) ≤ f.emin - f.t) :
    ∃ lo, magVal f k lo ≤ m * 2 ^ (e + k).toNat ∧ m * 2 ^ (e + k).toNat < magVal f k (lo + 1) ∧
      RoundsTo mode neg (m * 2 ^ (e + k).toNat) (magVal f k lo) (magVal f k (lo + 1)) lo (ffRoundMag f mode neg m e) := by
  have hlog : 2 ^ m.log2 ≤ m ∧ m < 2 ^ (m.log2 + 1) := ⟨Nat.log2_self_le (Nat.ne_of_gt hm), Nat.lt_log2_self⟩
  obtain ⟨j, hj⟩ : ∃ j : Nat, max ((m.log2 : Int) + e - f.t) (f.emin - f.t) = f.emin - f.t + j :=
    ⟨(max ((m.log2 : Int) + e - f.t) (f.emin - f.t) - (f.emin - f.t)).toNat, by omega⟩
  have hbase : (f.emin - f.t + j - (f.emin - f.t) : Int).toNat = j := by omega
  unfold ffRoundMag ilog2
  dsimp only
  rw [hj, hbase]
  by_cases hge : e ≥ f.emin - f.t + j
  · rw [if_pos hge]
    obtain ⟨d, hd⟩ : ∃ d : Nat, e = f.emin - f.t + j + d := ⟨(e - (f.emin - f.t + j)).toNat, by omega⟩
    have hdn : (e - (f.emin - f.t + j)).toNat = d := by omega
    rw [hdn]
    have hd_le : m.log2 + d ≤ f.t := by omega
    have hlt : m * 2 ^ d < 2 ^ (f.t + 1) := calc
      m * 2 ^ d < 2 ^ (m.log2 + 1) * 2 ^ d := Nat.mul_lt_mul_of_pos_right hlog.2 (Nat.two_pow_pos d)
      _ = 2 ^ (m.log2 + d + 1) := by rw [← Nat.pow_add]; congr 1; omega
      _ ≤ 2 ^ (f.t + 1) := Nat.pow_le_pow_right (by omega) (by omega)
    have hbin : 2 ^ f.t ≤ m * 2 ^ d ∨ j = 0 := by
      by_cases hj0 : j = 0
      · exact .inr hj0
      · have hd_eq : f.t = m.log2 + d := by omega
        refine .inl ?_
        rw [hd_eq, Nat.pow_add]
        exact Nat.mul_le_mul_right _ hlog.1
    have hv : m * 2 ^ (e + k).toNat = m * 2 ^ d * 2 ^ (f.emin - f.t + j + k).toNat := by
      rw [Nat.mul_assoc, ← Nat.pow_add]
      congr 2
      omega
    refine ⟨j * 2 ^ f.t + m * 2 ^ d, ?_⟩
    have hlo := magVal_binade (j := j) hk (Nat.le_of_lt hlt) hbin
    have hhi := magVal_binade (j := j) (M := m * 2 ^ d + 1) hk hlt (hbin.imp_left (by omega))
    rw [← Nat.add_assoc] at hhi
    rw [hlo, hhi, hv]
    have hpos : 0 < 2 ^ (f.emin - f.t + j + k : Int).toNat := Nat.two_pow_pos _
    exact ⟨Nat.le_refl _, Nat.mul_lt_mul_of_pos_right (Nat.lt_succ_self _) hpos, roundsTo_exact ..⟩
  · rw [if_neg hge]
    obtain ⟨d, hd⟩ : ∃ d : Nat, f.emin - f.t + j = e + d := ⟨(f.emin - f.t + j - e).toNat, by omega⟩
    have hdn : (f.emin - f.t + j - e).toNat = d := by omega
    rw [hdn]
    have hU : 0 < 2 ^ d := Nat.two_pow_pos d
    have hle : m.log2 ≤ f.t + d := by omega
    have hlt : m / 2 ^ d < 2 ^ (f.t + 1) := by
      rw [Nat.div_lt_iff_lt_mul hU, ← Nat.pow_add]
      exact Nat.lt_of_lt_of_le hlog.2 (Nat.pow_le_pow_right (by omega) (by omega))
    have hbin : 2 ^ f.t ≤ m / 2 ^ d ∨ j = 0 := by
      by_cases hj0 : j = 0
      · exact .inr hj0
      · have hd_eq : m.log2 = f.t + d := by omega
        refine .inl ?_
        rw [Nat.le_div_iff_mul_le hU, ← Nat.pow_add, ← hd_eq]
        exact hlog.1
    have hstep : 2 ^ (f.emin - f.t + j + k).toNat = 2 ^ d * 2 ^ (e + k).toNat := by
      rw [← Nat.pow_add]
      congr 1
      omega
    have hP : 0 < 2 ^ (e + k : Int).toNat := Nat.two_pow_pos _
    have hlo := magVal_binade (j := j) hk (Nat.le_of_lt hlt) hbin
    have hhi := magVal_binade (j := j) (M := m / 2 ^ d + 1) hk hlt (hbin.imp_left (by omega))
    rw [← Nat.add_assoc] at hhi
    have hm_eq : m = m / 2 ^ d * 2 ^ d + m % 2 ^ d := by rw [Nat.mul_comm]; exact (Nat.div_add_mod m _).symm
    have hr : m % 2 ^ d < 2 ^ d := Nat.mod_lt _ hU
    refine ⟨j * 2 ^ f.t + m / 2 ^ d, ?_⟩
    rw [hlo, hhi, hstep]
    have hround := roundsTo_roundUp (mode := mode) (neg := neg) (q := m / 2 ^ d) (lo := j * 2 ^ f.t + m / 2 ^ d) hP (r := m % 2 ^ d) (U := 2 ^ d)
    rw [← hm_eq] at hround
    refine ⟨?_, ?_, hround⟩
    · rw [← Nat.mul_assoc]
      exact Nat.mul_le_mul_right _ (by omega)
    · rw [← Nat.mul_assoc]
      refine Nat.mul_lt_mul_of_pos_right ?_ hP
      rw [Nat.add_mul]
      omega

/-! ### Formats with a sign bit, infinities and NaN (R69, R72, R81, R82) -/

/-- A format whose codes are, in order, the finite magnitudes, the infinity and the NaNs, below its sign bit. -/
structure HasSpecials (f : FFmt) (s inf nan : Nat) : Prop where
  sign_eq : f.sign = some s
  inf_eq : f.inf = some inf
  nan_eq : f.nan = some nan
  nz_eq : f.nz = true
  top_eq : f.top + 1 = inf
  inf_lt : inf < 2 ^ s

theorem hasSpecials_fFP32 : HasSpecials fFP32 31 0x7F800000 0x7FC00000 := by constructor <;> decide

theorem hasSpecials_fBF16 : HasSpecials fBF16 15 0x7F80 0x7FC0 := by constructor <;> decide

theorem hasSpecials_fFP16 : HasSpecials fFP16 15 0x7C00 0x7E00 := by constructor <;> decide

variable {f : FFmt} {s inf nan : Nat}

theorem ffSign_eq (h : HasSpecials f s inf nan) (neg : Bool) (c : Nat) : ffSign f neg c = if neg = true then c + 2 ^ s else c := by
  simp [ffSign, h.sign_eq]

theorem ffZero_eq (h : HasSpecials f s inf nan) (neg : Bool) : ffZero f neg = ffSign f neg 0 := by simp [ffZero, h.nz_eq]

theorem ffInf_eq (h : HasSpecials f s inf nan) (sat neg : Bool) : ffInf f sat neg = ffSign f neg (if sat = true then f.top else inf) := by
  unfold ffInf
  rw [h.nan_eq, h.inf_eq]
  cases sat <;> rfl

theorem ffOver_eq (h : HasSpecials f s inf nan) (mode : Nat) (sat neg : Bool) : ffOver f mode sat neg = ffSign f neg
    (if sat = true ∨ mode = 1 ∨ (mode = 2 ∧ neg = true) ∨ (mode = 3 ∧ neg = false) then f.top else inf) := by
  unfold ffOver
  rw [h.nan_eq, h.inf_eq]
  simp only [Bool.or_eq_true, Bool.and_eq_true, beq_iff_eq, Bool.not_eq_true', or_assoc]
  split <;> rfl

theorem ffEncode_zero (h : HasSpecials f s inf nan) (mode : Nat) (sat neg : Bool) (e : Int) :
    ffEncode f mode sat (.fin neg 0 e) = ffSign f neg 0 := ffZero_eq h neg

/-- The code of a value that is not zero, from its magnitude code (R81). -/
theorem ffEncode_fin (h : HasSpecials f s inf nan) (mode : Nat) (sat neg : Bool) {m : Nat} (hm : 0 < m) (e : Int) :
    ffEncode f mode sat (.fin neg m e) = ffSign f neg (if ffRoundMag f mode neg m e ≤ f.top then ffRoundMag f mode neg m e
      else if sat = true ∨ mode = 1 ∨ (mode = 2 ∧ neg = true) ∨ (mode = 3 ∧ neg = false) then f.top else inf) := by
  have hm0 : (m == 0) = false := beq_false_of_ne (Nat.ne_of_gt hm)
  simp only [ffEncode, hm0, h.sign_eq, Option.isNone_some, Bool.and_false, Bool.false_eq_true, if_false, beq_iff_eq]
  by_cases hc : ffRoundMag f mode neg m e ≤ f.top
  · rw [if_neg (by omega), if_pos hc]
    split
    · next h0 => rw [ffZero_eq h, h0]
    · rfl
  · rw [if_pos (by omega), if_neg hc, ffOver_eq h]

/-- A code below the sign bit with its sign put on. -/
theorem signed_mod_and_bit (neg : Bool) {c : Nat} (hc : c < 2 ^ s) :
    (if neg = true then c + 2 ^ s else c) % 2 ^ s = c ∧ bit (if neg = true then c + 2 ^ s else c) s = neg := by
  cases neg
  · simp [bit, Nat.mod_eq_of_lt hc, Nat.div_eq_of_lt hc]
  · rw [if_pos rfl, Nat.add_mod_right, bit, Nat.add_div_right c (Nat.two_pow_pos s), Nat.div_eq_of_lt hc]
    exact ⟨Nat.mod_eq_of_lt hc, rfl⟩

/-- The value of a signed code: finite magnitudes first, then the infinity, then NaN (R69). -/
theorem ffDecode_signed (h : HasSpecials f s inf nan) (neg : Bool) {c : Nat} (hc : c < 2 ^ s) :
    ffDecode f (if neg = true then c + 2 ^ s else c) =
      if c ≤ f.top then ffMag f neg c else if c = inf then .inf neg else .nan := by
  obtain ⟨hmod, hbit⟩ := signed_mod_and_bit neg hc
  have htop := h.top_eq
  unfold ffDecode
  rw [h.sign_eq]
  simp only [hmod, hbit, h.nz_eq, h.inf_eq, h.nan_eq, Bool.not_true, Bool.and_false, Bool.false_eq_true, if_false,
    Option.isSome_some, Bool.and_true, decide_eq_true_eq, beq_iff_eq, Option.some.injEq]
  by_cases hi : inf = c
  · rw [if_pos hi, if_neg (by omega), if_pos hi.symm]
  · rw [if_neg hi, if_neg (Ne.symm hi)]
    by_cases hle : c ≤ f.top
    · rw [if_pos hle, if_neg (by omega)]
    · rw [if_neg hle, if_pos (by omega)]

/-- A finite code has the magnitude of its fields. -/
theorem ffMag_eq {k : Nat} (hk : -(k : Int) ≤ f.emin - f.t) (neg : Bool) (c : Nat) :
    ∃ a q, ffMag f neg c = .fin neg a q ∧ -(k : Int) ≤ q ∧ a * 2 ^ (q + k).toNat = magVal f k c := by
  have hT : 0 < 2 ^ f.t := Nat.two_pow_pos _
  unfold ffMag magVal
  by_cases hlt : c < 2 ^ f.t
  · have h0 : (c / 2 ^ f.t == 0) = true := beq_iff_eq.2 (Nat.div_eq_of_lt hlt)
    simp only [h0, if_true, if_pos hlt, Nat.mod_eq_of_lt hlt]
    exact ⟨_, _, rfl, hk, rfl⟩
  · have hpos : 1 ≤ c / 2 ^ f.t := (Nat.one_le_div_iff hT).2 (by omega)
    have h0 : (c / 2 ^ f.t == 0) = false := beq_false_of_ne (by omega)
    simp only [h0, Bool.false_eq_true, if_false, if_neg hlt]
    refine ⟨_, _, rfl, by omega, ?_⟩
    rw [Nat.add_comm (c % 2 ^ f.t)]
    congr 2
    omega

/-- Every code of an encoded value lies below the next power of two above the sign bit. -/
theorem ffEncode_lt (h : HasSpecials f s inf nan) (hn : nan < 2 ^ s) (mode : Nat) (sat : Bool) (x : ExNum) :
    ffEncode f mode sat x < 2 ^ (s + 1) := by
  have hsign (neg : Bool) {c : Nat} (hc : c ≤ inf) : ffSign f neg c < 2 ^ (s + 1) := by
    have hlt := h.inf_lt
    rw [ffSign_eq h, Nat.pow_succ]
    split <;> omega
  have htop := h.top_eq
  cases x with
  | nan =>
    rw [ffEncode, h.nan_eq, Option.getD_some, Nat.pow_succ]
    omega
  | inf neg =>
    rw [ffEncode, h.sign_eq, Option.isNone_some, Bool.and_false, if_neg Bool.false_ne_true, ffInf_eq h]
    refine hsign neg ?_
    split <;> omega
  | fin neg m e =>
    by_cases hm : m = 0
    · subst hm
      rw [ffEncode_zero h]
      exact hsign neg (Nat.zero_le _)
    · rw [ffEncode_fin h mode sat neg (Nat.pos_of_ne_zero hm)]
      refine hsign neg ?_
      split
      · omega
      · split <;> omega

/-! ### The words (R113 to R117) -/

section

variable {s u : State} {t : Tag} {d : Bool} {r a b : BitVec 6} {f : BitVec 3} {x y : W64}

theorem run_fpK {g : W64 → W64 → W64} (hi : s.Issues t false) (ht : tagCA t = true) (hd : s.destOk r = true) (ha : s.srcOk a = true)
    (hb : s.srcOk b = true) (hr : s.room d r = .ok ()) (h : s.Reads2 a b x y u) (hf : f.toNat < 4) :
    s.run (s.fpK t r a b (f < 4)) (fun s => s.frameK d r a b g) = .next ((u.put d r (g x y)).past t) :=
  run_headOf hi (by simp only [ht, hd, ha, hb, Bool.true_and]; exact decide_eq_true hf) (frameK_ok h hr)

theorem lt_four_eq_false (hf : 3 < f) : decide (f < 4) = false := decide_eq_false (by bv_omega)

theorem fmnxOp_eq (hf : f.toNat < 4) : fmnxOp f x y = (r32 0 (if f = 0 then minN (f32 (lo32 x)) (f32 (lo32 y))
    else if f = 1 then maxN (f32 (lo32 x)) (f32 (lo32 y)) else if f = 2 then minNum (f32 (lo32 x)) (f32 (lo32 y))
    else maxNum (f32 (lo32 x)) (f32 (lo32 y)))).setWidth 64 := by
  have hcases : f = 0 ∨ f = 1 ∨ f = 2 ∨ f = 3 := by bv_omega
  obtain rfl | rfl | rfl | rfl := hcases <;> rfl

end

end Machine

open Sys2Proof.Machine

/-- Settles O19: the formats by `ffRoundMag_roundsTo` and `ffDecode_signed`, the words by their forms of R99. -/
theorem scalarFloatWordsGiveTheirResults : Obligations.ScalarFloatWordsGiveTheirResults := by
  refine ⟨fun f s inf nan neg sat m mode k e hf hmode he hk => ?_, fun mode x => rfl, fun s t d r a b p f hrun hslip => ⟨fun hf => ?_, fun hr => ?_⟩,
    fun s u t d r a b p f x y hi ht ha => ⟨fun hd hb hr h hf => ?_, fun hd hb h hf hr => ?_, fun hb h hf => ?_, fun hd hr h => ?_⟩⟩
  · have h : HasSpecials f s inf nan := by
      simp only [List.mem_cons, List.not_mem_nil, or_false, Prod.mk.injEq] at hf
      obtain ⟨rfl, rfl, rfl, rfl⟩ | ⟨rfl, rfl, rfl, rfl⟩ | ⟨rfl, rfl, rfl, rfl⟩ := hf
      · exact hasSpecials_fFP32
      · exact hasSpecials_fBF16
      · exact hasSpecials_fFP16
    have htop := h.top_eq
    refine ⟨by rw [ffEncode, h.nan_eq, Option.getD_some], ?_, ?_, fun hm => ?_, fun c hc => ⟨fun hle => ?_, fun hi => ?_, fun hlt hne => ?_⟩⟩
    · rw [ffEncode, h.sign_eq, Option.isNone_some, Bool.and_false, if_neg Bool.false_ne_true, ffInf_eq h, ffSign_eq h]
    · rw [ffEncode_zero h, ffSign_eq h]
    · obtain ⟨lo, hlo, hhi, heq, hne⟩ := ffRoundMag_roundsTo (mode := mode) (neg := neg) hm he hk
      exact ⟨lo, _, hlo, hhi, heq, hne, by rw [ffEncode_fin h mode sat neg hm, ffSign_eq h]⟩
    · rw [ffDecode_signed h neg hc, if_pos hle]
      exact ffMag_eq hk neg c
    · rw [ffDecode_signed h neg hc, if_neg (by omega), if_pos hi]
    · rw [ffDecode_signed h neg hc, if_neg (by omega), if_neg hne]
  · have hl := lt_four_eq_false hf
    simp only [List.forall_mem_cons, List.not_mem_nil, false_implies, implies_true, and_true]
    refine ⟨?_, ?_, ?_, ?_, ?_⟩
    all_goals exact run_headOf_false hrun hslip (by simp only [hl, Bool.and_false, Bool.false_and])
  · exact run_headOf_false hrun hslip (by simp [regOk, show ¬r.toNat < 48 by omega])
  · refine ⟨run_fpK hi ht hd ha hb hr h hf, run_fpK hi ht hd ha hb hr h hf, ?_⟩
    rw [← fmnxOp_eq hf]
    exact run_fpK hi ht hd ha hb hr h hf
  · have hl : (decide (f < 4) && regOk r) = true := by
      rw [show decide (f < 4) = true from decide_eq_true hf, Bool.true_and]
      exact decide_eq_true hr
    exact run_headOf hi (by simp only [ht, hd, ha, hb, hl, Bool.and_true]) (frameD_ok h)
  · refine ⟨fcmpCond f x y, run_headOf hi (by simp only [ht, ha, hb, Bool.true_and]; exact decide_eq_true hf) (frameP_ok h), ?_, ?_, ?_, ?_⟩
    all_goals
      rintro rfl
      rfl
  · refine ⟨?_, ?_, ?_, ?_, ?_, ?_, ?_, ?_⟩
    all_goals exact run_headOf hi (by simp only [ht, hd, ha, Bool.and_true]) (frameI_ok h hr)

end Sys2Proof

/-! SUPPORT. The new values of the atomics as their FN names them (R155), and the one body of the atomic words (R157). -/

namespace Sys2Proof

namespace Machine

/-! ### New values -/

section

variable {n : Nat} {o b : BitVec n}

/-- The signed value of a number of `n` bits. -/
theorem sextNat_toNat (hn : 0 < n) (b : BitVec n) : sextNat n b.toNat = b.toInt := by
  obtain ⟨k, rfl⟩ : ∃ k, n = k + 1 := ⟨n - 1, by omega⟩
  rw [sextNat, BitVec.toInt_eq_toNat_cond]
  have hpow : 2 ^ (k + 1) = 2 * 2 ^ k := Nat.pow_succ'
  simp only [Nat.add_sub_cancel]
  by_cases h : b.toNat < 2 ^ k
  · rw [if_pos h, if_pos (by omega)]
  · rw [if_neg h, if_neg (by omega)]
    push_cast
    rfl

/-- An integer atomic of `n` bits by FN (R155). -/
theorem amoInt_toNat (hn : 0 < n) (o b : BitVec n) :
    amoInt n 0 o.toNat b.toNat = (o + b).toNat ∧ amoInt n 1 o.toNat b.toNat = (o &&& b).toNat ∧ amoInt n 2 o.toNat b.toNat = (o ||| b).toNat ∧
    amoInt n 3 o.toNat b.toNat = (o ^^^ b).toNat ∧ amoInt n 4 o.toNat b.toNat = (if o.toInt ≤ b.toInt then o else b).toNat ∧
    amoInt n 5 o.toNat b.toNat = (if o.toInt ≤ b.toInt then b else o).toNat ∧ amoInt n 6 o.toNat b.toNat = (if o ≤ b then o else b).toNat ∧
    amoInt n 7 o.toNat b.toNat = (if o ≤ b then b else o).toNat := by
  refine ⟨rfl, (BitVec.toNat_and ..).symm, (BitVec.toNat_or ..).symm, (BitVec.toNat_xor ..).symm, ?_, ?_, ?_, ?_⟩
  · simp only [amoInt, sextNat_toNat hn]
    split <;> rfl
  · simp only [amoInt, sextNat_toNat hn]
    split <;> rfl
  · simp only [amoInt, Nat.min_def, BitVec.le_def]
    split <;> rfl
  · simp only [amoInt, Nat.max_def, BitVec.le_def]
    split <;> rfl

end

theorem bf16Add_lt (a b : Nat) : bf16Add a b < 2 ^ 16 := ffEncode_lt hasSpecials_fBF16 (by decide) ..

/-- Two sums of BF16 side by side. -/
theorem ofNat_bf16_pair {lo hi : Nat} (hlo : lo < 2 ^ 16) :
    BitVec.ofNat 32 (lo + 65536 * hi) = BitVec.ofNat 16 hi ++ BitVec.ofNat 16 lo := by
  apply BitVec.eq_of_toNat_eq
  have hor : hi % 65536 * 2 ^ 16 ||| lo = hi % 65536 * 2 ^ 16 + lo := by rw [Nat.mul_comm, Nat.two_pow_add_eq_or_of_lt hlo]
  simp only [BitVec.toNat_append, BitVec.toNat_ofNat, Nat.reducePow, Nat.shiftLeft_eq] at hor hlo ⊢
  rw [Nat.mod_eq_of_lt hlo, hor]
  omega

theorem toNat_extractLsb'_low (o : W32) : (o.extractLsb' 0 16).toNat = o.toNat % 65536 := by simp

theorem toNat_extractLsb'_high (o : W32) : (o.extractLsb' 16 16).toNat = o.toNat / 65536 := by
  have := o.isLt
  simp [Nat.shiftRight_eq_div_pow]
  omega

/-! ### The words -/

/-- An atomic's value as a load gives it: sign-extended for a word, except for the floating ones. -/
theorem atomRet_eq (op : AtomOp) (old : Nat) : atomRet op old =
    if atomSize op = 4 ∧ (∀ g, op ≠ .amof g) then BitVec.ofInt 64 (sextNat 32 old) else BitVec.ofNat 64 old := by
  cases op <;> simp [atomRet, atomSize, w64]

variable {s u q v w : State} {t : Tag} {d l : Bool} {r a b : BitVec 6} {x y : W64} {pl : Place} {bs : List Byte} {op : AtomOp}

/-- An atomic word whose checks pass and that nothing stands before: what it reads and what it writes (R155 to R157). -/
structure State.AtomReady (s : State) (op : AtomOp) (r a b : BitVec 6) (x y : W64) (u : State) (pl : Place) (q : State) (bs : List Byte)
    (v w : State) : Prop where
  reads : s.Reads2 a b x y u
  space : s.checkSpace s.me x x 0 = .ok ()
  allowed : atomAllowed op (tagNum x) = true
  aligned : x.toNat % atomSize op = 0
  range : s.rangeOk s.me x (atomSize op) = true
  board : boardFree s.tm x (atomSize op) = .ok ()
  place : u.placeOf s.me (spotOf s.me x) (atomSize op) 0 .both x = .ok (pl, q)
  free : s.loadFree = .ok ()
  alone : s.tm.sq = []
  load : q.doLoad s.me (atomPlace (spotOf s.me x) pl) (atomSize op) x = .ok (bs, v)
  store : v.doStore s.me (atomPlace (spotOf s.me x) pl)
    (leBytes (atomSize op) (atomNew op (leNat bs) y (if r.toNat < 48 then s.reg r.toNat else 0))) x = .ok w

theorem atomBody_eq (h : s.AtomReady op r a b x y u pl q bs v w)
    (hroom : (if s.queuesLoad r d = true then dqCheck s.tm else s.room d r) = .ok ()) :
    s.atomBody op d r a b = .ok (if s.queuesLoad r d = true then
      (w.pushDq s.me { data := .scalar (atomRet op (leNat bs)), locks := [], poison := none, mark := markOf w.st }).goOn
      else (w.put d r (atomRet op (leNat bs))).goOn) := by
  obtain ⟨⟨hpops, z, ha, hb⟩, hspace, hallowed, hal, hrange, hboard, hplace, hfree, halone, hload, hstore⟩ := h
  cases hq : s.queuesLoad r d
  all_goals
    rw [hq] at hroom
    have hq' : (s.strand == .A && r == 63 && !d) = s.queuesLoad r d := rfl
    simp only [Bool.false_eq_true, if_false, if_true] at hroom ⊢
    simp only [State.atomBody, hq', hq, hpops, hroom, ha, hb, need, hallowed, hspace, beq_iff_eq, hal, hrange, hboard, hplace, State.atomFree, hfree,
      halone, List.isEmpty_nil, State.doAtomic, hload, hstore, bind, Except.bind, Bool.false_eq_true, if_false, if_true]

theorem run_atom (hi : s.Issues t false) (hl : (tagMem s.cls t && s.destOk r && s.srcOk a && s.srcOk b && l) = true)
    (h : s.AtomReady op r a b x y u pl q bs v w) :
    let value : W64 := if atomSize op = 4 ∧ (∀ g, op ≠ .amof g) then BitVec.ofInt 64 (sextNat 32 (leNat bs)) else BitVec.ofNat 64 (leNat bs)
    let run := s.run (s.atomHead t r a b l) fun s => s.atomBody op d r a b
    (¬(s.strand = .A ∧ r = 63 ∧ d = false) → s.room d r = .ok () → run = .next ((w.put d r value).past t)) ∧
    (s.strand = .A → r = 63 → d = false → dqCheck s.tm = .ok () →
      run = .next ((w.pushDq s.me { data := .scalar value, locks := [], poison := none, mark := markOf w.st }).past t)) := by
  intro value run
  have hvalue : atomRet op (leNat bs) = value := atomRet_eq ..
  refine ⟨fun hq hroom => ?_, fun hA hr hd hroom => ?_⟩
  · have hq' : ¬s.queuesLoad r d = true := mt queuesLoad_iff.1 hq
    refine run_headOf hi hl ((atomBody_eq h (by rw [if_neg hq', hroom])).trans ?_)
    rw [if_neg hq', hvalue]
  · have hq' : s.queuesLoad r d = true := queuesLoad_iff.2 ⟨hA, hr, hd⟩
    refine run_headOf hi hl ((atomBody_eq h (by rw [if_pos hq', hroom])).trans ?_)
    rw [if_pos hq', hvalue]

end Machine

open Sys2Proof.Machine

/-- Settles O27: new values by `amoInt_toNat`, the words by `run_atom`. -/
theorem atomicsExchangeInOneStep : Obligations.AtomicsExchangeInOneStep := by
  refine ⟨?_, ?_, fun s u q v w t d r a b f x y pl bs => ?_⟩
  · intro old y z hold o
    have ho : o.toNat = old := Nat.mod_eq_of_lt hold
    rw [← ho]
    obtain ⟨h0, h1, h2, h3, h4, h5, h6, h7⟩ := amoInt_toNat (by decide) o y
    refine ⟨h0, h1, h2, h3, h4, h5, h6, h7, ?_⟩
    simp only [atomNew, beq_iff_eq, BitVec.toNat_inj]
    split <;> rfl
  · intro old y z hold o b bf
    have ho : o.toNat = old := Nat.mod_eq_of_lt hold
    have hb : b.toNat = y.toNat % 2 ^ 32 := BitVec.toNat_setWidth ..
    rw [← ho]
    obtain ⟨h0, h1, h2, h3, h4, h5, h6, h7⟩ := amoInt_toNat (by decide) o b
    rw [hb] at h0 h1 h2 h3 h4 h5 h6 h7
    refine ⟨h0, h1, h2, h3, h4, h5, h6, h7, ?_, ?_, ?_, ?_, ?_⟩
    · have hz : z.toNat % 2 ^ 32 = (z.setWidth 32).toNat := (BitVec.toNat_setWidth ..).symm
      simp only [atomNew, hz, ← hb, beq_iff_eq, BitVec.toNat_inj]
      split <;> rfl
    · rw [f32, f32, hb]
      rfl
    · refine (ofNat_bf16_pair (bf16Add_lt ..)).trans ?_
      rw [← hb, ← toNat_extractLsb'_low, ← toNat_extractLsb'_low, ← toNat_extractLsb'_high, ← toNat_extractLsb'_high]
      rfl
    · rw [f32, f32, hb]
      rfl
    · rw [f32, f32, hb]
      rfl
  · have hatom (op : AtomOp) (d l : Bool) (hi : s.Issues t false) (ht : tagMem s.cls t = true) (hd : s.destOk r = true)
        (ha : s.srcOk a = true) (hb : s.srcOk b = true) (hl : l = true) (hreads : s.Reads2 a b x y u)
        (hspace : s.checkSpace s.me x x 0 = .ok ()) (hallowed : atomAllowed op (tagNum x) = true) (hal : x.toNat % atomSize op = 0)
        (hrange : s.rangeOk s.me x (atomSize op) = true) (hboard : boardFree s.tm x (atomSize op) = .ok ())
        (hplace : u.placeOf s.me (spotOf s.me x) (atomSize op) 0 .both x = .ok (pl, q)) (hfree : s.loadFree = .ok ())
        (halone : s.tm.sq = []) (hload : q.doLoad s.me (atomPlace (spotOf s.me x) pl) (atomSize op) x = .ok (bs, v))
        (hstore : v.doStore s.me (atomPlace (spotOf s.me x) pl)
          (leBytes (atomSize op) (atomNew op (leNat bs) y (if r.toNat < 48 then s.reg r.toNat else 0))) x = .ok w) :=
      run_atom (d := d) (l := l) hi (by simp [ht, hd, ha, hb, hl])
        ⟨hreads, hspace, hallowed, hal, hrange, hboard, hplace, hfree, halone, hload, hstore⟩
    refine List.forall_mem_cons.2 ⟨?_, List.forall_mem_cons.2 ⟨?_, List.forall_mem_cons.2 ⟨?_, List.forall_mem_cons.2 ⟨?_, List.forall_mem_singleton.2 ?_⟩⟩⟩⟩
    · exact hatom (.amo f) d true
    · exact hatom (.amow f) d true
    · exact hatom .cas false (regOk r)
    · exact hatom .casw false (regOk r)
    · exact hatom (.amof f) d (f < 4)

end Sys2Proof

/-! SUPPORT. Tickets and the words of the copies (R148, R153, R154). -/

namespace Sys2Proof

namespace Machine

theorem ticketOf_eq (seq : BitVec 16) (e : Nat) : ticketOf seq e = BitVec.ofNat 64 (e + 65536 * seq.toNat) := by
  simp [ticketOf, packW, Nat.mul_comm, Nat.add_comm]

theorem lt_three {f : BitVec 3} (h : f.toNat < 3) : decide (f < 3) = true := decide_eq_true h

end Machine

open Sys2Proof.Machine

/-- Settles O28: the words by their bodies; the steps by the entry that their event names. -/
theorem copyWordsAndStepsComplete : Obligations.CopyWordsAndStepsComplete := by
  refine ⟨?_, ?_⟩
  · intro s u t r a b f x y z k hi ht ha
    refine ⟨?_, fun ⟨hpops, hsrc⟩ => ⟨fun hnone => ?_, fun hsome => ?_⟩, fun hboard => ?_, fun hd hroom h => ?_⟩
    · intro hr hb hf ⟨hpops, v, w, hx, hy, hz⟩ hcheck hfree hk ticket ent v'
      have hl : (tagMem s.cls t && s.srcOk r && s.srcOk a && s.srcOk b && decide (f < 3)) = true := by
        rw [ht, hr, ha, hb, lt_three hf]
        rfl
      have hticket : ticketOf ent.seq k = ticket := ticketOf_eq ..
      refine ⟨fun hz0 => ?_, fun hz0 => ?_⟩
      · have hlen : (z.toNat == 0) = false := beq_false_of_ne (mt (fun h => BitVec.eq_of_toNat_eq h) hz0)
        refine run_headOf hi hl ?_
        simp only [hpops, hx, hy, hz, hcheck, hfree, hk, hlen, bind, Except.bind, Bool.false_eq_true, if_false]
        rw [← hticket]
      · refine run_headOf hi hl ?_
        simp only [hpops, hx, hy, hz, hcheck, hfree, hk, bind, Except.bind]
        rw [← hticket, if_pos (by rw [hz0]; rfl)]
    · refine run_headOf hi (by simp [ht, ha]) ?_
      simp [hpops, hsrc, hnone, bind, Except.bind]
    · refine run_stall (h := headOf t _) hi (by simp [ht, ha, headOf]) nofun ?_
      simp [hpops, hsrc, Option.isSome_iff_ne_none.2 hsome, longHold, bind, Except.bind]
    · exact run_headOf hi (by simp [ht]) (by simp [hboard])
    · exact run_headOf hi (by simp [ht, hd, ha]) (frameI_ok h hroom)
  · intro s t ent f c k e hteam hent hrun
    refine ⟨fun hdone => ?_, fun hlt hmove => ?_⟩
    · show execCopyComplete s = _
      have hst : (ent.st == CopySt.running && decide (ent.len ≤ ent.done)) = true := by simp [hrun, hdone]
      simp only [execCopyComplete, show s.teamN s.ev.core (s.ev.n / 8) = some t from hteam, show tget? t.board (s.ev.n % 8) = some ent from hent,
        hst, if_true]
      cases s.completeCopy s.ev.core (s.ev.n / 8) (s.ev.n % 8) t ent <;> rfl
    · show execCopyFaultHold s = _
      have hst : (ent.st != CopySt.running || decide (ent.len ≤ ent.done)) = false := by simp [hrun, hlt]
      simp only [execCopyFaultHold, show s.teamN s.ev.core (s.ev.n / 8) = some t from hteam, show tget? t.board (s.ev.n % 8) = some ent from hent,
        hst, Bool.false_eq_true, if_false, show s.moveWord (whoOf s.ev.core t) ent = .error (.fault f) from hmove]
      rfl

end Sys2Proof

/-! SUPPORT. The fences by their bodies (R158, R159). -/

namespace Sys2Proof

namespace Machine

/-- A fence whose order is met ends with the release and the acquire that it asks for. -/
theorem release_acquire_goOn {s u v : State} {rel acq : Bool} (hrel : (if rel = true then s.released s.me else .ok s) = .ok u)
    (hacq : (if acq = true then u.acquired s.me else .ok u) = .ok v) :
    (if rel = true then (s.released s.me).bind fun s1 =>
        if acq = true then (s1.acquired s.me).bind fun s2 => Except.ok s2.goOn else .ok s1.goOn
      else if acq = true then (s.acquired s.me).bind fun s2 => .ok s2.goOn else .ok s.goOn) = .ok v.goOn := by
  have hend (w : State) (h : (if acq = true then w.acquired s.me else .ok w) = .ok v) :
      (if acq = true then (w.acquired s.me).bind fun s2 => Except.ok s2.goOn else .ok w.goOn) = .ok v.goOn := by
    cases acq with
    | false => rw [Except.ok.inj h]; rfl
    | true => rw [if_pos rfl] at h ⊢; rw [h]; rfl
  cases rel with
  | false =>
    obtain rfl : s = u := Except.ok.inj hrel
    exact hend s hacq
  | true =>
    rw [if_pos rfl] at hrel ⊢
    rw [hrel]
    exact hend u hacq

end Machine

open Sys2Proof.Machine

/-- Settles O29: each order of `FENCE`, and `XFENCE` of one strand and of all three. -/
theorem fencesCompleteInOrder : Obligations.FencesCompleteInOrder := by
  intro s u v t k z a b release acquire hi hz
  have hz' : decide (z < 5) = true := decide_eq_true hz
  refine ⟨fun hloads => ⟨fun hk hacq => ?_, fun hk hst hserr hrel => ?_, fun hk hst hserr hrel hacq => ?_⟩,
    fun ha hb hown hall hrel hacq => ?_⟩
  · subst hk
    refine run_headOf hi (by rw [hz']; rfl) ?_
    simp only [hloads, needWait, if_true, bind, Except.bind]
    exact release_acquire_goOn (rel := false) rfl hacq
  · subst hk
    refine run_headOf hi (by rw [hz']; rfl) ?_
    simp only [hloads, hst, hserr, needWait, if_true, ite_self, bind, Except.bind]
    exact release_acquire_goOn (acq := false) hrel rfl
  · subst hk
    refine run_headOf hi (by rw [hz']; rfl) ?_
    simp only [hloads, hst, hserr, needWait, if_true, ite_self, bind, Except.bind]
    exact release_acquire_goOn hrel hacq
  · refine run_headOf hi (by rw [hz', bne_iff_ne.2 ha, bne_iff_ne.2 hb]; rfl) ?_
    by_cases ht : t = .W
    · obtain ⟨hreached, hdone⟩ := hall ht
      have hdone' : (s.passedBy || (maskDone s.tm .C a && maskDone s.tm .A a && maskDone s.tm .X a)) = true := by
        simpa [and_assoc] using hdone
      simp only [ht, beq_self_eq_true, if_true, needWait, hreached, hdone', bind, Except.bind]
      exact release_acquire_goOn hrel hacq
    · simp only [beq_false_of_ne ht, Bool.false_eq_true, if_false, needWait, hown ht, if_true, bind, Except.bind]
      exact release_acquire_goOn hrel hacq

end Sys2Proof

/-! SUPPORT. Joining a flock at its home die and at another one (R161, R280). -/

namespace Sys2Proof

namespace Machine

variable {s u v : State} {i : TeamId} {id : Nat}

theorem run_headOf_stall {l : Bool} {t : Tag} {k : Hold} {body : State → Iss Done} (hi : s.Issues t false) (hl : l = true)
    (hb : body s = .ok { u.goOn with held := some k }) : s.run (headOf t l) body = .next (u.noteHold k) :=
  run_held (h := headOf t l) (d := { u.goOn with held := some k }) hi hl nofun hb rfl

theorem run_headOf_fault {l : Bool} {t : Tag} {c : Code} {a : W64} {k : Nat} {body : State → Iss Done} (hi : s.Issues t false) (hl : l = true)
    (hb : body s = flt c a k) : s.run (headOf t l) body = .next (s.faulted c a k) :=
  run_fault (h := headOf t l) hi hl nofun hb

theorem joinFlock_home (hform : flockForm id = true) (hsite : flockSite id = s.cur.site)
    (hjoin : s.flockJoin (flockSite id) (flockEntry id) { key := idKey i, site := flockSite id, node := idNode i } i.fold = some v) :
    s.joinFlock i id = .ok (v.setTm { v.tm with flock := some id }).goOn := by
  simp only [State.joinFlock, need, hform, hsite, beq_self_eq_true, if_true, bind, Except.bind]
  rw [hsite] at hjoin
  rw [hjoin]

theorem joinFlock_unrouted (hform : flockForm id = true) (hsite : flockSite id ≠ s.cur.site) (hroute : s.routed s.cur.site (flockSite id) = false) :
    s.joinFlock i id = flt .FLOCK 0 0 := by
  simp [State.joinFlock, need, hform, hsite, hroute, bind, Except.bind, flt]

theorem joinFlock_away (hform : flockForm id = true) (hsite : flockSite id ≠ s.cur.site) (hroute : s.routed s.cur.site (flockSite id) = true) :
    s.joinFlock i id = .ok { ((s.setTm { s.tm with join := .asked }).sendFlock s.cur.site (flockSite id)
      (.join (flockEntry id) (idKey i) s.cur.site i.fold (idNode i))).goOn with held := some .stall } := by
  simp [State.joinFlock, need, hform, hsite, hroute, bind, Except.bind]

/-- What `FJOIN` of C does once it has its flock's id: from the state of the team alone (R161). -/
def State.joinStep (s u : State) (i : TeamId) (id : Nat) : Iss Done := do
  need (!i.fw && s.tm.flock.isNone) .FLOCK 0 0
  match s.tm.join with
  | .asked => hold
  | .refused => flt .FLOCK 0 0
  | .joined => .ok (u.setTm { u.tm with join := .idle, flock := some id }).goOn
  | .idle =>
    let d ← u.joinFlock i id
    match d.held with
    | none => .ok d
    | some _ => s.joinFlock i id

/-- `FJOIN` of C by its operand or by its node's flock. -/
theorem run_fjoin {a : BitVec 6} {n : BitVec 10} {x : W64} {o : Host.Outcome State Fault Refusal} (hC : s.strand = .C) (hid : s.tm.id = some i)
    (hsrc : (n = 0 ∧ a = 0 ∧ u = s ∧ s.nodeFlock i = some id) ∨
      (n = 1 ∧ s.srcOk a = true ∧ s.Reads1 a x u ∧ id = (x.extractLsb' 0 16).toNat))
    (hrun : ∀ (l : Bool) (body : State → Iss Done), l = true → body s = s.joinStep u i id → s.run (headOf .W l) body = o) :
    exec (.fjoin a n) s = o := by
  obtain ⟨rfl, rfl, rfl, hnode⟩ | ⟨rfl, ha, ⟨hpops, hread⟩, rfl⟩ := hsrc
  · refine hrun _ _ rfl ?_
    simp only [hC, hid, hnode, State.joinStep, pure, Except.pure, bind, Except.bind]
    rfl
  · refine hrun _ _ (by simp [ha]) ?_
    have hfield : fieldW x 15 0 = (x.extractLsb' 0 16).toNat := (toNat_extractLsb'_eq_bits x 0 16 15 rfl).symm
    simp only [hC, hid, hpops, hread, hfield, State.joinStep, pure, Except.pure, bind, Except.bind]
    rfl

end Machine

open Sys2Proof.Machine

/-- Settles O30: `FJOIN` by the state of its team's join, `FLEAVE` by its flock. -/
theorem flockJoinAndLeaveComplete : Obligations.FlockJoinAndLeaveComplete := by
  intro s u v a n x i id hi
  refine ⟨fun hs hn => ?_, fun hs => ?_, fun hC hid hsrc hfl => ⟨fun hfw => ?_, fun hfw hj hform hsite hjoin => ?_,
    fun hfw hj hform hsite hcur hroute => ?_, fun hfw hj hform hsite hcur hroute => ?_, fun hfw hj => ?_⟩, fun hC hfl => ?_⟩
  · refine run_headOf hi ?_ (by simp [hs])
    obtain ⟨rfl, rfl⟩ | rfl := hn <;> simp [hs]
  · exact run_headOf hi rfl (by simp [hs])
  · refine run_fjoin hC hid hsrc fun l body hl hb => run_headOf_fault hi hl (hb.trans ?_)
    simp [State.joinStep, need, hfw, flt, bind, Except.bind]
  · refine run_fjoin hC hid hsrc fun l body hl hb => run_headOf hi hl (hb.trans ?_)
    simp only [State.joinStep, need, hfw, hfl, hj, joinFlock_home hform hsite hjoin, bind, Except.bind]
    rfl
  · refine run_fjoin hC hid hsrc fun l body hl hb => run_headOf_fault hi hl (hb.trans ?_)
    rw [← hcur] at hsite hroute
    simp only [State.joinStep, need, hfw, hfl, hj, joinFlock_unrouted hform hsite hroute, bind, Except.bind]
    rfl
  · refine run_fjoin hC hid hsrc fun l body hl hb => run_headOf_stall hi hl (hb.trans ?_)
    have hu : u.routed u.cur.site (flockSite id) = true := hcur ▸ hroute u (by simp)
    have hsite' : flockSite id ≠ u.cur.site := hcur ▸ hsite
    simp only [State.joinStep, need, hfw, hfl, hj, joinFlock_away hform hsite' hu, joinFlock_away hform hsite (hroute s (by simp)), bind,
      Except.bind]
    rfl
  · refine run_fjoin hC hid hsrc fun l body hl hb => run_headOf hi hl (hb.trans ?_)
    simp only [State.joinStep, need, hfw, hfl, hj, bind, Except.bind]
    rfl
  · refine run_headOf hi rfl ?_
    simp [hC, need, Option.isSome_iff_ne_none.2 hfl, bind, Except.bind]

end Sys2Proof

/-! SUPPORT. The words of an episode, the messages to a flock's home die, and what a completed episode gives (R162 to R164, R280 to R283). -/

namespace Sys2Proof

namespace Machine

variable {s u w t : State} {id : Nat} {a : BitVec 6} {v : W64} {k : EpKind} {e : FlockEnt}

/-! ### `FBAR` and `FRED` -/

theorem fbarFollow_ok (hacq : s.acquired s.me = .ok u) : s.fbarFollow = .ok (if s.strand = .X then u.arrivalDone else u).goOn := by
  simp only [State.fbarFollow, hacq, bind, Except.bind, beq_iff_eq]

theorem fbarLead_complete (hall : s.allReached = true) (hroom : s.room false a = .ok ()) (hfl : s.tm.flock = some id)
    (harr : s.tm.arrival = .complete k (some v)) (hacq : s.acquired s.me = .ok u) : s.fbarLead a = .ok (u.put false a v).goOn := by
  simp only [State.fbarLead, hall, hroom, hfl, harr, hacq, needWait, bind, Except.bind]
  rfl

theorem fbarLead_idle (hall : s.allReached = true) (hroom : s.room false a = .ok ()) (hfl : s.tm.flock = some id)
    (harr : s.tm.arrival = .idle) (hsq : s.tm.sq = []) (hlq : lqLoads s.tm = 0)
    (hserr : s.tm.serr.getLsbD 31 = true → s.tm.serrStrand = .C) (hraise : s.raiseSerr = .ok ()) (hrel : s.released s.me = .ok u)
    (hw : u.arriveAt id .fbar 0 = .ok w) : s.fbarLead a = .ok (w.waitOn waitFlock) := by
  have hserr' : (!(s.tm.serr.getLsbD 31 && s.tm.serrStrand != .C)) = true := by
    rw [Bool.not_eq_true', Bool.and_eq_false_iff, bne_eq_false_iff_eq, ← Bool.not_eq_true]
    exact Decidable.or_iff_not_imp_left.2 fun h => hserr (Decidable.not_not.1 h)
  simp only [State.fbarLead, hall, hroom, hfl, harr, needWait, hsq, hlq, hserr', hraise, hrel, hw, Except.map, List.isEmpty_nil,
    beq_self_eq_true, Bool.and_self, if_true, bind, Except.bind]

/-- `FBAR` runs as any word where C reaches it, or where C has passed it. -/
theorem exec_fbar_of_C (hs : s.strand = .C) : exec (.fbar a) s = s.run (headOf .W (s.strand != .C || s.destOk a)) fun s =>
    if s.strand == .C then s.fbarLead a else s.fbarFollow :=
  if_neg (by simp [hs])

theorem exec_fbar_of_arrival (harr : s.tm.arrival ≠ .idle) : exec (.fbar a) s = s.run (headOf .W (s.strand != .C || s.destOk a)) fun s =>
    if s.strand == .C then s.fbarLead a else s.fbarFollow :=
  if_neg (by simp [harr])

/-! ### Messages -/

theorem flockJoin_some {site n fold : Nat} {m : Member} (he : t.flockAt site n = some e) (hf : e.fold = fold)
    (hx : e.kind = some .xph → ∀ x ∈ e.members, x.site = m.site) :
    t.flockJoin site n m fold = some (t.setFlock site n { e with members := e.members ++ [m], had := true }) := by
  have hsame : (e.kind == some .xph && e.members.any fun x => x.site != m.site) = false := by
    rw [Bool.and_eq_false_iff, beq_eq_false_iff_ne, List.any_eq_false]
    by_cases hk : e.kind = some .xph
    · exact .inr fun x hm => by simpa using hx hk x hm
    · exact .inl hk
  simp [State.flockJoin, he, hf, hsame]

theorem flockJoin_none {site n fold : Nat} {m : Member} (he : t.flockAt site n = some e) (hf : e.fold ≠ fold) :
    t.flockJoin site n m fold = none := by
  simp [State.flockJoin, he, hf]

theorem members_foldl_arrive (l : List ArriveRec) (e : FlockEnt) : (l.foldl FlockEnt.arrive e).members = e.members := by
  induction l generalizing e with
  | nil => rfl
  | cons b l ih => exact ih (e.arrive b)

theorem arrived_foldl_arrive (l : List ArriveRec) (e : FlockEnt) : (l.foldl FlockEnt.arrive e).arrived = e.arrived ++ l := by
  induction l generalizing e with
  | nil => simp
  | cons b l ih =>
    rw [List.foldl_cons, ih]
    simp [FlockEnt.arrive]

theorem members_without (e : FlockEnt) (node key : Nat) :
    (e.without node key).members = e.members.filter fun m => !(m.node == node && m.key == key) := members_foldl_arrive ..

theorem arrived_without (e : FlockEnt) (node key : Nat) :
    (e.without node key).arrived = e.arrived.filter fun a => !(a.node == node && a.key == key) := arrived_foldl_arrive ..

theorem flockLeave_last {site n node key : Nat} (he : t.flockAt site n = some e)
    (hms : (e.members.filter fun m => !(m.node == node && m.key == key)) = []) (hhad : e.had = true) :
    t.flockLeave site n node key = t.freeFlock site n := by
  simp only [State.flockLeave, he, members_without, hms, hhad]
  rfl

theorem flockLeave_others {site n node key : Nat} (he : t.flockAt site n = some e)
    (hms : (e.members.filter fun m => !(m.node == node && m.key == key)) ≠ []) :
    t.flockLeave site n node key = (t.setFlock site n (e.without node key)).closeEpisode site n := by
  have hne : ((e.without node key).members.isEmpty && e.had) = false := by
    rw [members_without, List.isEmpty_eq_false_iff.2 hms, Bool.false_and]
  simp only [State.flockLeave, he, hne, Bool.false_eq_true, if_false]

theorem contribute_none {site : Nat} {a : ArriveRec} (h : a.kind ≠ .fred 3 ∨ e.area = none ∨ e.node ≠ some a.node) :
    s.contribute site e a = .ok s := by
  unfold State.contribute
  cases harea : e.area with
  | none => rfl
  | some p =>
    have hc : (a.kind != .fred 3 || e.node != some a.node) = true := by
      rw [harea] at h
      simpa using h
    simp only [hc, if_true]

/-! ### Results -/

/-- What the contributions of FN 0 to 2 come to (R164). -/
def foldFred (fn : BitVec 3) (b : ArriveRec) (l : List ArriveRec) : W64 := l.foldl (fun r c => fredFold fn r c.val) b.val

theorem value_foldl_arrive {fn : BitVec 3} (l : List ArriveRec) (e : FlockEnt) (hne : e.arrived ≠ [])
    (hl : ∀ c ∈ l, c.kind = .fred fn) : (l.foldl FlockEnt.arrive e).value = l.foldl (fun r c => fredFold fn r c.val) e.value := by
  induction l generalizing e with
  | nil => rfl
  | cons c l ih =>
    have hc := hl c List.mem_cons_self
    have hval : (e.arrive c).value = fredFold fn e.value c.val := by
      simp [FlockEnt.arrive, hc, hne]
    rw [List.foldl_cons, ih (e.arrive c) (by simp [FlockEnt.arrive]) fun d hd => hl d (List.mem_cons_of_mem c hd), hval]
    rfl

theorem value_of_arrivals {fn : BitVec 3} (e : FlockEnt) (b : ArriveRec) (l : List ArriveRec) (he : e.arrived = [])
    (hl : ∀ c ∈ b :: l, c.kind = .fred fn) : ((b :: l).foldl FlockEnt.arrive e).value = foldFred fn b l := by
  have hb := hl b List.mem_cons_self
  have hval : (e.arrive b).value = b.val := by simp [FlockEnt.arrive, hb, he]
  rw [List.foldl_cons, value_foldl_arrive l (e.arrive b) (by simp [FlockEnt.arrive]) fun d hd => hl d (List.mem_cons_of_mem b hd), hval]
  rfl

/-- Where an episode agrees, each of its arrivals is of the kind of the first. -/
theorem kind_of_agrees (h : e.agrees = true) {b : ArriveRec} {l : List ArriveRec} (harr : e.arrived = b :: l) :
    ∀ c ∈ b :: l, c.kind = b.kind := by
  have hk : e.kind = some b.kind := by rw [FlockEnt.kind, harr]; rfl
  simp only [FlockEnt.agrees, hk, Bool.and_eq_true, List.all_eq_true, beq_iff_eq] at h
  rw [← harr]
  exact h.1

theorem foldFred_sum (b : ArriveRec) (l : List ArriveRec) :
    foldFred 0 b l = BitVec.ofNat 64 (((b :: l).map fun c => c.val.toNat).sum) := by
  have hfold (l : List ArriveRec) (r : W64) : l.foldl (fun r c => fredFold 0 r c.val) r =
      BitVec.ofNat 64 (r.toNat + (l.map fun c => c.val.toNat).sum) := by
    induction l generalizing r with
    | nil => simp
    | cons c l ih =>
      have hstep : fredFold 0 r c.val = r + c.val := rfl
      rw [List.foldl_cons, ih, hstep]
      apply BitVec.eq_of_toNat_eq
      simp only [BitVec.toNat_add, BitVec.toNat_ofNat, List.map_cons, List.sum_cons]
      omega
  rw [List.map_cons, List.sum_cons]
  exact hfold l b.val

/-- A fold that keeps the one of two words that `le` prefers ends with a word of the list that all others follow. -/
theorem foldl_best {g : W64 → W64 → W64} {le : W64 → W64 → Prop} (hrefl : ∀ x, le x x) (htrans : ∀ x y z, le x y → le y z → le x z)
    (hg : ∀ x y, (g x y = x ∨ g x y = y) ∧ le (g x y) x ∧ le (g x y) y) (b : ArriveRec) (l : List ArriveRec) :
    (∀ c ∈ b :: l, le (l.foldl (fun r c => g r c.val) b.val) c.val) ∧ ∃ c ∈ b :: l, l.foldl (fun r c => g r c.val) b.val = c.val := by
  have hfold (l : List ArriveRec) (r : W64) : le (l.foldl (fun r c => g r c.val) r) r ∧
      (∀ c ∈ l, le (l.foldl (fun r c => g r c.val) r) c.val) ∧
      (l.foldl (fun r c => g r c.val) r = r ∨ ∃ c ∈ l, l.foldl (fun r c => g r c.val) r = c.val) := by
    induction l generalizing r with
    | nil => exact ⟨hrefl r, nofun, .inl rfl⟩
    | cons c l ih =>
      obtain ⟨hle, hall, hmem⟩ := ih (g r c.val)
      obtain ⟨hor, hgr, hgc⟩ := hg r c.val
      refine ⟨htrans _ _ _ hle hgr, List.forall_mem_cons.2 ⟨htrans _ _ _ hle hgc, hall⟩, ?_⟩
      rw [List.foldl_cons]
      obtain heq | ⟨d, hd, heq⟩ := hmem
      · obtain hr | hc := hor
        · exact .inl (heq.trans hr)
        · exact .inr ⟨c, List.mem_cons_self, heq.trans hc⟩
      · exact .inr ⟨d, List.mem_cons_of_mem c hd, heq⟩
  obtain ⟨hle, hall, hmem⟩ := hfold l b.val
  refine ⟨List.forall_mem_cons.2 ⟨hle, hall⟩, ?_⟩
  obtain heq | ⟨d, hd, heq⟩ := hmem
  · exact ⟨b, List.mem_cons_self, heq⟩
  · exact ⟨d, List.mem_cons_of_mem b hd, heq⟩

theorem fredFold_min (x y : W64) : (fredFold 1 x y = x ∨ fredFold 1 x y = y) ∧ (fredFold 1 x y).toInt ≤ x.toInt ∧
    (fredFold 1 x y).toInt ≤ y.toInt := by
  have hstep : fredFold 1 x y = if y.slt x then y else x := rfl
  rw [hstep]
  simp only [BitVec.slt_iff_toInt_lt]
  split
  · exact ⟨.inr rfl, by omega, Int.le_refl _⟩
  · exact ⟨.inl rfl, Int.le_refl _, by omega⟩

theorem fredFold_max (x y : W64) : (fredFold 2 x y = x ∨ fredFold 2 x y = y) ∧ x.toInt ≤ (fredFold 2 x y).toInt ∧
    y.toInt ≤ (fredFold 2 x y).toInt := by
  have hstep : fredFold 2 x y = if x.slt y then y else x := rfl
  rw [hstep]
  simp only [BitVec.slt_iff_toInt_lt]
  split
  · exact ⟨.inr rfl, by omega, Int.le_refl _⟩
  · exact ⟨.inl rfl, Int.le_refl _, by omega⟩

theorem result_fred (h : e.agrees = true) (sum : W64) (base : Nat) {c : ArriveRec} {fn : BitVec 3} (hc : c.kind = .fred fn) :
    e.result sum base c = some (if fn = 3 then sum else e.value) := by
  simp only [FlockEnt.result, h, hc, Bool.not_true, Bool.false_eq_true, if_false, beq_iff_eq]

theorem result_fbar (h : e.agrees = true) (sum : W64) (base : Nat) {c b : ArriveRec} {l : List ArriveRec} (hc : c.kind = .fbar)
    (harr : e.arrived = b :: l) : e.result sum base c = some (if c.key = b.key ∧ c.node = b.node then 1 else 0) := by
  simp only [FlockEnt.result, h, hc, harr, Bool.not_true, Bool.false_eq_true, if_false, List.head?_cons, Option.map_some, b2w,
    Bool.and_eq_true, beq_iff_eq, Option.some.injEq, eq_comm (a := b.key), eq_comm (a := b.node)]

end Machine

open Sys2Proof.Machine

/-- Settles O31: the words by the arrival of their team, the messages one by one, the results by folding over the arrivals. -/
theorem flockEpisodesAndMessagesComplete : Obligations.FlockEpisodesAndMessagesComplete := by
  refine ⟨⟨fun s u w d r a f g k x v id => ⟨fun hi harr hs hacq => ?_,
      fun hi hs ha hall hroom hfl => ⟨fun harr hacq => ?_, fun harr hsq hlq hserr hraise hrel hw => ?_⟩,
      fun hi hd ha hf hroom hread hfl => ⟨fun harr hw => ?_, fun harr => ?_⟩⟩, ?_⟩, ?_⟩
  · rw [exec_fbar_of_arrival harr]
    refine run_headOf hi (by simp [hs]) ?_
    rw [if_neg (by simpa using hs), fbarFollow_ok hacq]
  · rw [exec_fbar_of_C hs]
    refine run_headOf hi (by simp [ha]) ?_
    rw [if_pos (by simp [hs]), fbarLead_complete hall hroom hfl harr hacq]
  · rw [exec_fbar_of_C hs]
    refine run_headOf_waitOn hi (by simp [ha]) ?_
    rw [if_pos (by simp [hs]), fbarLead_idle hall hroom hfl harr hsq hlq hserr hraise hrel hw]
  · obtain ⟨hpops, hsrc⟩ := hread
    refine run_headOf_waitOn hi (by simp only [hd, ha, Bool.true_and]; exact decide_eq_true hf) ?_
    simp only [hpops, hroom, hsrc, hfl, harr, hw, Except.map, bind, Except.bind]
  · obtain ⟨hpops, hsrc⟩ := hread
    refine run_headOf hi (by simp only [hd, ha, Bool.true_and]; exact decide_eq_true hf) ?_
    simp only [hpops, hroom, hsrc, hfl, harr, bind, Except.bind]
  · intro s u n key site fold node k v rest e t he
    refine ⟨fun hmsg => ⟨fun hf hx => ?_, fun hf => ?_⟩, fun hmsg => ?_, fun hmsg => ?_⟩
    · intro q
      show execFlockJoinMessage s = _
      have hjoin : (s.dropFlockMsg s.ev.site).flockJoin s.ev.site n { key := key, site := site, node := node } fold = some q :=
        flockJoin_some he hf hx
      simp only [execFlockJoinMessage, hmsg, hjoin]
      rfl
    · show execFlockJoinMessage s = _
      have hjoin : (s.dropFlockMsg s.ev.site).flockJoin s.ev.site n { key := key, site := site, node := node } fold = none :=
        flockJoin_none he hf
      simp only [execFlockJoinMessage, hmsg, hjoin]
      rfl
    · intro left ms freed
      have hexec : exec .flockLeaveMessage s = .next (t.flockLeave s.ev.site n node key) := by
        show execFlockLeaveMessage s = _
        simp only [execFlockLeaveMessage, hmsg]
        rfl
      rw [hexec]
      refine ⟨members_without .., arrived_without .., fun hms hhad => ?_, fun hms => by rw [flockLeave_others he hms]⟩
      rw [flockLeave_last he hms hhad]
      refine ⟨fun harea => ?_, fun pa pages nd harea hnode => ?_⟩
      · simp only [State.freeFlock, he, harea]
        rfl
      · simp only [State.freeFlock, he, harea, hnode]
        rfl
    · intro a
      refine ⟨fun h => contribute_none h, fun hc => ?_⟩
      show execFlockArrivalMessage s = _
      simp only [execFlockArrivalMessage, hmsg]
      have harrive : t.flockArrive s.ev.site n a = .ok ((u.setFlock s.ev.site n (e.arrive a)).closeEpisode s.ev.site n) := by
        simp only [State.flockArrive, he, hc, Except.map]
      rw [show (s.dropFlockMsg s.ev.site).flockArrive s.ev.site n a = _ from harrive]
  · intro e₀ sum base a b l e he₀ hag ha
    have harr : e.arrived = b :: l := by rw [arrived_foldl_arrive, he₀, List.nil_append]
    have hkind := kind_of_agrees hag harr
    have hall {fn : BitVec 3} (h : a.kind = .fred fn) : ∀ c ∈ b :: l, c.kind = .fred fn := fun c hc =>
      (hkind c hc).trans ((hkind a ha).symm.trans h)
    have hres {fn : BitVec 3} (h : a.kind = .fred fn) (h3 : fn ≠ 3) : e.result sum base a = some (foldFred fn b l) := by
      rw [result_fred hag sum base h, if_neg h3, ← value_of_arrivals e₀ b l he₀ (hall h)]
    refine ⟨harr, fun h => result_fbar hag sum base h harr, fun h => ?_, fun h => ?_, fun h => ?_, fun h => result_fred hag sum base h⟩
    · rw [hres h (by decide), foldFred_sum]
    · obtain ⟨hle, hmem⟩ := foldl_best (g := fredFold 1) (le := fun x y => x.toInt ≤ y.toInt) (fun _ => Int.le_refl _) (fun _ _ _ => Int.le_trans)
        fredFold_min b l
      exact ⟨_, hres h (by decide), hle, hmem⟩
    · obtain ⟨hle, hmem⟩ := foldl_best (g := fredFold 2) (le := fun x y => y.toInt ≤ x.toInt) (fun _ => Int.le_refl _)
        (fun _ _ _ h1 h2 => Int.le_trans h2 h1) fredFold_max b l
      exact ⟨_, hres h (by decide), hle, hmem⟩

end Sys2Proof

/-! SUPPORT. The words of a transfer phase (R165 to R167), each with the phase in which it may be issued. -/

namespace Sys2Proof

namespace Machine

variable {s u w : State} {id : Nat} {p : Phase} {v : W64}

theorem xphLead_begun (hfl : s.tm.flock = some id) (hst : stripsAt s.cur.site ≠ 0) (harr : s.tm.arrival = .complete .xph (some v))
    (hp : s.tm.phase = some p) (hrun : p.ended = false) (hacq : s.arrivalDone.acquired s.me = .ok u) : s.xphLead = .ok u.goOn := by
  simp [State.xphLead, hfl, need, hst, harr, hp, hrun, hacq, bind, Except.bind]

theorem xphLead_arrives {e : FlockEnt} (hfl : s.tm.flock = some id) (hst : stripsAt s.cur.site ≠ 0) (harr : s.tm.arrival = .idle)
    (he : s.flockAt (flockSite id) (flockEntry id) = some e) (hms : ∀ m ∈ e.members, m.site = s.cur.site) (hq : queuesDone s.tm = true)
    (hscat : s.tm.scat = []) (hrel : s.released s.me = .ok u) (hw : u.arriveAt id .xph 0 = .ok w) :
    s.xphLead = .ok (w.waitOn waitFlock) := by
  have hall : (e.members.all fun m => m.site == s.cur.site) = true := List.all_eq_true.2 fun m hm => beq_iff_eq.2 (hms m hm)
  simp only [State.xphLead, hfl, need, bne_iff_ne, ne_eq, hst, not_false_eq_true, harr, he, hall, needWait, hq, hscat, hrel, hw,
    List.isEmpty_nil, Bool.and_self, if_true, Except.map, bind, Except.bind]

theorem xphLead_no_strips (hfl : s.tm.flock = some id) (hst : stripsAt s.cur.site = 0) : s.xphLead = flt .XPHASE 0 0 := by
  simp [State.xphLead, hfl, need, hst, flt, bind, Except.bind]

theorem phaseCycle_ok {i : BitVec 9} (hp : s.tm.phase = some p) (hlast : ∀ l, p.last = some l → l < i.toNat) :
    s.phaseCycle i = .ok (p.base + i.toNat) := by
  cases hl : p.last with
  | none => simp [State.phaseCycle, hp, need, hl, bind, Except.bind]
  | some l => simp [State.phaseCycle, hp, need, hl, hlast l hl, bind, Except.bind]

theorem xendLead_ended (hp : s.tm.phase = some p) (he : p.ended = true) : s.xendLead = .ok (s.setTm { s.tm with phase := none }).goOn := by
  simp only [State.xendLead, hp, he, if_true]

/-- The end of a phase that every member has reached, on quiet chains (R167). -/
theorem xendLead_all (hp : s.tm.phase = some p) (he : p.ended = false) (hall : s.allAtEnd p = true) (hquiet : s.chainsQuiet = true) :
    s.xendLead = .ok { ({ s.setTm { s.tm with phase := none } with cyc := s.drivesGone } : State).goOn with
      trap := if collided (s.die s.cur.site).drives (coreStrip s.cur) p.base s.drivesGone then some ⟨.XCOLLIDE, 0, 0, [], false, none⟩
        else none } := by
  simp only [State.xendLead, hp, he, hall, hquiet, Bool.not_true, Bool.or_self, Bool.false_eq_true, if_false]

end Machine

open Sys2Proof.Machine

/-- Settles O32: each word under the head of R165 with its body. -/
theorem transferPhaseWordsComplete : Obligations.TransferPhaseWordsComplete := by
  intro s u w r a i c x v id p e
  refine ⟨fun hi hs => ?_, fun hi hs hfl hst => ⟨fun harr hp hrun hacq => ?_, fun harr he hms hq hscat hrel hw => ?_⟩,
    fun hi hs hfl hst => ?_, fun hi hp hlast => ?_, fun hi hs => ?_, fun hi hs hp => ?_⟩
  · exact run_past (h := ⟨.W, true, false, s.xphReady, none⟩) hi rfl nofun (by simp [hs])
  · refine run_past (h := ⟨.W, true, false, s.xphReady, none⟩) hi rfl nofun ?_
    rw [hs]
    exact xphLead_begun hfl hst harr hp hrun hacq
  · refine run_held (h := ⟨.W, true, false, s.xphReady, none⟩) (d := w.waitOn waitFlock) hi rfl nofun ?_ rfl
    rw [hs]
    exact xphLead_arrives hfl hst harr he hms hq hscat hrel hw
  · refine run_fault (h := ⟨.W, true, false, s.xphReady, none⟩) hi rfl nofun ?_
    rw [hs]
    exact xphLead_no_strips hfl hst
  · intro t
    refine ⟨fun ha hsrc hturn hread => ?_, fun hd hroom hturn => ?_⟩
    · intro d
      have hl : (s.srcOk a && (decide (a.toNat < 56) || a == 62)) = true := by
        simpa [hsrc] using ha
      refine run_past (h := ⟨.X, _, false, true, none⟩) hi hl nofun ?_
      simp only [phaseCycle_ok hp hlast, needWait, show s.phaseTurn (p.base + i.toNat) 0 = true from hturn, hread, bind, Except.bind]
      rfl
    · refine run_past (h := ⟨.X, _, false, true, none⟩) hi hd nofun ?_
      simp only [phaseCycle_ok hp hlast, hroom, needWait, show s.phaseTurn (p.base + i.toNat) 1 = true from hturn, bind, Except.bind]
      rfl
  · exact run_past (h := ⟨.W, true, false, true, none⟩) hi rfl nofun (by simp [hs])
  · intro out l now
    have hbody : (if (s.strand == .X) = true then s.xendLead else .ok s.goOn) = s.xendLead := if_pos (beq_iff_eq.2 hs)
    refine ⟨fun hend => ?_, fun hend hall hquiet hcol => ?_, fun hend hall hquiet hst hcol => ?_⟩
    · exact run_past (h := ⟨.W, true, false, true, none⟩) hi rfl nofun (hbody.trans (xendLead_ended hp hend))
    · refine run_past (h := ⟨.W, true, false, true, none⟩) hi rfl nofun (hbody.trans ((xendLead_all hp hend hall hquiet).trans ?_))
      rw [show collided (s.die s.cur.site).drives (coreStrip s.cur) p.base s.drivesGone = false from hcol]
      rfl
    · refine run_trap (h := ⟨.W, true, false, true, none⟩)
        (d := { ({ out with cyc := now } : State).goOn with trap := some ⟨.XCOLLIDE, 0, 0, [], false, none⟩ }) hi rfl nofun
        (hbody.trans ((xendLead_all hp hend hall hquiet).trans ?_)) rfl rfl
      rw [show collided (s.die s.cur.site).drives (coreStrip s.cur) p.base s.drivesGone = true from hcol]
      rfl

end Sys2Proof

/-! SUPPORT. The checks that the brand words make of their register, in the order of R169. -/

namespace Sys2Proof

namespace Machine

variable {s : State} {a : BitVec 4} {i : TeamId}

theorem brandCheck_ok (h : s.brandOk s.tm.foldNo (s.tm.brand a).bits = true) : s.brandCheck a = .ok (s.tm.brand a).bits := by
  simp [State.brandCheck, need, h, bind, Except.bind]

theorem brandCheck_fault (h : s.brandOk s.tm.foldNo (s.tm.brand a).bits = false) : s.brandCheck a = flt .BRAND 0 0 := by
  simp [State.brandCheck, need, h, flt, bind, Except.bind]

/-- A register whose view, where it has one, is of a slot that has not been emptied (R386). -/
theorem viewCheck_ok (h : ∀ v, (s.tm.brand a).view = some v → s.tm.id = some i ∧
    (tget Node.reset (s.drv i.drv).nodes i.slot).dropped.contains v = false) : s.viewCheck a = .ok () := by
  unfold State.viewCheck
  cases hv : (s.tm.brand a).view with
  | none => rfl
  | some v =>
    obtain ⟨hid, hd⟩ := h v hv
    simp only [hid, need, hd, Bool.not_false, if_true]

theorem viewCheck_fault {v : Nat} (hv : (s.tm.brand a).view = some v) (hid : s.tm.id = some i)
    (hd : (tget Node.reset (s.drv i.drv).nodes i.slot).dropped.contains v = true) : s.viewCheck a = flt .BRAND 0 0 := by
  simp only [State.viewCheck, hv, hid, need, hd, Bool.not_true, Bool.false_eq_true, if_false]

theorem needRight_ok {x : W128} {k : Nat} (h : (brRights x).getLsbD k = true) : needRight x k = .ok () := if_pos h

theorem needRight_fault {x : W128} {k : Nat} (h : (brRights x).getLsbD k = false) : needRight x k = flt .RIGHTS 0 0 :=
  if_neg (by rw [h]; exact Bool.false_ne_true)

theorem fault_bind {α β : Type} (c : Code) (x : W64) (k : Nat) (f : α → Iss β) : ((flt c x k : Iss α) >>= f) = flt c x k := rfl

theorem ok_bind {α β : Type} (x : α) (f : α → Iss β) : ((Except.ok x : Iss α) >>= f) = f x := rfl

end Machine

open Sys2Proof.Machine

/-- Settles O33: each word behind its checks, and each fault at its check. -/
theorem brandWordsCompleteAndFaultInOrder : Obligations.BrandWordsCompleteAndFaultInOrder := by
  refine ⟨?_, ?_⟩
  · intro s u d r a b n m i x hi hbrand nd
    have hcheck : s.brandCheck a = .ok x := brandCheck_ok hbrand
    refine ⟨fun hd hroom hid hrights hopen => ?_, fun hd hroom => ?_, fun hview => ?_⟩
    · intro v
      refine run_headOf hi hd ?_
      simp only [hroom, hcheck, hid, hopen, need, hrights, if_true, ok_bind]
      rfl
    · refine ⟨?_, ?_, ?_, ?_⟩
      all_goals
        refine run_headOf hi (by rw [hd]; rfl) ?_
        simp only [hroom, hcheck, ok_bind]
        rfl
    · have hvc := viewCheck_ok hview
      refine ⟨fun hid hright hslot => ?_, fun hright hfree => ?_, fun hright => ⟨fun hnone => ?_, fun v hv => ?_⟩⟩
      · intro given
        refine run_headOf hi rfl ?_
        have hempty : (tget 0 (tget Node.reset (s.drv i.drv).nodes i.slot).slots (8 + n.toNat) == 0) = true := beq_iff_eq.2 hslot
        simp only [hcheck, hvc, needRight_ok hright, hid, need, hempty, if_true, ok_bind]
        cases (s.tm.brand a).view <;> rfl
      · intro y u
        refine run_headOf hi rfl ?_
        have hnull : ((s.tm.brand b).bits == 0) = true := beq_iff_eq.2 hfree
        simp only [hcheck, hvc, needRight_ok hright, need, hnull, if_true, ok_bind]
        rfl
      · refine run_headOf hi rfl ?_
        simp only [hcheck, hvc, needRight_ok hright, hnone, ok_bind]
      · intro emptied
        refine run_headOf hi rfl ?_
        simp only [hcheck, hvc, needRight_ok hright, hv, (hview v hv).1, ok_bind]
        rfl
  · intro s d r a b n f m i x hi hd hroom hf
    have hlf : (s.destOk r && decide (f < 4)) = true := by
      rw [hd, Bool.true_and]
      exact decide_eq_true hf
    refine ⟨fun hbad => ?_, ?_⟩
    · have hcheck := brandCheck_fault hbad
      refine ⟨run_headOf_fault hi hd ?_, run_headOf_fault hi hlf ?_, run_headOf_fault hi rfl ?_, run_headOf_fault hi rfl ?_,
        run_headOf_fault hi rfl ?_⟩
      all_goals simp only [hroom, hcheck, fault_bind, ok_bind]
    · intro nd
      refine ⟨fun hbrand h0 h1 => ?_, fun v hbrand hv hid hdrop => ?_, fun hbrand hview => ?_⟩
      · have hcheck : s.brandCheck a = .ok x := brandCheck_ok hbrand
        refine run_headOf_fault hi hd ?_
        simp only [hroom, hcheck, h0, h1, need, Bool.or_self, Bool.false_eq_true, if_false, fault_bind, ok_bind]
      · have hcheck : s.brandCheck a = .ok x := brandCheck_ok hbrand
        have hvc := viewCheck_fault hv hid hdrop
        refine ⟨run_headOf_fault hi rfl ?_, run_headOf_fault hi rfl ?_, run_headOf_fault hi rfl ?_⟩
        all_goals simp only [hcheck, hvc, fault_bind, ok_bind]
      · have hcheck : s.brandCheck a = .ok x := brandCheck_ok hbrand
        have hvc := viewCheck_ok hview
        refine ⟨fun hr => run_headOf_fault hi rfl ?_, fun hr => run_headOf_fault hi rfl ?_, fun hr => run_headOf_fault hi rfl ?_⟩
        all_goals simp only [hcheck, hvc, needRight_fault hr, fault_bind, ok_bind]

end Sys2Proof

/-! SUPPORT. `ERET` brings C back with the word that it had come from (R122, R192). -/

namespace Sys2Proof

namespace Machine

/-- A firmware core in its handler, entered by a C that stood at word 0 and had come from word 5. -/
def handlerFromFive : State :=
  let s : State := { State.reset with cur := ⟨Config.drvSite 0, 0⟩, strand := .C }
  s.setCore s.cur { s.core s.cur with ecause := 0x80000000, epc := 0, asideO := [(0, some 5)] }

theorem orgAfter_eret_handlerFromFive : orgAfter (exec .eret handlerFromFive) = some 5 := by decide

end Machine

open Sys2Proof.Machine

/-- Refutes O35: a C that was taken into its handler in sequential flow keeps the word it had come from, and the statement says that `ERET` is a
transfer of control. -/
theorem not_privilegedWordsComplete : ¬ Obligations.PrivilegedWordsComplete := by
  intro h
  have hret := ((h.1 handlerFromFive handlerFromFive 0 0 0 0 0 ⟨rfl, nofun, nofun⟩).1 (by decide)).2.1 (by decide)
  have horg := congrArg orgAfter hret
  rw [orgAfter_eret_handlerFromFive, orgAfter, st_retire] at horg
  exact absurd horg (by simp)

end Sys2Proof

/-! SUPPORT. The node and configuration words (R172, R174, R190), and the store of a `SIGNAL` (R173). -/

namespace Sys2Proof

namespace Machine

variable {s u v : State} {t : Tag}

/-- The bytes of a number, read back. -/
theorem leNat_leBytes (n v : Nat) : leNat (leBytes n v) = v % 256 ^ n := by
  induction n generalizing v with
  | zero => simp [leBytes, leNat, Nat.mod_one]
  | succ n ih =>
    rw [leBytes, leNat, ih, BitVec.toNat_ofNat, show 2 ^ 8 = 256 from rfl, Nat.pow_succ', Nat.mod_mul]

theorem leNat_leBytes_word (x : W64) : leNat (leBytes 8 x.toNat) = x.toNat := by
  rw [leNat_leBytes]
  exact Nat.mod_eq_of_lt x.isLt

theorem eq_ofNat_iff {n : BitVec 10} {k : Nat} (hk : k < 1024) : n = BitVec.ofNat 10 k ↔ n.toNat = k := by
  rw [← BitVec.toNat_inj, BitVec.toNat_ofNat, Nat.mod_eq_of_lt hk]

/-- What a write of a configuration register changes (R190). -/
theorem cfWrite_eq (s : State) (n : BitVec 10) (x : W64) : s.cfWrite n.toNat x =
    if n = 17 then s.setTm { s.tm with waitth := BitVec.ofNat 64 (min (max x.toNat 256) (s.core s.cur).waitmax.toNat) }
    else if n = 65 then s.setCore s.cur { s.core s.cur with epc := x &&& 0xFFFFFFFFFFFF }
    else if n = 67 then s.setCore s.cur { s.core s.cur with evec := x.setWidth 14 }
    else if n = 68 then s.setCore s.cur { s.core s.cur with pendsel := x.setWidth 32 &&& 0xFF } else s := by
  have h17 : n = 17 ↔ n.toNat = 17 := eq_ofNat_iff (k := 17) (by decide)
  have h65 : n = 65 ↔ n.toNat = 65 := eq_ofNat_iff (k := 65) (by decide)
  have h67 : n = 67 ↔ n.toNat = 67 := eq_ofNat_iff (k := 67) (by decide)
  have h68 : n = 68 ↔ n.toNat = 68 := eq_ofNat_iff (k := 68) (by decide)
  simp only [h17, h65, h67, h68]
  unfold State.cfWrite
  generalize n.toNat = k
  split
  · rfl
  · rfl
  · rfl
  · rfl
  · next h17 h65 h67 h68 => rw [if_neg h17, if_neg h65, if_neg h67, if_neg h68]

/-- The flock that `INST` names, all ones where there is none (R172). -/
theorem instInfo_flock (s : State) (i : TeamId) : s.instInfo i 5 = match s.nodeFlock i with
    | some k => BitVec.ofNat 64 k
    | none => -1 := rfl

/-- Whether a configuration word may be issued: privileged registers only on a firmware core. -/
theorem cfPriv_imp {n : Nat} (h : 64 ≤ n → s.cls = .drover) : cfPriv n = true → s.cls = .drover := fun hp => h (of_decide_eq_true hp)

theorem placeNow_same (s : State) (w : Who) (p : Place) (ea : W64) (size : Nat) (nd : Need) : s.placeNow w p ea size nd false = .ok (p, s) := by
  cases p <;> rfl

/-- A queued store that was not saved with its team is performed at the place that it was given (R354). -/
theorem performEnt_store {w : Who} {e : StoreEnt} {data : List Byte} (hag : e.again = false) (hadd : e.add = false)
    (h : s.doStore w e.place data e.ea = .ok v) : s.performEnt w e data = .ok v := by
  simp only [State.performEnt, hag, placeNow_same, hadd, Except.bind, h, Bool.false_eq_true, if_false]

/-- A queued datum is added to what stands at its place (R173). -/
theorem performEnt_add {w : Who} {e : StoreEnt} {data : List Byte} {old : Nat} (hag : e.again = false) (hadd : e.add = true)
    (h : s.doAtomic w e.place (.amo 0) (BitVec.ofNat 64 (leNat data)) 0 e.ea = .ok (old, v)) : s.performEnt w e data = .ok v := by
  simp only [State.performEnt, hag, placeNow_same, hadd, Except.bind, h, if_true, Except.map]

end Machine

open Sys2Proof.Machine

/-- Settles O34: each word by its body; a queued store by the place that it was given. -/
theorem nodeAndConfigurationWordsComplete : Obligations.NodeAndConfigurationWordsComplete := by
  refine ⟨fun s u t d r a n k f x i hi => ⟨fun ht hd hroom hid => ?_, fun ht hn hpriv => ⟨fun hd hroom => ?_, fun ha h => ?_⟩,
    fun ht hn h64 hcls hd ha => ?_⟩, ?_, fun s v w e pl x old hag hpl => ⟨fun hadd hst => ?_, fun hadd hat => ?_⟩⟩
  · have hinst (g : BitVec 3) (hg : decide (g < 6) = true) :
        exec (.inst t d r g) s = .next ((s.put d r (s.instInfo i g)).past t) := by
      refine run_headOf hi (by rw [ht, hd, hg]; rfl) ?_
      simp only [hid]
      exact frameV_ok hroom
    refine ⟨fun hk => ?_, hinst 0 rfl, hinst 1 rfl, hinst 2 rfl, hinst 3 rfl, hinst 4 rfl, ?_⟩
    · refine run_headOf hi (by rw [ht, hd, Bool.true_and, Bool.true_and]; exact decide_eq_true hk) ?_
      simp only [hid]
      exact frameV_ok hroom
    · rintro rfl
      refine ⟨_, hinst 5 rfl, fun hnone => ?_, fun g hg => ?_⟩
      · rw [instInfo_flock, hnone]
        rfl
      · rw [instInfo_flock, hg]
  · exact run_past (h := ⟨t, _, cfPriv n.toNat, false, none⟩) hi (by simp [tagCAX, ht, hd, hn]) (cfPriv_imp hpriv) (frameV_ok hroom)
  · intro c
    obtain ⟨hpops, hsrc⟩ := h
    rw [← cfWrite_eq]
    refine run_past (h := ⟨t, _, cfPriv n.toNat, false, none⟩) hi (by simp [tagCAX, ht, ha, hn]) (cfPriv_imp hpriv) ?_
    simp only [hpops, hsrc, ok_bind]
  · obtain ⟨hrun, hslip, _⟩ := hi
    have hp : cfPriv n.toNat = true := decide_eq_true h64
    exact ⟨run_priv (h := ⟨t, _, cfPriv n.toNat, false, none⟩) hrun hslip (by simp [tagCAX, ht, hd, hn]) hp hcls,
      run_priv (h := ⟨t, _, cfPriv n.toNat, false, none⟩) hrun hslip (by simp [tagCAX, ht, ha, hn]) hp hcls⟩
  · intro s u w q a b n x p sp pl hi ha hb ⟨hpops, z, hx, hy⟩ hst hserr htag hrel pol hchk hboard hn
    have htag' : (tagNum p == 0 || tagNum p == 4) = true := by simpa using htag
    have hpol : (if (tagNum p == 0) = true then 3 else 0) = pol := by simp only [pol, beq_iff_eq]
    obtain ⟨rfl, hplace⟩ | ⟨rfl, hplace⟩ := hn
    all_goals
      refine run_headOf hi (by rw [ha, hb]; rfl) ?_
      simp only [hpops, hx, hy, needWait, hst, List.isEmpty_nil, if_true, hserr, hrel, need, htag', hpol, hchk, hboard, ok_bind]
      exact congrArg (Bind.bind · fun q : Place × State =>
        (.ok (q.2.enqueueStore q.1 p 8 (some (leBytes 8 x.toNat)) _).goOn : Iss Done)) hplace
  · exact performEnt_store hag hadd (hpl ▸ hst)
  · refine performEnt_add hag hadd (old := old) ?_
    rw [leNat_leBytes_word, BitVec.ofNat_toNat, BitVec.setWidth_eq, hpl]
    exact hat

end Sys2Proof

/-! SUPPORT. The shapes of the vector words (R196): a word that may issue gives the lanes that its function makes, and raises `FMT` where its
entry does not fit. -/

namespace Sys2Proof

namespace Machine

variable {s u : State} {d l fok : Bool} {r a b : BitVec 6} {x y : List W32} {body : State → Iss Done}

theorem run_vecIllegal (hx : s.strand = .X) (hl : l = false) : s.run (headX l) body = .next (s.faulted .ILLEGAL 0 0) :=
  run_headOf_false (by rw [hx]; rfl) nofun hl

theorem run_vec1 {f : List W32 → List W32} (hi : s.Issues .X false) (hl : l = true) (hb : body s = s.vec1 d r a fok f) :
    (fok = true → s.Lanes1 a x u → s.room d r = .ok () → s.run (headX l) body = .next ((u.vput d r (f x)).past .X)) ∧
    (fok = false → s.run (headX l) body = .next (s.faulted .FMT 0 0)) := by
  refine ⟨?_, ?_⟩
  · rintro rfl h hr
    exact run_headOf hi hl (hb.trans (vec1_ok h hr))
  · rintro rfl
    exact run_headOf_fault hi hl (hb.trans (vec1_fmt s d r a f))

theorem run_vec2 {f : List W32 → List W32 → List W32} (hi : s.Issues .X false) (hl : l = true) (hb : body s = s.vec2 d r a b fok f) :
    (fok = true → s.Lanes2 a b x y u → s.room d r = .ok () → s.run (headX l) body = .next ((u.vput d r (f x y)).past .X)) ∧
    (fok = false → s.run (headX l) body = .next (s.faulted .FMT 0 0)) := by
  refine ⟨?_, ?_⟩
  · rintro rfl h hr
    exact run_headOf hi hl (hb.trans (vec2_ok h hr))
  · rintro rfl
    exact run_headOf_fault hi hl (hb.trans (vec2_fmt s d r a b f))

theorem run_vec3 {f : List W32 → List W32 → List W32 → List W32} (hi : s.Issues .X false) (hl : l = true)
    (hb : body s = s.vec3 d r a b fok f) :
    (fok = true → s.Lanes2 a b x y u → s.run (headX l) body = .next ((u.vput d r (f (s.vreg r.toNat) x y)).past .X)) ∧
    (fok = false → s.run (headX l) body = .next (s.faulted .FMT 0 0)) := by
  refine ⟨?_, ?_⟩
  · rintro rfl h
    exact run_headOf hi hl (hb.trans (vec3_ok h))
  · rintro rfl
    exact run_headOf_fault hi hl (hb.trans (vec3_fmt s d r a b f))

/-- The selectors of a two-source word, all allowed. -/
theorem sel_and3 {p q w : Bool} (hp : p = true) (hq : q = true) (hw : w = true) : (p && q && w) = true := by
  rw [hp, hq, hw]; rfl

end Machine

open Sys2Proof.Machine

/-- Settles O36: each word has one of three shapes, with the function that the statement names. -/
theorem vectorFloatWordsGiveTheirResults : Obligations.VectorFloatWordsGiveTheirResults := by
  refine ⟨fun s d r a b k hx => ⟨?_, ?_, fun h => run_vecIllegal hx h, ?_⟩, ?_⟩
  · simp only [List.forall_mem_cons, List.not_mem_nil, false_implies, implies_true, and_true]
    exact ⟨fun h => run_vecIllegal hx h, fun h => run_vecIllegal hx h, fun h => run_vecIllegal hx h, fun h => run_vecIllegal hx h,
      fun h => run_vecIllegal hx h⟩
  · simp only [List.forall_mem_cons, List.not_mem_nil, false_implies, implies_true, and_true]
    exact ⟨fun h => run_vecIllegal hx h, fun h => run_vecIllegal hx h⟩
  · have h1 (h : (s.destOk r && s.srcOk a) = false) : (s.destOk r && s.srcOk a && true) = false := by rw [h]; rfl
    simp only [List.forall_mem_cons, List.not_mem_nil, false_implies, implies_true, and_true]
    exact ⟨fun h => run_vecIllegal hx (h1 h), fun h => run_vecIllegal hx (h1 h), fun h => run_vecIllegal hx (h1 h),
      fun h => run_vecIllegal hx (h1 h)⟩
  intro s u d r a b k x y f w num hi ha
  refine ⟨?_, ?_, ?_⟩
  · simp only [List.forall_mem_cons, List.not_mem_nil, false_implies, implies_true, and_true]
    exact ⟨fun hd hb => run_vec2 hi (sel_and3 hd ha hb) rfl, fun hd hb => run_vec2 hi (sel_and3 hd ha hb) rfl,
      fun hd hb => run_vec2 hi (sel_and3 hd ha hb) rfl, fun hd hb => run_vec2 hi (sel_and3 hd ha hb) rfl,
      fun hd hb => run_vec2 hi (sel_and3 hd ha hb) rfl⟩
  · simp only [List.forall_mem_cons, List.not_mem_nil, false_implies, implies_true, and_true]
    exact ⟨fun hd hb => run_vec3 hi (sel_and3 hd ha hb) rfl, fun hd hb => run_vec3 hi (sel_and3 hd ha hb) rfl⟩
  · simp only [List.forall_mem_cons, List.not_mem_nil, false_implies, implies_true, and_true]
    exact ⟨fun hd => run_vec1 hi (sel_and3 hd ha rfl) rfl, fun hd => run_vec1 hi (sel_and3 hd ha rfl) rfl,
      fun hd => run_vec1 hi (sel_and3 hd ha rfl) rfl, fun hd => run_vec1 hi (sel_and3 hd ha rfl) rfl,
      fun hd => run_vec1 hi (sel_and3 hd ha rfl) rfl, fun hd => run_vec1 hi (sel_and3 hd ha rfl) rfl,
      fun hd => run_vec1 hi (sel_and3 hd ha rfl) rfl, fun hd => run_vec1 hi (sel_and3 hd ha rfl) rfl,
      fun hd => run_vec1 hi (sel_and3 hd ha rfl) rfl, fun hd => run_vec1 hi (sel_and3 hd ha rfl) rfl,
      fun hd => run_vec1 hi (sel_and3 hd ha rfl) rfl⟩

end Sys2Proof

/-! SUPPORT. Packed elements (R193). -/

namespace Sys2Proof

namespace Machine

/-- A bit of packed elements at or above the first element's. -/
theorem getLsbD_packLane_add (w e : Nat) (t : List Nat) (j : Nat) (h : w + j < 32) :
    (packLane w (e :: t)).getLsbD (w + j) = (packLane w t).getLsbD j := by
  have hlow : (e % 2 ^ w).testBit (w + j) = false := by
    rw [Nat.testBit_mod_two_pow, decide_eq_false (Nat.not_lt.2 (Nat.le_add_right w j)), Bool.false_and]
  simp only [packLane, BitVec.getLsbD_or, BitVec.getLsbD_ofNat, BitVec.getLsbD_shiftLeft, hlow, h, Bool.and_false, Bool.false_or,
    decide_true, Bool.true_and, Nat.not_lt.2 (Nat.le_add_right w j), decide_false, Bool.not_false, Nat.add_sub_cancel_left]

/-- A bit of the first of packed elements. -/
theorem getLsbD_packLane_lt (w e : Nat) (t : List Nat) (j : Nat) (hj : j < w) (h : j < 32) :
    (packLane w (e :: t)).getLsbD j = e.testBit j := by
  simp only [packLane, BitVec.getLsbD_or, BitVec.getLsbD_ofNat, BitVec.getLsbD_shiftLeft, Nat.testBit_mod_two_pow, hj, h, decide_true,
    Bool.true_and, Bool.not_true, Bool.and_false, Bool.false_and, Bool.or_false]

/-- Element `i` of packed elements is at place `i` (R193). -/
theorem extractLsb'_packLane (w : Nat) (es : List Nat) (i : Nat) (hi : i < es.length) (h : (i + 1) * w ≤ 32) :
    (packLane w es).extractLsb' (i * w) w = BitVec.ofNat w es[i] := by
  refine BitVec.eq_of_getLsbD_eq fun j hj => ?_
  rw [BitVec.getLsbD_extractLsb', BitVec.getLsbD_ofNat]
  simp only [hj, decide_true, Bool.true_and]
  have hsum : i * w + j < 32 := by
    rw [Nat.add_mul] at h
    omega
  clear h
  induction es generalizing i with
  | nil => exact absurd hi (Nat.not_lt_zero i)
  | cons e t ih =>
    cases i with
    | zero =>
      rw [Nat.zero_mul, Nat.zero_add] at *
      exact getLsbD_packLane_lt w e t j hj hsum
    | succ i =>
      have hplace : (i + 1) * w + j = w + (i * w + j) := by rw [Nat.add_mul]; omega
      rw [hplace] at hsum ⊢
      rw [getLsbD_packLane_add w e t _ hsum]
      exact ih i (Nat.lt_of_succ_lt_succ hi) (by omega)

/-- Element `i` of a lane, as its bits. -/
theorem getElem_laneElems (w : Nat) (v : W32) (i : Nat) (h : i < (laneElems w v).length) :
    (laneElems w v)[i] = (v.extractLsb' (i * w) w).toNat := by
  simp [laneElems, Nat.shiftRight_eq_div_pow]

@[simp] theorem length_laneElems (w : Nat) (v : W32) : (laneElems w v).length = 32 / w := by simp [laneElems]

end Machine

open Sys2Proof.Machine

/-- Settles O37: each word has the shape of its operands, and an element of a packed lane stands at its place. -/
theorem vectorIntegerWordsGiveTheirResults : Obligations.VectorIntegerWordsGiveTheirResults := by
  refine ⟨fun s d r a b k hx => ⟨?_, fun h => run_vecIllegal hx h⟩, ?_, fun w i f x y hw hi => ?_⟩
  · simp only [List.forall_mem_cons, List.not_mem_nil, false_implies, implies_true, and_true]
    exact ⟨fun h => run_vecIllegal hx h, fun h => run_vecIllegal hx h, fun h => run_vecIllegal hx h, fun h => run_vecIllegal hx h,
      fun h => run_vecIllegal hx h, fun h => run_vecIllegal hx h, fun h => run_vecIllegal hx h, fun h => run_vecIllegal hx h,
      fun h => run_vecIllegal hx h⟩
  · intro s u d r a b k x y f w int hi ha
    have hint : elemInt f = int := by
      funext c
      simp only [elemInt, int, beq_iff_eq, w]
    let word (op : (Nat → Int) → Nat → Nat → Nat) (g : Nat → Int) : Iss Done :=
      s.vec2 d r a b (fmtFits f elInt) fun x y => List.zipWith (lane2 w (op g)) x y
    refine ⟨?_, ?_, ?_⟩
    · simp only [List.forall_mem_cons, List.not_mem_nil, false_implies, implies_true, and_true]
      exact ⟨fun hd hb => run_vec2 hi (sel_and3 hd ha hb) (congrArg (word fun g p q => putInt f (g p + g q)) hint),
        fun hd hb => run_vec2 hi (sel_and3 hd ha hb) (congrArg (word fun g p q => putInt f (g p - g q)) hint),
        fun hd hb => run_vec2 hi (sel_and3 hd ha hb) (congrArg (word fun g p q => putInt f (g p * g q)) hint),
        fun hd hb => run_vec2 hi (sel_and3 hd ha hb) rfl, fun hd hb => run_vec2 hi (sel_and3 hd ha hb) rfl,
        fun hd hb => run_vec2 hi (sel_and3 hd ha hb) rfl⟩
    · simp only [List.forall_mem_cons, List.not_mem_nil, false_implies, implies_true, and_true]
      exact ⟨fun hd hb => (run_vec2 (fok := true) hi (sel_and3 hd ha hb) rfl).1 rfl,
        fun hd hb => (run_vec2 (fok := true) hi (sel_and3 hd ha hb) rfl).1 rfl,
        fun hd hb => (run_vec2 (fok := true) hi (sel_and3 hd ha hb) rfl).1 rfl⟩
    · simp only [List.forall_mem_cons, List.not_mem_nil, false_implies, implies_true, and_true]
      exact ⟨fun hr => run_vec1 hi (sel_and3 hr ha rfl) rfl, fun hr => run_vec1 hi (sel_and3 hr ha rfl) rfl,
        fun hr => run_vec1 hi (sel_and3 hr ha rfl) rfl, fun hr => run_vec1 hi (sel_and3 hr ha rfl) rfl⟩
  · have hroom : (i + 1) * w ≤ 32 := Nat.le_trans (Nat.mul_le_mul_right w hi) (Nat.div_mul_le_self 32 w)
    rw [lane2, extractLsb'_packLane w _ i (by simpa using hi) hroom, List.getElem_zipWith, getElem_laneElems, getElem_laneElems]

end Sys2Proof

namespace Sys2Proof

namespace Machine

variable {s : State} {e : Instr} {d l : Bool} {r a b : BitVec 6} {fok : State → Bool}

/-! The shapes once more, the function read off the word first. -/

theorem exec_vec1 (u : State) (x : List W32) {f : State → List W32 → List W32} (hi : s.Issues .X false)
    (he : exec e s = s.run (headX l) fun s => s.vec1 d r a (fok s) (f s)) (hl : l = true) :
    (fok s = true → s.Lanes1 a x u → s.room d r = .ok () → exec e s = .next ((u.vput d r (f s x)).past .X)) ∧
    (fok s = false → exec e s = .next (s.faulted .FMT 0 0)) := by
  rw [he]
  exact run_vec1 hi hl rfl

theorem exec_vec2 (u : State) (x y : List W32) {f : State → List W32 → List W32 → List W32} (hi : s.Issues .X false)
    (he : exec e s = s.run (headX l) fun s => s.vec2 d r a b (fok s) (f s)) (hl : l = true) :
    (fok s = true → s.Lanes2 a b x y u → s.room d r = .ok () → exec e s = .next ((u.vput d r (f s x y)).past .X)) ∧
    (fok s = false → exec e s = .next (s.faulted .FMT 0 0)) := by
  rw [he]
  exact run_vec2 hi hl rfl

theorem exec_vec3 (u : State) (x y : List W32) {f : State → List W32 → List W32 → List W32 → List W32} (hi : s.Issues .X false)
    (he : exec e s = s.run (headX l) fun s => s.vec3 d r a b (fok s) (f s)) (hl : l = true) :
    (fok s = true → s.Lanes2 a b x y u → exec e s = .next ((u.vput d r (f s (s.vreg r.toNat) x y)).past .X)) ∧
    (fok s = false → exec e s = .next (s.faulted .FMT 0 0)) := by
  rw [he]
  exact run_vec3 hi hl rfl

end Machine

open Sys2Proof.Machine

/-- Settles O38: each word has one of the three shapes, with the function that the statement names. -/
theorem vectorConversionWordsGiveTheirResults : Obligations.VectorConversionWordsGiveTheirResults := by
  refine ⟨fun s d r a b k hx => ⟨?_, fun h => run_vecIllegal hx h, ?_, ?_⟩, ?_⟩
  · simp only [List.forall_mem_cons, List.not_mem_nil, false_implies, implies_true, and_true]
    exact ⟨fun h => run_vecIllegal hx h, fun h => run_vecIllegal hx h, fun h => run_vecIllegal hx h, fun h => run_vecIllegal hx h,
      fun h => run_vecIllegal hx h⟩
  · simp only [List.forall_mem_cons, List.not_mem_nil, false_implies, implies_true, and_true]
    exact ⟨fun h => run_vecIllegal hx h, fun h => run_vecIllegal hx h⟩
  · have h1 (h : (s.destOk r && s.srcOk a) = false) : (s.destOk r && s.srcOk a && true) = false := by rw [h]; rfl
    simp only [List.forall_mem_cons, List.not_mem_nil, false_implies, implies_true, and_true]
    exact ⟨fun h => run_vecIllegal hx (h1 h), fun h => run_vecIllegal hx (h1 h), fun h => run_vecIllegal hx (h1 h)⟩
  intro s u d r a b k x y f w n dots hi ha
  refine ⟨?_, ?_, ?_⟩
  · simp only [List.forall_mem_cons, List.not_mem_nil, false_implies, implies_true, and_true]
    refine ⟨?_, ?_, ?_, ?_, ?_⟩
    · exact fun hd hb => (exec_vec2 (e := .vdot d r a b k) u x y hi rfl (sel_and3 hd ha hb) :)
    · exact fun hd hb => (exec_vec2 (e := .vscl2 d r a b k) u x y hi rfl (sel_and3 hd ha hb) :)
    · exact fun hd hb => (exec_vec2 (e := .vqnt d r a b k) u x y hi rfl (sel_and3 hd ha hb) :)
    · exact fun hd hb => (exec_vec2 (e := .vdqnt d r a b k) u x y hi rfl (sel_and3 hd ha hb) :)
    · exact fun hd hb => (exec_vec2 (e := .vpack d r a b k) u x y hi rfl (sel_and3 hd ha hb) :)
  · exact fun hd hb => (exec_vec3 (e := .vdota d r a b k) u x y hi rfl (sel_and3 hd ha hb) :)
  · simp only [List.forall_mem_cons, List.not_mem_nil, false_implies, implies_true, and_true]
    refine ⟨?_, ?_, ?_, ?_, ?_⟩
    · exact fun hd hb => (exec_vec1 (e := .vcvt d r a b k) u x hi rfl (sel_and3 hd ha hb) :)
    · exact fun hd hb => (exec_vec1 (e := .vunpk d r a b k) u x hi rfl (sel_and3 hd ha hb) :)
    · exact fun hd _ => (exec_vec1 (e := .vrsum d r a k) u x hi rfl (sel_and3 hd ha rfl) :)
    · exact fun hd _ => (exec_vec1 (e := .vrmax d r a k) u x hi rfl (sel_and3 hd ha rfl) :)
    · exact fun hd _ => (exec_vec1 (e := .vscan d r a k) u x hi rfl (sel_and3 hd ha rfl) :)

end Sys2Proof

/-! SUPPORT. The words that set masks (R200, R211, R213). -/

namespace Sys2Proof

namespace Machine

variable {s u : State} {d l fok : Bool} {a b : BitVec 6} {m f : BitVec 3} {x y : List W32} {body : State → Iss Done}

theorem run_vecMask {g : W32 → W32 → Bool} (hi : s.Issues .X false) (hl : l = true) (h : s.Lanes2 a b x y u) (hf : fok = true)
    (hb : body s = s.vecMask d m a b fok g) :
    s.run (headX l) body = .next ((u.putMask d m (List.zipWith g x y)).past .X) := by
  subst hf
  exact run_headOf hi hl (hb.trans (vecMask_ok h))

/-- The head of `VCMP` and `VICMP` refuses mask 7 and a selector that may not stand in its field. -/
theorem maskHead_eq_false (h : m = 7 ∨ s.srcOk a = false ∨ s.srcOk b = false) : (m != 7 && s.srcOk a && s.srcOk b) = false := by
  obtain rfl | h | h := h
  · rfl
  · rw [h, Bool.and_false, Bool.false_and]
  · rw [h, Bool.and_false]

theorem maskHead_eq_true (hm : m ≠ 7) (ha : s.srcOk a = true) (hb : s.srcOk b = true) : (m != 7 && s.srcOk a && s.srcOk b) = true := by
  rw [bne_iff_ne.2 hm, ha, hb]
  rfl

/-- The head of a two-source word refuses a selector that may not stand in its field. -/
theorem headV2_eq_false {r : BitVec 6} (h : s.destOk r = false ∨ s.srcOk a = false ∨ s.srcOk b = false) :
    (s.destOk r && s.srcOk a && s.srcOk b) = false := by
  obtain h | h | h := h
  · rw [h, Bool.false_and, Bool.false_and]
  · rw [h, Bool.and_false, Bool.false_and]
  · rw [h, Bool.and_false]

theorem not_lt_eight (h : 8 ≤ a.toNat) : decide (a < 8) = false := decide_eq_false (Nat.not_lt.2 h)

theorem and_head_false {x : Bool} (h : x = false) (y z : Bool) : (y && (x && z)) = false := by rw [h, Bool.false_and, Bool.and_false]

theorem and_last_false {x : Bool} (h : x = false) (y z : Bool) : (y && (z && x)) = false := by rw [h, Bool.and_false, Bool.and_false]

theorem eq_of_three_bits : ∀ f : BitVec 3, f = 0 ∨ f = 1 ∨ f = 2 ∨ f = 3 ∨ f = 4 ∨ f = 5 ∨ f = 6 ∨ f = 7 := by
  decide

/-- The fields that `VMLOG` refuses (R213). -/
theorem vmlogOk_eq_false (h : m = 7 ∨ f = 7 ∨ (f = 6 ∧ s.srcOk a = false) ∨ (f ≠ 6 ∧ 8 ≤ a.toNat) ∨ ((f = 5 ∨ f = 6) ∧ b ≠ 0) ∨
    (f < 5 ∧ 8 ≤ b.toNat)) : s.vmlogOk m a b f = false := by
  have hf := eq_of_three_bits f
  obtain rfl | rfl | ⟨rfl, ha⟩ | ⟨hf6, ha⟩ | ⟨hf5, hb⟩ | ⟨hf5, hb⟩ := h
  · rfl
  · exact Bool.and_false _
  · simp [State.vmlogOk, ha]
  · have ha := not_lt_eight ha
    obtain rfl | rfl | rfl | rfl | rfl | rfl | rfl | rfl := hf
    · exact and_head_false ha _ _
    · exact and_head_false ha _ _
    · exact and_head_false ha _ _
    · exact and_head_false ha _ _
    · exact and_head_false ha _ _
    · exact and_head_false ha _ _
    · exact absurd rfl hf6
    · exact Bool.and_false _
  · have hb : (b == 0) = false := beq_eq_false_iff_ne.2 hb
    obtain rfl | rfl := hf5
    · show (m != 7 && (decide (a < 8) && b == 0)) = false
      rw [hb, Bool.and_false, Bool.and_false]
    · show (m != 7 && (s.srcOk a && b == 0)) = false
      rw [hb, Bool.and_false, Bool.and_false]
  · have hb := not_lt_eight hb
    obtain rfl | rfl | rfl | rfl | rfl | rfl | rfl | rfl := hf
    · exact and_last_false hb _ _
    · exact and_last_false hb _ _
    · exact and_last_false hb _ _
    · exact and_last_false hb _ _
    · exact and_last_false hb _ _
    · exact absurd hf5 (by decide)
    · exact absurd hf5 (by decide)
    · exact Bool.and_false _

theorem vmlogOk_six (hm : m ≠ 7) (ha : s.srcOk a = true) : s.vmlogOk m a 0 6 = true := by
  show (m != 7 && (s.srcOk a && true)) = true
  rw [bne_iff_ne.2 hm, ha]
  rfl

theorem vmlogOk_five (hm : m ≠ 7) (ha : a.toNat < 8) : s.vmlogOk m a 0 5 = true := by
  show (m != 7 && (decide (a.toNat < 8) && true)) = true
  rw [bne_iff_ne.2 hm, decide_eq_true ha]
  rfl

theorem vmlogOk_two (hf : f < 5) (hm : m ≠ 7) (ha : a.toNat < 8) (hb : b.toNat < 8) : s.vmlogOk m a b f = true := by
  have hmasks : s.vmlogOk m a b f = (m != 7 && (decide (a.toNat < 8) && decide (b.toNat < 8))) := by
    obtain rfl | rfl | rfl | rfl | rfl | rfl | rfl | rfl := eq_of_three_bits f
    · rfl
    · rfl
    · rfl
    · rfl
    · rfl
    all_goals exact absurd hf (by decide)
  rw [hmasks, bne_iff_ne.2 hm, decide_eq_true ha, decide_eq_true hb]
  rfl

/-- An operation on the mask bits of the lanes. -/
theorem zipWith_maskBits (g : Bool → Bool → Bool) : List.zipWith g (s.maskBits a) (s.maskBits b) =
    (List.range s.lanes).map fun i => g ((s.mask (a.setWidth 3)).getLsbD i) ((s.mask (b.setWidth 3)).getLsbD i) := by
  simp [State.maskBits, List.zipWith_map_left, List.zipWith_map_right]

/-- `VMLOG` on two masks (R213). -/
theorem exec_vmlog (hi : s.Issues .X false) (hok : s.vmlogOk m a b f = true) (hf : f ≠ 6) : exec (.vmlog d m a b f) s =
    .next ((s.putMask d m ((List.range s.lanes).map fun i =>
      vmlogOp f ((s.mask (a.setWidth 3)).getLsbD i) ((s.mask (b.setWidth 3)).getLsbD i))).past .X) := by
  refine run_headOf hi hok ?_
  simp only [beq_eq_false_iff_ne.2 hf, Bool.false_eq_true, if_false, zipWith_maskBits]

end Machine

open Sys2Proof.Machine

/-- Settles O39: each word has the shape of its operands; `VEXT`, `VINS` and `VMLOG` by their bodies. -/
theorem vectorMovesAndMasksComplete : Obligations.VectorMovesAndMasksComplete := by
  refine ⟨fun s d r a b c m k hx => ⟨fun h => ⟨run_vecIllegal hx (maskHead_eq_false h), run_vecIllegal hx (maskHead_eq_false h)⟩,
    fun h => run_vecIllegal hx (vmlogOk_eq_false ?_), ?_, fun h => run_vecIllegal hx (by rw [h]; rfl)⟩, ?_⟩
  · simpa [BitVec.lt_def] using h
  · have hv2 (h : (true = true ∧ s.destOk r = false) ∨ s.srcOk a = false ∨ s.srcOk b = false) :=
      headV2_eq_false (h.imp_left And.right)
    refine List.forall_mem_cons.2 ⟨fun h => run_vecIllegal hx (hv2 h), List.forall_mem_cons.2 ⟨fun h => run_vecIllegal hx (hv2 h),
      List.forall_mem_cons.2 ⟨fun h => run_vecIllegal hx (hv2 h), List.forall_mem_cons.2 ⟨fun h => run_vecIllegal hx (hv2 h),
      List.forall_mem_cons.2 ⟨fun h => run_vecIllegal hx (hv2 h), List.forall_mem_cons.2 ⟨fun h => run_vecIllegal hx (hv2 h),
      List.forall_mem_cons.2 ⟨fun h => run_vecIllegal hx ?_, nofun⟩⟩⟩⟩⟩⟩⟩
    obtain ⟨h, _⟩ | h | h := h
    · exact absurd h Bool.false_ne_true
    · rw [h, Bool.false_and]
    · rw [h, Bool.and_false]
  · intro s u v d r a b c m k x y z n hi
    refine ⟨fun ha hb h => ⟨?_, fun hpush => ?_, fun hd hroom hpop hz => ?_, fun hm => ⟨fun hf => ?_, fun hf => ?_⟩⟩,
      fun ha h => ⟨fun hd hroom => ?_, fun hm => ?_⟩, ?_, run_headOf hi rfl rfl⟩
    · simp only [List.forall_mem_cons, List.not_mem_nil, false_implies, implies_true, and_true]
      exact ⟨fun hd hroom => (exec_vec2 (e := .vsel d r a b) (fok := fun _ => true) u x y hi rfl (sel_and3 hd ha hb)).1 rfl h hroom,
        fun hd hroom => (exec_vec2 (e := .vperm d r a b) (fok := fun _ => true) u x y hi rfl (sel_and3 hd ha hb)).1 rfl h hroom,
        fun hd hroom => (exec_vec2 (e := .vrot d r a b) (fok := fun _ => true) u x y hi rfl (sel_and3 hd ha hb)).1 rfl h hroom,
        fun hd hroom => (exec_vec2 (e := .vbcast d r a b) (fok := fun _ => true) u x y hi rfl (sel_and3 hd ha hb)).1 rfl h hroom,
        fun hd hroom => (exec_vec2 (e := .viota d r a b) (fok := fun _ => true) u x y hi rfl (sel_and3 hd ha hb)).1 rfl h hroom⟩
    · obtain ⟨hpops, w, hx, hy⟩ := h
      refine run_headOf hi (by rw [ha, hb]; rfl) ?_
      simp only [hpops, hpush, hx, hy, ok_bind]
      rfl
    · obtain ⟨hpops, w, hx, hy⟩ := h
      refine run_headOf hi (sel_and3 hd ha hb) ?_
      simp only [hpops, hpop, hroom, hx, hy, hz, ok_bind]
      rfl
    · exact run_vecMask hi (maskHead_eq_true hm ha hb) h hf rfl
    · exact run_vecMask hi (maskHead_eq_true hm ha hb) h hf rfl
    · exact (exec_vec1 (e := .vmov d r a) (fok := fun _ => true) u x hi rfl (sel_and3 hd ha rfl)).1 rfl h hroom
    · obtain ⟨hpops, hx⟩ := h
      refine run_headOf hi (vmlogOk_six hm ha) ?_
      simp only [beq_self_eq_true, if_true, hpops, hx, ok_bind]
    intro hm ha bit
    refine ⟨?_, exec_vmlog hi (vmlogOk_five hm ha) (by decide)⟩
    · simp only [List.forall_mem_cons, List.not_mem_nil, false_implies, implies_true, and_true]
      exact ⟨fun hb => exec_vmlog hi (vmlogOk_two (f := 0) (by decide) hm ha hb) (by decide), fun hb => exec_vmlog hi (vmlogOk_two (f := 1) (by decide) hm ha hb) (by decide),
        fun hb => exec_vmlog hi (vmlogOk_two (f := 2) (by decide) hm ha hb) (by decide), fun hb => exec_vmlog hi (vmlogOk_two (f := 3) (by decide) hm ha hb) (by decide),
        fun hb => exec_vmlog hi (vmlogOk_two (f := 4) (by decide) hm ha hb) (by decide)⟩

end Sys2Proof

namespace Sys2Proof

open Sys2Proof.Machine

/-- Settles O40: each word by its body, with its operands and its access as given. -/
theorem vectorMemoryWordsComplete : Obligations.VectorMemoryWordsComplete := by
  intro s u q v d r a b p o g pl bs x y l es n ea ha
  have hn : s.vecSize s.cur = n := rfl
  have hea : memEa g o n = ea := rfl
  refine ⟨fun hi ⟨hpops, hsrc⟩ hsp => ⟨fun hacc hord => ⟨fun hfree hload => ?_, fun hdq henq => ?_⟩, fun hacc hord => ?_⟩,
    fun hi hb ⟨hpops, w, hx, hy⟩ => ⟨fun hd hroom => ⟨fun hg => ?_, fun hg => ?_⟩, fun hr hsc => ?_⟩⟩
  · refine run_headOf hi ha ?_
    simp only [hn, hpops, hsrc, hea, hsp, need, hacc, hord, hfree, hload, ok_bind, if_true]
  · refine run_headOf hi ha ?_
    simp only [hn, hpops, hsrc, hea, hsp, need, hacc, hord, hdq, henq, ok_bind, if_true, Bool.false_eq_true, if_false]
  · refine run_headOf hi ha ?_
    simp only [hn, hpops, hsrc, hea, hsp, need, hacc, hord, ok_bind, if_true]
  · refine run_headOf hi (sel_and3 hd ha hb) ?_
    simp only [State.gatherBody, hpops, hroom, hx, hy, hg, ok_bind]
  · refine run_headOf hi (sel_and3 hd ha hb) ?_
    simp only [State.gatherBody, hpops, hroom, hx, hy, hg, ok_bind]
  · refine run_headOf hi (sel_and3 hr ha hb) ?_
    simp only [hpops, hx, hy, hsc, ok_bind]

end Sys2Proof

/-! SUPPORT. The stream ports (R218 to R223). -/

namespace Sys2Proof

namespace Machine

variable {s u : State} {t : TeamSt} {q : Port} {k : Nat}

/-- Feeding the claims changes no port (R221). -/
theorem feedClaims_ports (n : Nat) (t : TeamSt) : (feedClaims n t).ports = t.ports := by
  induction n generalizing t with
  | zero => rfl
  | succ n ih =>
    unfold feedClaims
    split
    · rfl
    · split
      · exact ih _
      · rfl
    · split
      · rfl
      · exact ih _

theorem port_feed (t : TeamSt) (k : Nat) : t.feed.port k = t.port k := congrArg (tget portReset · k) (feedClaims_ports _ t)

theorem port_setPort (t : TeamSt) (k : Nat) (q : Port) : (t.setPort k q).port k = q := tget_tset_self _ _ _ _

theorem port_setPort_ne (t : TeamSt) (q : Port) {j : Nat} (h : j ≠ k) : (t.setPort k q).port j = t.port j := tget_tset_ne _ _ _ h

theorem portHeld_of_running (h : q.st = .run ∨ q.st = .fault) : portHeld q = true := by
  obtain h | h := h
  · simp [portHeld, h]
  · simp [portHeld, h]

theorem portHeld_of_stopped (hr : q.st ≠ .run) (hf : q.st ≠ .fault) (hw : q.wait = false) : portHeld q = false := by
  simp [portHeld, hr, hf, hw]

/-- A port that runs, as `PHALT` asks. -/
theorem running_eq_true (h : q.st = .run ∨ q.st = .fault) : (q.st == .run || q.st == .fault) = true := by
  obtain h | h := h
  · simp [h]
  · simp [h]

theorem running_eq_false (hr : q.st ≠ .run) (hf : q.st ≠ .fault) : (q.st == .run || q.st == .fault) = false := by
  simp [hr, hf]

/-- The port that makes A stall is marked so (R219). -/
theorem markWait_one (h : portHeld (t.port k) = true) : t.markWait [k] = t.setPort k { t.port k with wait := true } := by
  simp only [TeamSt.markWait, List.foldl_cons, List.foldl_nil, h, if_true]

section

variable {c : CoreId} {h : Port} (hc : s.ev.core = c) (hk : s.ev.n = k) (hh : (s.team c).port k = h)
  (hgo : (decide (k < 4) && h.st == .run && decide (h.buf.length < 8) && decide (h.pos < portTotal h) && (s.core c).run) = true)

include hc hk hh hgo

/-- A read port that fetches (R220). -/
theorem exec_portOperandFetch_ok {l : List W32} {row : Nat} (hf : s.portFetch c h = .ok (l, row, u)) : exec .portOperandFetch s =
    .next (u.setTeam c ((u.team c).setPort k { portNext h with buf := h.buf ++ [{ lanes := l, poison := none }], row := row })) := by
  subst hc hk hh
  show execPortOperandFetch s = _
  simp only [execPortOperandFetch, hgo, hf, Bool.not_true, Bool.false_eq_true, if_false]

/-- A read port whose operand faults (R220). -/
theorem exec_portOperandFetch_fault {f : Flt} (hf : s.portFetch c h = .error (.fault f)) : exec .portOperandFetch s =
    .next ((s.markBad f.bad).setTeam c (((s.markBad f.bad).team c).setPort k
      { h with st := .fault, buf := h.buf ++ [{ lanes := [], poison := some ⟨f.code, f.addr, f.aux⟩ }], code := some f.code })) := by
  subst hc hk hh
  show execPortOperandFetch s = _
  simp only [execPortOperandFetch, hgo, hf, Bool.not_true, Bool.false_eq_true, if_false]

end

end Machine

open Sys2Proof.Machine

/-- Settles O41: each word and each step by its body, for the state of the port that the case names. -/
theorem streamPortsComplete : Obligations.StreamPortsComplete := by
  intro s u p a g r m b l row left f rest e es q
  refine ⟨fun hi hp => ⟨fun ha ⟨hpops, hsrc⟩ hg hg4 hm hpol h1 h3 => ?_, fun hq => ?_, fun hq => ?_, fun hq => ?_, fun hr hf => ?_,
    fun hq hfill => ?_, fun hd hroom => ?_⟩, ?_, ?_⟩
  · have hpolicy : (!(m.getLsbD 2 && decide (4 ≤ p.toNat))) = true := by
      cases h2 : m.getLsbD 2
      · rfl
      · simp [hpol h2]
    have hl : (p < 6 && s.srcOk a && decide (g.toNat ≤ 44) && decide (g.toNat % 4 = 0) && m < 8 &&
        !(m.getLsbD 2 && decide (4 ≤ p.toNat)) && hi32 (s.descr g 1) == 0 && hi32 (s.descr g 3) == 0) = true := by
      rw [hpolicy, h1, h3, ha, decide_eq_true hg, decide_eq_true hg4, decide_eq_true (show p < 6 from hp),
        decide_eq_true (show m < 8 from hm)]
      rfl
    refine ⟨fun hr hf hw => ?_, fun hq => ?_⟩
    · have hheld : portHeld (s.tm.port p.toNat) = false := portHeld_of_stopped hr hf hw
      refine run_headOf hi hl ?_
      simp only [hpops, hsrc, ok_bind, hheld, Bool.false_eq_true, if_false]
      rfl
    · have hheld : portHeld (s.tm.port p.toNat) = true := portHeld_of_running hq
      refine (run_held (h := headOf .A _) (d := { (s.setTm (s.tm.markWait [p.toNat])).goOn with held := some .stall }) (k := .stall) hi hl nofun ?_
        rfl).trans ?_
      · simp only [hpops, hsrc, ok_bind, hheld, if_true]
      · rw [markWait_one hheld]
        rfl
  · have hbody : (s.tm.port p.toNat).st = .idle := hq
    refine run_headOf_fault hi (decide_eq_true hp) ?_
    simp only [hbody, flt]
  · intro row st claims t
    have hq : (s.tm.port p.toNat).st = .set ∨ (s.tm.port p.toNat).st = .done ∨ (s.tm.port p.toNat).st = .halted := hq
    refine run_headOf hi (decide_eq_true hp) ?_
    obtain hq | hq | hq := hq
    all_goals
      simp only [hq, beq_iff_eq, Bool.and_eq_true, decide_eq_true_eq, bne_iff_ne, t, claims, st, row, q]
      split <;> rfl
  · refine run_headOf hi (decide_eq_true hp) ?_
    obtain hq | hq := hq
    · have hq : (s.tm.port p.toNat).st = .run := hq
      simp only [hq]
    · have hq : (s.tm.port p.toNat).st = .fault := hq
      simp only [hq]
  · refine run_headOf hi (decide_eq_true hp) ?_
    have hrun : ((s.tm.port p.toNat).st == .run || (s.tm.port p.toNat).st == .fault) = false := running_eq_false hr hf
    simp only [hrun, Bool.false_eq_true, if_false]
  · have hrun : ((s.tm.port p.toNat).st == .run || (s.tm.port p.toNat).st == .fault) = true := running_eq_true hq
    let t1 := s.tm.setPort p.toNat { q with st := .halted, buf := [], code := none }
    let t2 : TeamSt := { t1 with claims := t1.claims.filter fun c => match c with | .port k _ => k != p.toNat | .store _ => true }
    refine ⟨t2.feed, run_headOf hi (decide_eq_true hp) ?_, ?_, ?_, fun k hk => ?_⟩
    · simp only [hrun, if_true, hfill, needWait, Bool.not_false, ok_bind]
      rfl
    · rw [port_feed]
      exact congrArg Port.st (port_setPort s.tm _ _)
    · rw [port_feed]
      exact congrArg Port.buf (port_setPort s.tm _ _)
    · rw [port_feed]
      exact port_setPort_ne s.tm _ hk
  · exact run_headOf hi (by rw [decide_eq_true (show p < 6 from hp), hd]; rfl) (frameV_ok hroom)
  · intro c k h good bad v hk hst hbuf hpos hrun
    have hgo : (decide (k < 4) && h.st == .run && decide (h.buf.length < 8) && decide (h.pos < portTotal h) && (s.core c).run) = true := by
      rw [hst, hrun, decide_eq_true hk, decide_eq_true hbuf, decide_eq_true hpos]
      rfl
    refine ⟨fun hfetch => exec_portOperandFetch_ok rfl rfl rfl hgo hfetch, fun hfetch => exec_portOperandFetch_fault rfl rfl rfl hgo hfetch⟩
  · intro c k h more hcl hleft hsdq hw h' t
    have hw : s.portWrite s.ev.core ((s.team s.ev.core).port s.ev.n) e = .ok u := hw
    have hcl : (s.team s.ev.core).claims = .port s.ev.n left :: rest := hcl
    have hsdq : (s.team s.ev.core).sdq = e :: es := hsdq
    show execWritePortWrite s = _
    simp only [execWritePortWrite, hcl, hsdq, bne_self_eq_false, beq_eq_false_iff_ne.2 hleft, Bool.or_self, Bool.false_eq_true, if_false, hw,
      beq_iff_eq]
    rfl

end Sys2Proof

/-! SUPPORT. The sort of R267 and the ports of a CSR walk (R260). -/

namespace Sys2Proof

namespace Machine

variable {s u : State} {desc : Bool}

/-- Whether a key comes before another in the order of a sort (R267). -/
def keyBefore (desc : Bool) (x y : W32) : Prop := if desc = true then y.toNat < x.toNat else x.toNat < y.toNat

/-- The order of keys with their sources: equal keys stand in the order of their sources (R267). -/
def sortedBefore (desc : Bool) (p q : W32 × Nat) : Prop := keyBefore desc p.1 q.1 ∨ (p.1 = q.1 ∧ p.2 < q.2)

theorem keyBefore_trans {x y z : W32} (h1 : keyBefore desc x y) (h2 : keyBefore desc y z) : keyBefore desc x z := by
  cases desc
  · exact Nat.lt_trans h1 h2
  · exact Nat.lt_trans h2 h1

/-- Keys of which neither comes before the other are equal. -/
theorem eq_or_keyBefore {x y : W32} (h : ¬ keyBefore desc y x) : keyBefore desc x y ∨ x = y := by
  rw [← BitVec.toNat_inj]
  cases desc
  · exact Nat.lt_or_eq_of_le (Nat.not_lt.1 h)
  · exact (Nat.lt_or_eq_of_le (Nat.not_lt.1 h)).imp id Eq.symm

/-- The test by which `insertKey` stops. -/
theorem insertKey_test (x y : W32) : (if desc = true then x.ult y else y.ult x) = true ↔ keyBefore desc y x := by
  cases desc
  · exact decide_eq_true_iff
  · exact decide_eq_true_iff

theorem insertKey_of_before {e x : W32 × Nat} {t : List (W32 × Nat)} (h : keyBefore desc e.1 x.1) :
    insertKey desc e (x :: t) = e :: x :: t := if_pos ((insertKey_test x.1 e.1).2 h)

theorem insertKey_of_not_before {e x : W32 × Nat} {t : List (W32 × Nat)} (h : ¬ keyBefore desc e.1 x.1) :
    insertKey desc e (x :: t) = x :: insertKey desc e t := if_neg fun hb => h ((insertKey_test x.1 e.1).1 hb)

theorem insertKey_perm (e : W32 × Nat) (l : List (W32 × Nat)) : (insertKey desc e l).Perm (e :: l) := by
  induction l with
  | nil => exact .refl _
  | cons x t ih =>
    by_cases h : keyBefore desc e.1 x.1
    · rw [insertKey_of_before h]
    · rw [insertKey_of_not_before h]
      exact (ih.cons x).trans (.swap e x t)

/-- A key whose source is the greatest, put into a sorted list. -/
theorem insertKey_sorted {e : W32 × Nat} {l : List (W32 × Nat)} (hl : l.Pairwise (sortedBefore desc)) (he : ∀ p ∈ l, p.2 < e.2) :
    (insertKey desc e l).Pairwise (sortedBefore desc) := by
  induction l with
  | nil => exact List.pairwise_singleton _ _
  | cons x t ih =>
    obtain ⟨hx, ht⟩ := List.pairwise_cons.1 hl
    by_cases h : keyBefore desc e.1 x.1
    · rw [insertKey_of_before h]
      refine List.pairwise_cons.2 ⟨fun y hy => ?_, hl⟩
      obtain rfl | hy := List.mem_cons.1 hy
      · exact .inl h
      · obtain hxy | ⟨hxy, _⟩ := hx y hy
        · exact .inl (keyBefore_trans h hxy)
        · exact .inl (hxy ▸ h)
    · rw [insertKey_of_not_before h]
      have h : keyBefore desc x.1 e.1 ∨ x.1 = e.1 := eq_or_keyBefore h
      refine List.pairwise_cons.2 ⟨fun y hy => ?_, ih ht fun p hp => he p (List.mem_cons_of_mem x hp)⟩
      obtain rfl | hy := List.mem_cons.1 ((insertKey_perm e t).mem_iff.1 hy)
      · exact h.imp id fun h => ⟨h, he x List.mem_cons_self⟩
      · exact hx y hy

theorem foldl_insertKey_perm (l acc : List (W32 × Nat)) : (l.foldl (fun acc e => insertKey desc e acc) acc).Perm (acc ++ l) := by
  induction l generalizing acc with
  | nil => simp
  | cons e t ih => exact (ih _).trans (((insertKey_perm e acc).append_right t).trans List.perm_middle.symm)

theorem foldl_insertKey_sorted {l acc : List (W32 × Nat)} (hacc : acc.Pairwise (sortedBefore desc)) (hl : l.Pairwise fun p q => p.2 < q.2)
    (hle : ∀ p ∈ acc, ∀ q ∈ l, p.2 < q.2) : (l.foldl (fun acc e => insertKey desc e acc) acc).Pairwise (sortedBefore desc) := by
  induction l generalizing acc with
  | nil => exact hacc
  | cons e t ih =>
    obtain ⟨he, ht⟩ := List.pairwise_cons.1 hl
    refine ih (insertKey_sorted hacc fun p hp => hle p hp e List.mem_cons_self) ht fun p hp q hq => ?_
    obtain rfl | hp := List.mem_cons.1 ((insertKey_perm e acc).mem_iff.1 hp)
    · exact he q hq
    · exact hle p hp q (List.mem_cons_of_mem e hq)

theorem zipIdx_sources (x : List W32) : x.zipIdx.Pairwise fun p q => p.2 < q.2 := by
  rw [← List.pairwise_map (f := Prod.snd) (R := (· < ·)), List.zipIdx_map_snd]
  exact List.pairwise_lt_range' 

theorem sortKeys_perm (l : List (W32 × Nat)) : (sortKeys desc l).Perm l := foldl_insertKey_perm l []

theorem sortKeys_sorted (x : List W32) : (sortKeys desc x.zipIdx).Pairwise (sortedBefore desc) :=
  foldl_insertKey_sorted .nil (zipIdx_sources x) nofun

/-- A port of a CSR walk as `CSRW` sets it (R260). -/
def csrSet (p : Nat) (walk : Nat → Csr) (pol i0 : Nat) (t : TeamSt) (k : Nat) : TeamSt :=
  t.setPort k { t.port k with st := .set, pol := pol, pos := 0, rep := false, csr := some (walk (k - p)), row := i0, code := none, wait := false }

theorem csrSet_port_ne {p pol i0 k j : Nat} {walk : Nat → Csr} {t : TeamSt} (h : j ≠ k) : (csrSet p walk pol i0 t k).port j = t.port j :=
  port_setPort_ne t _ h

/-- A port that a CSR walk has set (R260). -/
def IsCsrSet (q : Port) (walk : Csr) (pol i0 : Nat) : Prop :=
  q.st = .set ∧ q.csr = some walk ∧ q.pos = 0 ∧ q.row = i0 ∧ q.pol = pol ∧ q.rep = false

section

variable {p pol i0 k : Nat} {walk : Nat → Csr}

theorem isCsrSet_csrSet (t : TeamSt) (k : Nat) : IsCsrSet ((csrSet p walk pol i0 t k).port k) (walk (k - p)) pol i0 := by
  rw [csrSet, port_setPort]
  exact ⟨rfl, rfl, rfl, rfl, rfl, rfl⟩

theorem foldl_csrSet_port_ne (ks : List Nat) (t : TeamSt) (h : k ∉ ks) : (ks.foldl (csrSet p walk pol i0) t).port k = t.port k := by
  induction ks generalizing t with
  | nil => rfl
  | cons j ks ih =>
    obtain ⟨hj, hks⟩ := not_or.1 (mt List.mem_cons.2 h)
    exact (ih _ hks).trans (csrSet_port_ne hj)

theorem foldl_csrSet_port (ks : List Nat) (t : TeamSt) (h : k ∈ ks) :
    IsCsrSet ((ks.foldl (csrSet p walk pol i0) t).port k) (walk (k - p)) pol i0 := by
  induction ks generalizing t with
  | nil => nomatch h
  | cons j ks ih =>
    by_cases hks : k ∈ ks
    · exact ih _ hks
    · obtain rfl : k = j := (List.mem_cons.1 h).resolve_right hks
      rw [List.foldl_cons, foldl_csrSet_port_ne ks _ hks]
      exact isCsrSet_csrSet t k

end

/-- The ports of a walk are those from the first on. -/
theorem mem_csrPorts {p k : Nat} {rows : Bool} : k ∈ csrPorts p rows ↔ p ≤ k ∧ k < p + if rows = true then 3 else 2 := by
  cases rows
  · simp only [csrPorts, Bool.false_eq_true, if_false, List.mem_cons, List.not_mem_nil, or_false]
    omega
  · simp only [csrPorts, if_true, List.mem_cons, List.not_mem_nil, or_false]
    omega

/-- The head of `CSRW`: its first port leaves room for the others. -/
theorem csrwFirst_ok {p : BitVec 3} {rows : Bool} (h : p.toNat + (if rows = true then 3 else 2) < 5) :
    (if rows = true then decide (p < 2) else decide (p < 3)) = true := by
  cases rows
  · exact decide_eq_true (show p.toNat < 3 by simp only [Bool.false_eq_true, if_false] at h; omega)
  · exact decide_eq_true (show p.toNat < 2 by simp only [if_true] at h; omega)

/-- The bounds that `CSRW` checks (R260). -/
theorem csrwBounds_false {j m i0 : Nat} {rows : Bool} (h : 2 ^ 32 < j ∨ (rows = true ∧ (2 ^ 31 ≤ m ∨ m < i0))) :
    (decide (j ≤ 2 ^ 32) && (!rows || (decide (m < 2 ^ 31) && decide (i0 ≤ m)))) = false := by
  obtain h | ⟨rfl, h | h⟩ := h
  · rw [decide_eq_false (Nat.not_le.2 h), Bool.false_and]
  · rw [decide_eq_false (Nat.not_lt.2 h), Bool.false_and, Bool.not_true, Bool.false_or, Bool.and_false]
  · rw [decide_eq_false (Nat.not_le.2 h), Bool.and_false, Bool.not_true, Bool.false_or, Bool.and_false]

theorem csrwBounds_true {j m i0 : Nat} {rows : Bool} (hj : j ≤ 2 ^ 32) (h : rows = true → m < 2 ^ 31 ∧ i0 ≤ m) :
    (decide (j ≤ 2 ^ 32) && (!rows || (decide (m < 2 ^ 31) && decide (i0 ≤ m)))) = true := by
  cases rows
  · rw [decide_eq_true hj]
    rfl
  · obtain ⟨hm, hi⟩ := h rfl
    rw [decide_eq_true hj, decide_eq_true hm, decide_eq_true hi]
    rfl

end Machine

open Sys2Proof.Machine

/-- Settles O42: the vector words by their shapes, `CSRW` port by port, and `SBIT` by the invariant of its insertions. -/
theorem sparseAndSortWordsComplete : Obligations.SparseAndSortWordsComplete := by
  refine ⟨fun s u v d r a b g k p w o x y l c => ?_, fun s u v d r a b f x y hi => ⟨fun hd ha h hroom => ⟨?_, ?_⟩,
    fun hd hra hb hne hpops hroom hx hy => ?_, fun hr ha hb0 hb32 ⟨hpops, hx⟩ => ?_, fun hd ha hb h hroom => ?_⟩⟩
  · intro f
    refine ⟨fun hi ha hb h => ⟨fun hr => ⟨fun hpath => ?_, fun hf => ?_⟩, fun hd hroom => ?_⟩, fun hi ha ⟨hpops, hsrc⟩ hg hg4 => ?_⟩
    · obtain ⟨hpops, w, hx, hy⟩ := h
      refine run_headOf hi (sel_and3 hr ha hb) ?_
      simp only [hpops, hx, hy, hpath, ok_bind]
    · exact (exec_vec3 (e := .segsum d r a b k) u x y hi rfl (sel_and3 hr ha hb)).1 hf h
    · intro row carry
      refine ((exec_vec2 (e := .segcar d r a b) (fok := fun _ => true) u x y hi rfl (sel_and3 hd ha hb)).1 rfl h hroom).trans ?_
      simp only [carry, row]
      split <;> rfl
    · intro rows j0 cnt m i0 n hp
      have hl : ((if rows = true then decide (p < 2) else decide (p < 3)) && s.srcOk a && decide (g.toNat ≤ 44) &&
          decide (g.toNat % 4 = 0)) = true := by
        rw [csrwFirst_ok hp, ha, decide_eq_true hg, decide_eq_true hg4]
        rfl
      refine ⟨fun hbad => ?_, fun hj hm hfree => ?_⟩
      · have hbad : (decide (j0 + cnt ≤ 2 ^ 32) && (!rows || (decide (m < 2 ^ 31) && decide (i0 ≤ m)))) = false := csrwBounds_false hbad
        refine run_headOf_fault hi hl ?_
        simp only [hpops, hsrc, ok_bind]
        exact congrArg (Bind.bind · _) (congrArg (need · .BOUNDS 0 0) hbad)
      · have hok : (decide (j0 + cnt ≤ 2 ^ 32) && (!rows || (decide (m < 2 ^ 31) && decide (i0 ≤ m)))) = true := csrwBounds_true hj hm
        have hstop : ((csrPorts p.toNat rows).any fun k => portHeld (s.tm.port k)) = false := by
          refine List.any_eq_false.2 fun k hk => ?_
          obtain ⟨hle, hlt⟩ := mem_csrPorts.1 hk
          have := hfree (k - p.toNat) (by omega)
          rw [Nat.add_sub_cancel' hle] at this
          simp [this]
        let walk (e : Nat) : Csr :=
          { role := e, j0 := j0, cnt := cnt, cols := s.descr g 0, vals := s.descr g 1, ends := s.descr g 2, m := m, i0 := i0 }
        refine ⟨(csrPorts p.toNat rows).foldl (csrSet p.toNat walk o.toNat i0) u.tm, run_headOf hi hl ?_, fun e he => ?_, fun e he => ?_⟩
        · simp only [hpops, hsrc, ok_bind]
          refine (congrArg (Bind.bind · _) (congrArg (need · .BOUNDS 0 0) hok)).trans ?_
          simp only [need, if_true, ok_bind]
          exact if_neg (Bool.eq_false_iff.1 hstop)
        · have h := foldl_csrSet_port (p := p.toNat) (walk := walk) (pol := o.toNat) (i0 := i0) (csrPorts p.toNat rows) u.tm
            (mem_csrPorts.2 ⟨Nat.le_add_right p.toNat e, Nat.add_lt_add_left he p.toNat⟩)
          rw [Nat.add_sub_cancel_left] at h
          exact h
        · exact foldl_csrSet_port_ne _ _ fun hk => by
            obtain ⟨hle, hlt⟩ := mem_csrPorts.1 hk
            have hlt : e < p.toNat + n := hlt
            omega
  · refine ((exec_vec1 (e := .skey d r a f) (fok := fun _ => true) u x hi rfl (sel_and3 hd ha rfl)).1 rfl h hroom).trans ?_
    simp only [beq_iff_eq]
  · obtain ⟨hpops, hx⟩ := h
    refine ⟨sortKeys (f == 1) x.zipIdx, ?_, sortKeys_perm _, ?_⟩
    · refine run_headOf hi (sel_and3 hd ha rfl) ?_
      simp only [hpops, hroom, hx, ok_bind]
    · refine (sortKeys_sorted x).imp fun h => ?_
      simpa [sortedBefore, keyBefore] using h
  · intro l
    refine run_headOf hi ?_ ?_
    · rw [hd, hra, hb, bne_iff_ne.2 hne]
      rfl
    · simp only [hpops, hroom, hx, hy, ok_bind]
      rfl
  · intro k l
    refine run_headOf hi ?_ ?_
    · rw [hr, ha, bne_iff_ne.2 hb0, decide_eq_true (show b ≤ 32 from hb32)]
      rfl
    · simp only [hpops, hx, ok_bind]
      rfl
  · exact (exec_vec2 (e := .spay d r a b f) (fok := fun _ => true) u x y hi rfl (sel_and3 hd ha hb)).1 rfl h hroom

end Sys2Proof

/-! SUPPORT. Tiles and their checks (R231, R232, R249, R250). -/

namespace Sys2Proof

namespace Machine

variable {s u : State} {t : Tile} {a b g : BitVec 7}

/-- What a table holds at an index that all its entries of that index agree on. -/
theorem tget_of_mem {α : Type} {d v : α} {l : Tab α} {k : Nat} (hmem : (k, v) ∈ l) (huniq : ∀ w, (k, w) ∈ l → w = v) : tget d l k = v := by
  induction l with
  | nil => nomatch hmem
  | cons e l ih =>
    obtain ⟨i, w⟩ := e
    by_cases hik : i = k
    · subst hik
      simp only [tget, if_true]
      exact huniq w List.mem_cons_self
    · simp only [tget, if_neg hik]
      refine ih ((List.mem_cons.1 hmem).resolve_left fun h => hik ?_) fun w hw => huniq w (List.mem_cons_of_mem _ hw)
      exact (congrArg Prod.fst h).symm

theorem shCols_lt (w : W64) : shCols w < 256 := Nat.mod_lt _ (by decide)

/-- A tile written whole shows what was given for a place of its shape (R231). -/
theorem fill_at {f : Nat → Nat → W32} {r c : Nat} (hr : r < shRows t.shape) (hc : c < shCols t.shape) : (t.fill f).at r c = f r c := by
  refine tget_of_mem ?_ fun v hv => ?_
  · exact List.mem_flatMap.2 ⟨r, List.mem_range.2 hr, List.mem_map.2 ⟨c, List.mem_range.2 hc, rfl⟩⟩
  · obtain ⟨p, hp, hv⟩ := List.mem_flatMap.1 hv
    obtain ⟨q, hq, hv⟩ := List.mem_map.1 hv
    have hq : q < shCols t.shape := List.mem_range.1 hq
    have hlt := shCols_lt t.shape
    have hplace : p * 256 + q = r * 256 + c := congrArg Prod.fst hv
    obtain rfl : p = r := by omega
    obtain rfl : q = c := by omega
    exact (congrArg Prod.snd hv).symm

theorem tileOk_of_ne (h : tileDir a ≠ 3) : tileOk a = true := bne_iff_ne.2 h

theorem tileOk_of_lt {n : Nat} (hn : n < 3) (h : tileDir a ≤ n) : tileOk a = true := tileOk_of_ne (by omega)

theorem needShape_ok {c : Bool} (h : c = true) : needShape c = .ok () := by
  subst h
  rfl

theorem needShape_bad {c : Bool} (h : c = false) : needShape c = .error (.fault ⟨.SHAPE, 0, 0, [], false, none⟩) := by
  subst h
  rfl

theorem needType_ok {f : W32} (h : shType (s.tm.tileOf a).shape = typeOf f) : s.needType a f = .ok () := by
  rw [State.needType, h, beq_self_eq_true]
  rfl

theorem tilePoison_cons {l : List (BitVec 7)} (h : (s.tm.tileOf a).poison = none) : s.tilePoison (a :: l) = s.tilePoison l := by
  rw [State.tilePoison, h]

/-- Two tiles without poison (R250). -/
theorem tilePoison_one (h : (s.tm.tileOf a).poison = none) : s.tilePoison [a] = .ok () := tilePoison_cons h

theorem tilePoison_two (ha : (s.tm.tileOf a).poison = none) (hb : (s.tm.tileOf b).poison = none) : s.tilePoison [a, b] = .ok () :=
  (tilePoison_cons ha).trans (tilePoison_cons hb)

/-- The element operations on tiles that satisfy their checks (R245). -/
theorem elemOp_ok {num : Nat → ExNum → ExNum → ExNum} {int : Int → Int → Int} (hel : elTile (s.fmtEntry (s.tm.stage 8)) = true)
    (hfree : s.tilesFree [a, b, g] = .ok ()) (ha : tileDir a = 0) (hcb : s.coversTile b (s.tm.tileOf a) = true)
    (hcg : s.coversTile g (s.tm.tileOf a) = true) (hta : shType (s.tm.tileOf a).shape = typeOf (s.fmtEntry (s.tm.stage 8)))
    (htb : shType (s.tm.tileOf b).shape = typeOf (s.fmtEntry (s.tm.stage 8)))
    (htg : shType (s.tm.tileOf g).shape = typeOf (s.fmtEntry (s.tm.stage 8))) (hpb : (s.tm.tileOf b).poison = none)
    (hpg : (s.tm.tileOf g).poison = none) : s.elemOp a b g num int = .ok (s.putTile a ((s.tm.tileOf a).fill fun r c =>
      tileOp (s.fmtEntry (s.tm.stage 8)) num int (s.tm.effCode b r c) (s.tm.effCode g r c))).goOn := by
  have hshape : (tileDir a == 0 && s.coversTile b (s.tm.tileOf a) && s.coversTile g (s.tm.tileOf a)) = true := by
    rw [ha, hcb, hcg]
    rfl
  simp only [State.elemOp, hel, need, if_true, hfree, needShape_ok hshape, needType_ok hta, needType_ok htb, needType_ok htg,
    tilePoison_two hpb hpg, ok_bind]

/-- The shapes that `TBCAST` checks (R248). -/
theorem bcastShape_ok {line lines cols len : Nat} (ha : tileDir a = 0) (hline : line < lines) (hlen : cols ≤ len)
    (hblocks : (s.noBlocks a && s.noBlocks b) = true) :
    (tileDir a == 0 && decide (line < lines) && decide (cols ≤ len) && s.noBlocks a && s.noBlocks b) = true := by
  rw [Bool.and_assoc, hblocks, ha, decide_eq_true hline, decide_eq_true hlen]
  rfl

end Machine

open Sys2Proof.Machine

/-- Settles O43: a filled tile entry by entry, and each word with the checks that its operands satisfy. -/
theorem tileWordsComplete : Obligations.TileWordsComplete := by
  refine ⟨fun t f r c hr hc => ⟨fill_at hr hc, rfl, rfl⟩, ?_⟩
  intro s u a b g c z t f h o y type hi ha hb hg
  have hoka : tileOk a = true := tileOk_of_ne (by omega)
  have hokb : tileOk b = true := tileOk_of_ne hb
  have hokg : tileOk g = true := tileOk_of_ne hg
  have hl2 : (tileOk a && tileOk b) = true := by rw [hoka, hokb]; rfl
  refine ⟨fun hh hf hblk hfree hcov htb hta hpb => ?_, ?_, ?_, ?_⟩
  · refine run_headOf hi hl2 ?_
    have hfmt : (enOk h && enOk f && enBlk f == 0) = true := by
      rw [hh, hf, hblk]
      rfl
    have hshape : (tileDir a == 0 && s.coversTile b (s.tm.tileOf a)) = true := by
      rw [ha, hcov]
      rfl
    have htb : s.needType b (s.fmtEntry (s.tm.stage 5)) = .ok () := needType_ok htb
    have hta : s.needType a (s.fmtEntry (s.tm.stage 8)) = .ok () := needType_ok hta
    simp only [t, f, h] at hfmt
    simp only [hfmt, need, if_true, hfree, needShape_ok hshape, htb, hta, tilePoison_one hpb, ok_bind]
    rfl
  · have hl3 := sel_and3 hoka hokb hokg
    simp only [List.forall_mem_cons, List.not_mem_nil, false_implies, implies_true, and_true]
    exact ⟨fun hel hfree hcb hcg hta htb htg hpb hpg => run_headOf hi hl3 (elemOp_ok hel hfree ha hcb hcg hta htb htg hpb hpg),
      fun hel hfree hcb hcg hta htb htg hpb hpg => run_headOf hi hl3 (elemOp_ok hel hfree ha hcb hcg hta htb htg hpb hpg),
      fun hel hfree hcb hcg hta htb htg hpb hpg => run_headOf hi hl3 (elemOp_ok hel hfree ha hcb hcg hta htb htg hpb hpg),
      fun hel hfree hcb hcg hta htb htg hpb hpg => run_headOf hi hl3 (elemOp_ok hel hfree ha hcb hcg hta htb htg hpb hpg)⟩
  · intro hel hsc ⟨hpops, hsrc⟩ hfree hb2 hop rows hrows hix hta htb hpb
    refine run_headOf hi (sel_and3 hoka hokb hsc) ?_
    have hel : elTile (s.fmtEntry (s.tm.stage 8)) = true := hel
    have htb : s.needType b (s.fmtEntry (s.tm.stage 8)) = .ok () := needType_ok htb
    have hta : s.needType a (s.fmtEntry (s.tm.stage 8)) = .ok () := needType_ok hta
    simp only [rows, ← beq_iff_eq (a := tileDir b)] at hrows ⊢
    have hshape : (fieldW z 1 0 != 3 && tileDir a == 0 && tileDir b != 2 &&
        decide ((if (tileDir b == 1) = true then shCols (s.tm.tileOf b).shape else shRows (s.tm.tileOf b).shape) ≤
          shRows (s.tm.tileOf a).shape) && decide (s.tm.ix1.toNat < shCols (s.tm.tileOf a).shape)) = true := by
      rw [bne_iff_ne.2 hop, ha, bne_iff_ne.2 hb2, decide_eq_true hrows, decide_eq_true hix]
      rfl
    simp only [hel, need, if_true, hpops, hsrc, hfree, needShape_ok hshape, hta, htb, tilePoison_one hpb, ok_bind]
    rfl
  · intro hfree htype hblk hpb line hline hlen
    have hblkb : enBlk (shType (s.tm.tileOf b).shape) = 0 := (congrArg enBlk htype).symm.trans hblk
    have hdir : tileDir b = 0 ∨ tileDir b = 1 ∨ tileDir b = 2 := by
      have : tileDir b < 4 := Nat.mod_lt _ (by decide)
      omega
    have htype : (shType (s.tm.tileOf a).shape == shType (s.tm.tileOf b).shape) = true := beq_iff_eq.2 htype
    have hblocks : (s.noBlocks a && s.noBlocks b) = true := by
      rw [State.noBlocks, State.noBlocks, show enBlk (shType (s.tm.tileOf a).shape) = 0 from hblk, hblkb]
      rfl
    refine run_headOf hi hl2 ?_
    obtain hd | hd | hd := hdir
    all_goals
      simp only [line, hd, y, o, t, if_true, if_false, Nat.reduceEqDiff] at hline hlen ⊢
      simp only [hfree, ok_bind, Nat.reduceBEq, if_true, if_false, Bool.false_eq_true, needShape_ok (bcastShape_ok ha hline hlen hblocks),
        htype, need, tilePoison_one hpb]

end Sys2Proof

namespace Sys2Proof

open Sys2Proof.Machine

/-- Settles O44: each word by its body. -/
theorem cubeControlWordsComplete : Obligations.CubeControlWordsComplete := by
  intro s u f b n a x hi k t
  refine ⟨fun hk => ?_, fun hk => ?_, run_headOf hi rfl rfl, run_headOf hi rfl rfl, fun h => run_headOf hi h rfl,
    fun h => run_headOf_illegal hi h, run_headOf hi rfl rfl, fun hb ⟨hpops, hsrc⟩ => ?_, fun ha hfree => ⟨?_, fun hb ⟨hpops, hsrc⟩ =>
    ⟨fun hx => ?_, fun hx hsame => ?_, fun hx hdiff => ?_⟩⟩, ?_⟩
  · refine run_headOf hi rfl ?_
    have hk : ((s.core s.cur).lease == .none) = true := beq_iff_eq.2 hk
    simp only [hk, if_true]
    rfl
  · refine run_headOf hi rfl ?_
    have hk : ((s.core s.cur).lease == .none) = false := beq_eq_false_iff_ne.2 hk
    simp only [hk, Bool.false_eq_true, if_false]
  · refine run_headOf hi hb ?_
    simp only [hpops, hsrc, ok_bind]
  · have hshape : (tileDir a == 0) = true := beq_iff_eq.2 ha
    refine run_headOf hi (tileOk_of_lt (n := 0) (by decide) (Nat.le_of_eq ha)) ?_
    simp only [hfree, needShape_ok hshape, ok_bind]
    rfl
  · have hshape : (tileDir a == 0 && shapeOk x) = false := by rw [hx, Bool.and_false]
    refine run_headOf_fault hi (by rw [tileOk_of_lt (n := 0) (by decide) (Nat.le_of_eq ha), hb]; rfl) ?_
    simp only [hpops, hsrc, hfree, needShape_bad hshape, ok_bind]
    rfl
  · have hshape : (tileDir a == 0 && shapeOk x) = true := by rw [hx, beq_iff_eq.2 ha]; rfl
    have hsame : ((s.tm.tileOf a).shape == x) = true := beq_iff_eq.2 hsame
    refine run_headOf hi (by rw [tileOk_of_lt (n := 0) (by decide) (Nat.le_of_eq ha), hb]; rfl) ?_
    simp only [hpops, hsrc, hfree, needShape_ok hshape, hsame, ok_bind, if_true]
  · have hshape : (tileDir a == 0 && shapeOk x) = true := by rw [hx, beq_iff_eq.2 ha]; rfl
    have hdiff : ((s.tm.tileOf a).shape == x) = false := beq_eq_false_iff_ne.2 hdiff
    refine run_headOf hi (by rw [tileOk_of_lt (n := 0) (by decide) (Nat.le_of_eq ha), hb]; rfl) ?_
    simp only [hpops, hsrc, hfree, needShape_ok hshape, hdiff, ok_bind, Bool.false_eq_true, if_false]
  · intro e o ha he hblk hfree hsize htype
    have hfmt : (enOk (s.fmtEntry (s.tm.stage 8)) && enBlk (s.fmtEntry (s.tm.stage 8)) == 0) = true := by
      rw [show enOk (s.fmtEntry (s.tm.stage 8)) = true from he, show enBlk (s.fmtEntry (s.tm.stage 8)) = 0 from hblk]
      rfl
    have hshape : (tileDir a != 2 && s.atLeast a (s.tm.stage 0) (s.tm.stage 1)) = true := by
      rw [bne_iff_ne.2 (Nat.ne_of_lt ha), show s.atLeast a (s.tm.stage 0) (s.tm.stage 1) = true from hsize]
      rfl
    have htype : s.needType a (s.fmtEntry (s.tm.stage 8)) = .ok () := needType_ok htype
    refine run_headOf hi (tileOk_of_lt (n := 1) (by decide) (by omega)) ?_
    simp only [hfmt, need, if_true, hfree, needShape_ok hshape, htype, ok_bind, beq_iff_eq]
    rfl

end Sys2Proof

/-! SUPPORT. The commands of the cube (R235, R237 to R240). -/

namespace Sys2Proof

namespace Machine

variable {s : State} {k : CmdKind} {f : Nat → Nat → Nat → ExNum}

/-- A table given entry by entry. -/
theorem tget_map_range {α : Type} {d : α} {n e : Nat} (g : Nat → α) (he : e < n) : tget d ((List.range n).map fun e => (e, g e)) e = g e := by
  refine tget_of_mem (List.mem_map.2 ⟨e, List.mem_range.2 he, rfl⟩) fun v hv => ?_
  obtain ⟨i, _, hi⟩ := List.mem_map.1 hv
  obtain ⟨rfl, rfl⟩ := Prod.mk.inj hi
  rfl

/-- The element of a number after a command (R237). -/
def bankAfter (t : TeamSt) (k : CmdKind) (f : Nat → Nat → Nat → ExNum) (e : Nat) : W32 :=
  if e / 64 < t.stage 0 ∧ e % 64 < t.stage 1 then
    stage2 k (t.stage 9 == 1 && t.fresh) (tget 0 t.bank e) ((List.range (t.stage 2)).map (f (e / 64) (e % 64)))
  else tget 0 t.bank e

theorem command_bank_eq (t : TeamSt) : (t.command k f).bank = (List.range 4096).map fun e => (e, bankAfter t k f e) := by
  simp only [TeamSt.command, bankAfter]

/-- An element of the bank after a command (R237): new inside DIMI and DIMJ, else as it was. -/
theorem command_bank (t : TeamSt) {i j : Nat} (hi : i < 64) (hj : j < 64) : tget 0 (t.command k f).bank (64 * i + j) =
    if i < t.stage 0 ∧ j < t.stage 1 then
      stage2 k (t.stage 9 == 1 && t.fresh) (tget 0 t.bank (64 * i + j)) ((List.range (t.stage 2)).map (f i j))
    else tget 0 t.bank (64 * i + j) := by
  have hdiv : (64 * i + j) / 64 = i := by omega
  have hmod : (64 * i + j) % 64 = j := by omega
  rw [command_bank_eq, tget_map_range _ (by omega), bankAfter, hdiv, hmod]

theorem needLease_none (h : (s.core s.cur).lease = .none) : s.needLease = .error (.fault ⟨.LEASE, 0, 0, [], false, none⟩) := by
  simp only [State.needLease, h]
  rfl

theorem needLease_want (h : (s.core s.cur).lease = .want) : s.needLease = .error (.stall .stall) := by
  simp only [State.needLease, h]
  rfl

theorem needLease_held (h : (s.core s.cur).lease = .held) : s.needLease = needWait (leaseLive (s.core s.cur) s.cyc) := by
  simp only [State.needLease, h]

/-- A command (R235, R237, R250): the format, the lease, the tiles, the sizes and the operands are checked in this order. -/
def State.cubeCommand (s : State) (fmt : Bool) (ops : List (BitVec 7)) (sizes : Bool) (pairs : List (BitVec 7 × W32)) (k : CmdKind)
    (term : Nat → Nat → Nat → ExNum) : Iss Done := do
  need fmt .FMT 0 0
  s.needLease
  s.tilesFree ops
  needShape sizes
  s.cmdChecks pairs k
  .ok (s.setTm (s.tm.command k term)).spendLease.goOn

/-- What the two commands have in common (R235 to R240). -/
theorem exec_cubeCommand {e : Instr} {l fmt : Bool} {body : State → Iss Done} {ops : List (BitVec 7)} {sizes : Bool} {pairs : List (BitVec 7 × W32)}
    (hi : s.Issues .X false) (he : exec e s = s.run (headOf .X l) body) (hl : l = true) (hfmt : fmt = true)
    (hb : body s = s.cubeCommand fmt ops sizes pairs k f) :
    ((s.core s.cur).lease = .none → exec e s = .next (s.faulted .LEASE 0 0)) ∧
    ((s.core s.cur).lease = .want → exec e s = .next (s.noteHold .stall)) ∧
    ((s.core s.cur).lease = .held → leaseLive (s.core s.cur) s.cyc = false → exec e s = .next (s.noteHold .stall)) ∧
    ((s.core s.cur).lease = .held → leaseLive (s.core s.cur) s.cyc = true → s.tilesFree ops = .ok () → sizes = true →
      s.cmdChecks pairs k = .ok () → exec e s = .next ((s.setTm (s.tm.command k f)).spendLease.past .X)) := by
  rw [he]
  subst hfmt
  refine ⟨fun hn => ?_, fun hw => ?_, fun hh hd => ?_, fun hh hlive hfree hsize hchk => ?_⟩
  · refine run_headOf_fault hi hl (hb.trans ?_)
    simp only [State.cubeCommand, need, if_true, needLease_none hn, ok_bind]
    rfl
  · refine run_stall (h := headOf .X l) (k := .stall) hi hl nofun (hb.trans ?_)
    simp only [State.cubeCommand, need, if_true, needLease_want hw, ok_bind]
    rfl
  · refine run_stall (h := headOf .X l) (k := .stall) hi hl nofun (hb.trans ?_)
    simp only [State.cubeCommand, need, if_true, needLease_held hh, hd, ok_bind]
    rfl
  · refine run_headOf hi hl (hb.trans ?_)
    simp only [State.cubeCommand, need, if_true, needLease_held hh, hlive, needWait, hfree, needShape_ok hsize, hchk, ok_bind]

theorem command_kind (t : TeamSt) : (t.command k f).kind = k.bank := by
  simp only [TeamSt.command]

theorem command_fresh (t : TeamSt) : (t.command k f).fresh = false := by
  simp only [TeamSt.command]

theorem command_tiles (t : TeamSt) : (t.command k f).tiles = t.tiles := by
  simp only [TeamSt.command]

/-- What a command leaves: the bank element by element, and the tiles as they were. -/
theorem exists_command {e : Instr} (h : exec e s = .next ((s.setTm (s.tm.command k f)).spendLease.past .X)) :
    ∃ v : TeamSt, exec e s = .next ((s.setTm v).spendLease.past .X) ∧ v.kind = k.bank ∧ v.fresh = false ∧ v.tiles = s.tm.tiles ∧
      ∀ i j, i < 64 → j < 64 → tget 0 v.bank (64 * i + j) =
        if i < s.tm.stage 0 ∧ j < s.tm.stage 1 then
          stage2 k (s.tm.stage 9 == 1 && s.tm.fresh) (tget 0 s.tm.bank (64 * i + j)) ((List.range (s.tm.stage 2)).map (f i j))
        else tget 0 s.tm.bank (64 * i + j) :=
  ⟨s.tm.command k f, h, command_kind _, command_fresh _, command_tiles _, fun _ _ hi hj => command_bank s.tm hi hj⟩

end Machine

open Sys2Proof.Machine

/-- Settles O45: both words are a command of the cube, whose bank is given element by element. -/
theorem cubeCommandsUpdateTheBank : Obligations.CubeCommandsUpdateTheBank := by
  intro s a b g e ops term t fa fb fg fs k sizes hi ha hb hg he hfmt
  have hoka : tileOk a = true := tileOk_of_ne ha
  have hokb : tileOk b = true := tileOk_of_ne hb
  have hokg : tileOk g = true := tileOk_of_ne hg
  obtain ⟨rfl, rfl, rfl⟩ | ⟨rfl, rfl, rfl⟩ := he
  · have hne : Instr.mma a b ≠ .tri a b g := nofun
    have hfs : fs = [fa, fb] := if_neg hne
    have hk : k = cmdKind [fa, fb] := congrArg cmdKind hfs
    have hsizes : sizes = (s.dimkOk [fa, fb] && s.atLeast a (t.stage 0) (t.stage 2) && s.atLeast b (t.stage 2) (t.stage 1)
        && s.blocksAlong a false && s.blocksAlong b true) := by
      rw [← hfs]
      exact if_neg hne
    clear_value sizes k fs
    subst hfs hk hsizes
    obtain ⟨hnone, hwant, hheld, hok⟩ := exec_cubeCommand (e := .mma a b) hi rfl (by rw [hoka, hokb]; rfl)
      (show (slotOk fa && slotOk fb) = true by simpa using hfmt) rfl
    exact ⟨hnone, hwant, hheld, fun hh hlive hfree hsize hchk => exists_command (hok hh hlive hfree hsize hchk)⟩
  · have hfs : fs = [fa, fb, fg] := if_pos rfl
    have hk : k = cmdKind [fa, fb, fg] := congrArg cmdKind hfs
    have hsizes : sizes = (t.triMode && s.dimkOk [fa, fb, fg] && s.triSizes a b g && s.triBlocks a b g) := by
      rw [← hfs]
      exact if_pos rfl
    clear_value sizes k fs
    subst hfs hk hsizes
    obtain ⟨hnone, hwant, hheld, hok⟩ := exec_cubeCommand (e := .tri a b g) hi rfl (sel_and3 hoka hokb hokg)
      (show (slotOk fa && slotOk fb && slotOk fg) = true by simpa [and_assoc] using hfmt) rfl
    exact ⟨hnone, hwant, hheld, fun hh hlive hfree hsize hchk => exists_command (hok hh hlive hfree hsize hchk)⟩

end Sys2Proof

/-! SUPPORT. Tile transfers and the lease of the array (R235, R249 to R253). -/

namespace Sys2Proof

namespace Machine

variable {s u v : State}

/-- A transfer that passes its checks is queued (R249, R252). -/
theorem tileXfer_ok {store : Bool} {a : BitVec 7} {b g : BitVec 6} {x y : W64} {l : List (List (Place × W64 × Nat))}
    (h : s.Reads2 b g x y u) (hlen : s.tm.tq.length < 64) (hlay : layOk y = true) (hsp : vecSpace x = true)
    (hchk : u.checkSpace u.me x x 0 = .ok ()) (hx : x.toNat % 4 = 0) (hp : layPitch y % 4 = 0)
    (hl : u.checkLines u.me x y (if store = true then .write else .read) (List.range (layLines y)) = .ok (l, v)) :
    s.tileXfer store a b g = .ok (v.setTm { v.tm with tq := v.tm.tq ++
      [{ store := store, ta := a, base := x, lay := y, tag := s.tm.a.span, pc := s.st.pc, places := l }] }).goOn := by
  obtain ⟨hpops, w, hxs, hys⟩ := h
  have halign : (x.toNat % 4 == 0 && layPitch y % 4 == 0) = true := by
    rw [hx, hp]
    rfl
  simp only [State.tileXfer, hpops, hlen, if_true, hxs, hys, needShape_ok hlay, need, hsp, hchk, halign, hl, ok_bind]

/-- No core of a CUB die holds the array (R235). -/
theorem leaseHolder_none {site : Nat} (h : ∀ j < 4, (s.core ⟨site, j⟩).lease ≠ .held) : s.leaseHolder site = none :=
  List.find?_eq_none.2 fun j hj => by
    have := h j (List.mem_range.1 hj)
    simpa using this

/-- The first core that wants the lease, counted from the one after the last holder (R235). -/
theorem find_want {site last k : Nat} (hk : k < 4) (hwant : (s.core ⟨site, k⟩).lease = .want)
    (hfirst : ∀ j < 4, (last + 1 + j) % 4 = k → ∀ i < j, (s.core ⟨site, (last + 1 + i) % 4⟩).lease ≠ .want) :
    (((List.range 4).map fun j => (last + 1 + j) % 4).find? fun k => (s.core ⟨site, k⟩).lease == .want) = some k := by
  obtain ⟨j, hj, hjk⟩ : ∃ j < 4, (last + 1 + j) % 4 = k := ⟨(k + 3 * (last + 1)) % 4, Nat.mod_lt _ (by decide), by omega⟩
  rw [List.find?_map, Option.map_eq_some_iff]
  refine ⟨j, List.find?_range_eq_some.2 ⟨?_, List.mem_range.2 hj, fun i hi => ?_⟩, hjk⟩
  · simp [hjk, hwant]
  · simpa using hfirst j hj hjk i hi

/-- The free array granted (R235). -/
theorem grantLease_eq {site k : Nat} (hnone : s.leaseHolder site = none)
    (hfind : (((List.range 4).map fun j => ((s.die site).lastHold + 1 + j) % 4).find? fun k => (s.core ⟨site, k⟩).lease == .want) = some k) :
    let z := s.setCore ⟨site, k⟩ { s.core ⟨site, k⟩ with lease := .held, leaseN := 0, leaseT := s.cyc, leaseU := s.cyc }
    s.grantLease site = z.setDie site { z.die site with lastHold := k } := by
  simp only [State.grantLease, hnone, hfind, Option.isSome_none, Bool.false_eq_true, if_false]

end Machine

open Sys2Proof.Machine

/-- Settles O46: the two words by their common body, each step by its case. -/
theorem transfersAndLeaseStepsComplete : Obligations.TransfersAndLeaseStepsComplete := by
  intro s u v w a b g x y k e l
  refine ⟨?_, ?_, ?_⟩
  · intro hi ha hb hg h hlen hlay hsp hchk hx hp q
    have hl := sel_and3 (tileOk_of_ne ha) hb hg
    exact ⟨fun hlines => run_headOf hi hl (tileXfer_ok (store := false) h hlen hlay hsp hchk hx hp hlines),
      fun hlines => run_headOf hi hl (tileXfer_ok (store := true) h hlen hlay hsp hchk hx hp hlines)⟩
  · intro c t he hspan hbefore heff
    have hfree : (!((s.team s.ev.core).tq.take s.ev.n).any fun y => tileNo y.ta == tileNo e.ta) = true := by
      rw [Bool.not_eq_true', List.any_eq_false]
      exact fun y hy => by simpa using hbefore y hy
    have he : (s.team s.ev.core).tq[s.ev.n]? = some e := he
    show execTileTransferEffect s = _
    simp only [execTileTransferEffect, he, hfree, and_true]
    rw [if_pos hspan]
    exact congrArg (fun r => Host.Outcome.next (s.orWaited r)) heff
  · intro site c hkind
    have hcub : (Config.kindAt s.ev.site == .cub) = true := beq_iff_eq.2 hkind
    refine ⟨fun hk hheld hwant hfirst => ?_, fun hholder => ⟨fun hbudget => ?_, fun hidle => ?_⟩⟩
    · show execLeaseGrant s = _
      simp only [execLeaseGrant, hcub, if_true]
      exact congrArg Host.Outcome.next (grantLease_eq (leaseHolder_none hheld) (find_want hk hwant hfirst))
    · have hholder : s.leaseHolder s.ev.site = some k := hholder
      show execLeaseBudgetExpiry s = _
      simp only [execLeaseBudgetExpiry, hholder]
      exact congrArg Host.Outcome.next (if_pos hbudget)
    · have hholder : s.leaseHolder s.ev.site = some k := hholder
      show execLeaseIdleExpiry s = _
      simp only [execLeaseIdleExpiry, hholder]
      exact congrArg Host.Outcome.next (if_pos hidle)

end Sys2Proof

/-! SUPPORT. Pages at home (R315, R316, R330 to R333), and a page that becomes zero. -/

namespace Sys2Proof

namespace Machine

variable {s u v : State} {w : Who}

/-! ### Where a page is -/

/-- A window that holds a page names a stack for it (R316, R317). -/
theorem stackFrame_lt {site f page : Nat} (h : s.inWindow site f page = true) : (s.stackFrame site f page).1 < 24 := by
  simp only [State.inWindow, Bool.and_eq_true, decide_eq_true_eq] at h
  obtain ⟨hlo, hhi⟩ := h
  have hpos : 0 < (liveList (s.winEnt site f).2).length := by
    refine Nat.pos_of_ne_zero fun h0 => ?_
    rw [h0, Nat.zero_mul] at hhi
    omega
  have hmem {i : Nat} (hi : i < (liveList (s.winEnt site f).2).length) : (liveList (s.winEnt site f).2).getD i 0 < 24 := by
    rw [List.getD_eq_getElem?_getD, List.getElem?_eq_getElem hi, Option.getD_some]
    exact List.mem_range.1 (List.mem_filter.1 (List.getElem_mem hi)).1
  exact hmem (Nat.mod_lt _ hpos)

theorem homeOf_lt {site pa n lf : Nat} {fold : Option Nat} (h : s.homeOf site fold pa = some (n, lf)) : n < 24 := by
  cases fold with
  | none =>
    simp only [State.homeOf, Option.map_eq_some_iff] at h
    obtain ⟨f, hf, he⟩ := h
    have hf : (List.range 8).find? (fun f => s.inWindow site f (pa / 65536)) = some f := hf
    have hin : s.inWindow site f (pa / 65536) = true := List.find?_some (p := fun f => s.inWindow site f (pa / 65536)) hf
    have := stackFrame_lt hin
    rwa [he] at this
  | some f =>
    simp only [State.homeOf] at h
    split at h
    · next hin =>
      have := stackFrame_lt hin
      rwa [Option.some.inj h] at this
    · nomatch h

theorem siteStack_stackSite : ∀ n < 24, Config.siteStack (Config.stackSite n) = some n := by decide

theorem atStack_eq {pa : Nat} {ea : W64} {h : Nat × Nat} (hat : s.atStack w pa ea = .ok h) :
    ∃ n lf, s.homeOf w.c.site w.fold pa = some (n, lf) ∧ h = (Config.stackSite n, lf) := by
  unfold State.atStack at hat
  split at hat
  · exact absurd hat nofun
  · next n lf hhome =>
    refine ⟨n, lf, hhome, ?_⟩
    exact (Except.ok.inj (ok_of_ite_error (ok_of_ite_error hat))).symm

/-- The number at home of a page that a stack holds (log 43). -/
theorem homePage_eq {pa : Nat} {ea : W64} {h : Nat × Nat} (hpa : pa < farBase) (hat : s.atStack w pa ea = .ok h) :
    s.homePage w (pa / 65536) = stackPage h.1 h.2 := by
  obtain ⟨n, lf, hhome, rfl⟩ := atStack_eq hat
  have hpage : s.homeOf w.c.site w.fold (pa / 65536 * 1024 * 64) = some (n, lf) := by
    rw [← hhome]
    have : pa / 65536 * 1024 * 64 / 65536 = pa / 65536 := by omega
    simp only [State.homeOf, this]
  have hlow : ¬ farBase ≤ pa / 65536 * 1024 * 64 := by omega
  rw [State.homePage, State.homeLine, if_neg hlow, hpage, stackPage, siteStack_stackSite n (homeOf_lt hhome)]
  show (frameLine n lf + pa / 65536 * 1024 % 1024) / 1024 = frameLine n lf / 1024
  rw [Nat.mul_mod_left, Nat.add_zero]

/-! ### What does not change the memory -/

/-- Two states with one memory and the same stack configuration. -/
def SameStore (s u : State) : Prop := u.mem = s.mem ∧ ∀ site, (u.die site).stkcfg = (s.die site).stkcfg

theorem SameStore.trans (h1 : SameStore s u) (h2 : SameStore u v) : SameStore s v := by
  obtain ⟨hm1, hd1⟩ := h1
  obtain ⟨hm2, hd2⟩ := h2
  exact ⟨hm2.trans hm1, fun site => (hd2 site).trans (hd1 site)⟩

theorem SameStore.stackEnc (h : SameStore s u) (site : Nat) : u.stackEnc site = s.stackEnc site := by
  obtain ⟨_, hd⟩ := h
  exact congrArg (fun c => bit c.toNat 4) (hd site)

theorem sameStore_dropPage (s : State) (page : Nat) : SameStore s (s.dropPage page) :=
  ⟨rfl, fun site => tget_tmap_part (g := Die.stkcfg) (f := fun _ d => { d with l2 := tfilter (fun p _ => p / 1024 != page) d.l2 })
    (fun _ _ => rfl) Die.reset s.dies site⟩

theorem sameStore_spoilBlock (s : State) (b : Nat) : SameStore s (s.spoilBlock b) := by
  have hdies : (s.spoilBlock b).dies = s.dies := by
    unfold State.spoilBlock
    rfl
  refine ⟨?_, fun site => congrArg (fun t => (tget Die.reset t site).stkcfg) hdies⟩
  unfold State.spoilBlock
  rfl

theorem sameStore_setDie (s : State) {n : Nat} {d : Die} (hd : d.stkcfg = (s.die n).stkcfg) : SameStore s (s.setDie n d) :=
  ⟨rfl, die_setDie_part Die.stkcfg hd⟩

/-- A line that the counter block spoils is poisoned and logged (R323). -/
theorem sameStore_markLine (s : State) (w : Who) (line : Nat) : SameStore s (s.markLine w line 4) := by
  have hspoil := sameStore_spoilBlock s (s.homeLine w line / 64)
  simp only [State.markLine, Nat.reduceBEq, Bool.false_eq_true, if_false, if_true]
  split
  · exact hspoil.trans (sameStore_setDie _ rfl)
  · exact hspoil

theorem sameStore_blocksMet (s : State) (w : Who) (page : Nat) : SameStore s (s.blocksMet w page) := by
  unfold State.blocksMet
  generalize List.range 16 = l
  induction l generalizing s with
  | nil => exact ⟨rfl, fun _ => rfl⟩
  | cons k l ih =>
    refine SameStore.trans ?_ (ih _)
    dsimp only
    split
    · exact sameStore_markLine ..
    · exact ⟨rfl, fun _ => rfl⟩

/-! ### A page that becomes zero (R324, R332) -/

theorem tget_tfilter_of_false {α : Type} {d : α} {p : Nat → α → Bool} {t : Tab α} {k : Nat} (h : ∀ v, p k v = false) :
    tget d (tfilter p t) k = d := by
  induction t with
  | nil => rfl
  | cons e t ih =>
    obtain ⟨i, x⟩ := e
    by_cases hp : p i x = true
    · have hik : i ≠ k := by
        rintro rfl
        rw [h x] at hp
        nomatch hp
      simp only [tfilter, List.filter_cons, hp, if_true, tget, if_neg hik]
      exact ih
    · simp only [tfilter, List.filter_cons, hp]
      exact ih

/-- The entries of a page's lines, filtered away. -/
theorem tget_tfilter_page {α : Type} {d : α} {t : Tab α} {page line : Nat} (h : line / 1024 = page) :
    tget d (tfilter (fun k _ => k / 1024 != page) t) line = d :=
  tget_tfilter_of_false fun _ => by simp [h]

/-- A memory that differs from another one within a page at the most. -/
def SameButPage (page : Nat) (m m' : List Host.Cell) : Prop :=
  Memory.wf m' = true ∧ ∀ k, k / 65536 ≠ page → cget m' k = cget m k

theorem write_line_sameButPage {m : List Host.Cell} {h page : Nat} {b : List Byte} (hwf : Memory.wf m = true) (hh : h / 1024 = page)
    (hb : b.length ≤ 64) : SameButPage page m (cwrite m (h * 64) b) :=
  ⟨wf_cwrite _ _ hwf, fun a ha => (cget_cwrite _ a _ hwf).trans (if_neg fun hr => ha (by omega))⟩

theorem length_cread (m : List Host.Cell) (a n : Nat) : (cread m a n).length = n := by
  simp [cread]

/-- A row left behind the zero value: its cells change, and no mark of a line (R324). -/
theorem leaveRow_sameButPage {h page : Nat} (hwf : Memory.wf s.mem = true) (hh : h / 1024 = page) :
    SameButPage page s.mem (s.leaveRow h).mem ∧ (s.leaveRow h).lineBad = s.lineBad := by
  unfold State.leaveRow
  split
  · exact ⟨⟨hwf, fun _ _ => rfl⟩, rfl⟩
  · next k p _ =>
    dsimp only
    refine ⟨write_line_sameButPage hwf hh ?_, rfl⟩
    rw [List.length_zipWith, length_cread]
    exact Nat.min_le_left _ _

theorem foldl_leaveRow_sameButPage {page : Nat} (l : List Nat) (s : State) (hwf : Memory.wf s.mem = true) (hl : ∀ h ∈ l, h / 1024 = page) :
    SameButPage page s.mem (l.foldl State.leaveRow s).mem ∧ (l.foldl State.leaveRow s).lineBad = s.lineBad := by
  induction l generalizing s with
  | nil => exact ⟨⟨hwf, fun _ _ => rfl⟩, rfl⟩
  | cons h l ih =>
    obtain ⟨⟨hwf1, hm1⟩, hb1⟩ := leaveRow_sameButPage hwf (hl h List.mem_cons_self)
    obtain ⟨⟨hwf2, hm2⟩, hb2⟩ := ih _ hwf1 fun k hk => hl k (List.mem_cons_of_mem h hk)
    exact ⟨⟨hwf2, fun k hk => (hm2 k hk).trans (hm1 k hk)⟩, hb2.trans hb1⟩

/-- What a zeroed page shows (R332). -/
def PageZeroed (page : Nat) (enc : Bool) (m : List Host.Cell) (v : State) : Prop :=
  (enc = false → ∀ k, k / 65536 = page → cget v.mem k = 0) ∧ (enc = true → ∀ line, line / 1024 = page → tget 0 v.minor line = 0) ∧
  (∀ k, k / 65536 ≠ page → cget v.mem k = cget m k) ∧ (∀ line, line / 1024 = page → tget false v.lineBad line = false)

theorem cget_cclear_page {m : List Host.Cell} {page : Nat} (hwf : Memory.wf m = true) (k : Nat) :
    cget (cclear m (page * 65536) 65536) k = if k / 65536 = page then 0 else cget m k := by
  rw [cget_cclear _ _ _ hwf]
  by_cases hk : k / 65536 = page
  · rw [if_pos hk, if_pos (by omega)]
  · rw [if_neg hk, if_neg (by omega)]

theorem clearPage_zeroed {page : Nat} {enc : Bool} (hwf : Memory.wf s.mem = true) : PageZeroed page enc s.mem (s.clearPage page enc) := by
  cases enc with
  | false =>
    refine ⟨fun _ k hk => ?_, nofun, fun k hk => ?_, fun line hl => tget_tfilter_page hl⟩
    · exact (cget_cclear_page hwf k).trans (if_pos hk)
    · exact (cget_cclear_page hwf k).trans (if_neg hk)
  | true =>
    obtain ⟨⟨_, hm⟩, hb⟩ := foldl_leaveRow_sameButPage ((s.lineKey.filter fun e => e.1 / 1024 == page).map (·.1))
      { s with lineBad := tfilter (fun k _ => k / 1024 != page) s.lineBad } hwf fun h hh => by
        obtain ⟨e, he, rfl⟩ := List.mem_map.1 hh
        exact beq_iff_eq.1 (List.mem_filter.1 he).2
    refine ⟨nofun, fun _ line hl => tget_tfilter_page hl, hm, fun line hl => ?_⟩
    exact (congrArg (tget false · line) hb).trans (tget_tfilter_page hl)

theorem blankPage_zeroed {page : Nat} {enc : Bool} (hwf : Memory.wf s.mem = true) : PageZeroed page enc s.mem (s.blankPage page) :=
  ⟨fun _ k hk => (cget_cclear_page hwf k).trans (if_pos hk), fun _ _ hl => tget_tfilter_page hl,
    fun k hk => (cget_cclear_page hwf k).trans (if_neg hk), fun _ hl => tget_tfilter_page hl⟩

theorem zeroAt_zeroed {site lf : Nat} (hwf : Memory.wf s.mem = true) :
    PageZeroed (stackPage site lf) (s.stackEnc site) s.mem (s.zeroAt site lf) := by
  unfold State.zeroAt
  split
  · exact clearPage_zeroed hwf
  · exact blankPage_zeroed hwf

theorem PageZeroed.bumpStat {page : Nat} {enc : Bool} {m : List Host.Cell} (h : PageZeroed page enc m v) (k n : Nat) :
    PageZeroed page enc m (v.bumpStat k n) := h

theorem zeroRow_eq {ea : W64} {pa n : Nat} {h : Nat × Nat} (hat : s.atStack s.me pa ea = .ok h) (hv : s.zeroRow ea pa n = .ok v) :
    v = (((s.dropPage (pa / 65536)).blocksMet s.me (pa / 65536)).zeroAt h.1 h.2).bumpStat (if s.stackEnc h.1 then 3 else 2) 64 := by
  simp only [State.zeroRow, hat, ok_bind] at hv
  cases hc : s.pageCopies s.me pa true ea with
  | error e =>
    rw [hc] at hv
    nomatch hv
  | ok _ =>
    rw [hc, ok_bind] at hv
    exact (Except.ok.inj hv).symm

end Machine

open Sys2Proof.Machine

/-- Settles O47: the words by their bodies, and the zeroed page through its number at home. -/
theorem rowWordsWithoutResultComplete : Obligations.RowWordsWithoutResultComplete := by
  intro s u q q' v a b r f x y l l' pa n h
  refine ⟨fun hi ha hb ⟨hpops, z, hx, hy⟩ hsp => ⟨fun hrange => ⟨fun hpages htier hfree heach => ?_, fun hpages hfree hf heach => ?_⟩,
    fun hr => ⟨?_, ?_⟩⟩, fun hcop hat hpa => ?_, fun hwf hpa hat hv => ?_⟩
  · refine run_headOf hi (by rw [ha, hb]; rfl) ?_
    simp only [hpops, hx, hy, hsp, hrange, hpages, htier, hfree, heach, ok_bind]
  · have hf : decide (f < 2) = true := decide_eq_true hf
    refine run_headOf hi (by rw [hf, ha, hb]; rfl) ?_
    simp only [hpops, hx, hy, hsp, hrange, hpages, hfree, heach, ok_bind]
  · intro hspz hrz hrx hover hpages htier hfree hcopy
    refine run_headOf hi (sel_and3 hr ha hb) ?_
    simp only [hpops, hx, hy, hspz, hsp, hrz, hrx, hover, need, Bool.not_false, if_true, hpages, htier, hfree, hcopy, ok_bind]
  · intro hx8 hy8 h1 hmax hparts hfree heach
    have hrange : (x.toNat % 8 == 0 && y.toNat % 8 == 0 && decide (1 ≤ y.toNat) && decide (y.toNat ≤ 2 ^ 32)) = true := by
      rw [hx8, hy8, decide_eq_true h1, decide_eq_true hmax]
      rfl
    refine run_headOf hi (sel_and3 hr ha hb) ?_
    simp only [hpops, hx, hy, hsp, hrange, need, if_true, hparts, hfree, heach, ok_bind]
  · have hmap : (s.atStack s.me pa x).map (fun _ => s) = .ok s := by
      rw [hat]
      rfl
    simp only [State.invRow, if_neg (Nat.not_le.2 hpa), hmap, hcop, ok_bind, beq_iff_eq]
  · intro page
    have hpage : page = stackPage h.1 h.2 := homePage_eq hpa hat
    have hstore := (sameStore_dropPage s (pa / 65536)).trans (sameStore_blocksMet (s.dropPage (pa / 65536)) s.me (pa / 65536))
    have henc := hstore.stackEnc h.1
    obtain ⟨hmem, _⟩ := hstore
    obtain rfl := zeroRow_eq hat hv
    have hzero := zeroAt_zeroed (s := (s.dropPage (pa / 65536)).blocksMet s.me (pa / 65536)) (site := h.1) (lf := h.2) (by rw [hmem]; exact hwf)
    rw [henc, hmem, ← hpage] at hzero
    exact hzero.bumpStat _ _

end Sys2Proof

/-! SUPPORT. The row words with a result (R334, R336 to R341). -/

namespace Sys2Proof

namespace Machine

variable {s u : State} {d : Bool} {r a b : BitVec 6}

/-- The head of a row word with a result. -/
theorem rowHeadR_ok {extra : Bool} (hd : s.destOk r = true) (ha : s.srcOk a = true) (hb : s.srcOk b = true) (he : extra = true) :
    (s.destOk r && s.srcOk a && s.srcOk b && extra) = true := by
  rw [hd, ha, hb, he]
  rfl

theorem srcOk_62 (s : State) : s.srcOk 62 = true := rfl

/-- A migration that changed nothing gives its status (R341). -/
theorem lateResult_ok {x v : W64} {z : State} (h : s.src a = .ok (x, z)) : s.lateResult d r a v = .ok (z.put d r v).goOn := by
  simp only [State.lateResult, h, ok_bind]

theorem me_c (s : State) : s.me.c = s.cur := by
  simp only [State.me, State.who, whoOf]
  split <;> rfl

/-- Two conditions of which both hold or neither. -/
theorem decide_beq_iff {p : Prop} [Decidable p] {f g : BitVec 3} : (decide p == (f == g)) = true ↔ (p ↔ f = g) := by
  by_cases hp : p <;> by_cases hf : f = g <;> simp [hp, hf]

end Machine

open Sys2Proof.Machine

/-- Settles O48: each word by its body; `MMIG` by the state of its migration. -/
theorem rowWordsWithResultComplete : Obligations.RowWordsWithResultComplete := by
  intro s u q v w d r a b f x y l h e bs lf lf₀ m hi hd hroom
  refine ⟨fun hf => run_headOf hi (by rw [decide_eq_true (show f < 5 from hf), hd]; rfl) (frameV_ok hroom),
    fun ha ⟨hpops, hx⟩ hsp => ⟨fun hparts hfree => ?_, fun hrange hpages htier hfree => ?_⟩,
    fun ha hb ⟨hpops, z, hx, hy⟩ hsp => ⟨fun hrange hpages htier hfree => ⟨fun heach => ?_, fun hscrub => ?_⟩, fun hf h1 hmax h4 => ?_⟩,
    fun hf ha ⟨hpops, hx⟩ => ?_⟩
  · intro pa
    have hl := rowHeadR_ok hd ha (srcOk_62 s) rfl
    refine ⟨fun hfar => ?_, fun n lf hpa hhome hat => ?_, fun hpa hhome => ?_⟩
    · refine run_headOf hi hl ?_
      simp only [hpops, hroom, hx, hsp, hparts, hfree, ok_bind]
      exact if_pos hfar
    · refine run_headOf hi hl ?_
      simp only [hpops, hroom, hx, hsp, hparts, hfree, ok_bind]
      refine (if_neg (Nat.not_le.2 hpa)).trans ?_
      have hhome : q.homeOf q.me.c.site q.me.fold ((l.map (·.2.1)).headD 0) = some (n, lf) := hhome
      have hat : q.atStack q.me ((l.map (·.2.1)).headD 0) x = .ok h := hat
      simp only [hhome, hat, ok_bind]
    · refine run_headOf hi hl ?_
      simp only [hpops, hroom, hx, hsp, hparts, hfree, ok_bind]
      refine (if_neg (Nat.not_le.2 hpa)).trans ?_
      have hhome : q.homeOf q.me.c.site q.me.fold ((l.map (·.2.1)).headD 0) = none := hhome
      simp only [hhome]
  · intro pa hat hcop c
    have hat : q.atStack q.me ((l.map (·.2.1)).headD 0) x = .ok h := hat
    have hcop : q.pageCopies q.me ((l.map (·.2.1)).headD 0) true x = .ok () := hcop
    refine run_headOf hi (rowHeadR_ok hd ha (srcOk_62 s) rfl) ?_
    simp only [hpops, hroom, hx, hsp, hrange, hpages, htier, hfree, hat, hcop, ok_bind]
    rfl
  · refine run_headOf hi (rowHeadR_ok hd ha hb rfl) ?_
    simp only [hpops, hroom, hx, hy, hsp, hrange, hpages, htier, hfree, heach, ok_bind]
  · refine run_headOf hi (rowHeadR_ok hd ha hb rfl) ?_
    simp only [hpops, hroom, hx, hy, hsp, hrange, hpages, htier, hfree, hscrub, ok_bind]
  · intro size hparts hfree hread
    have hcount : (decide (1 ≤ y.toNat) && decide (y.toNat ≤ 2 ^ 20)) = true := by
      rw [decide_eq_true h1, decide_eq_true hmax]
      rfl
    have halign : (x.toNat % 4 == 0) = true := beq_iff_eq.2 h4
    refine run_headOf hi (rowHeadR_ok hd ha hb (decide_eq_true hf)) ?_
    simp only [size, ← beq_iff_eq (a := f)] at hparts hread ⊢
    simp only [hpops, hroom, hx, hy, hsp, hcount, halign, need, if_true, hparts, hfree, hread, ok_bind]
  · intro key mine
    have hl := rowHeadR_ok (extra := decide (f < 2)) hd ha (srcOk_62 s) (decide_eq_true hf)
    refine ⟨fun hmine hsp hrange hpart hleaf hpages hleaf' hfree hway => ?_, fun hmine hack hend hsrc => ?_⟩
    · have hmine : (s.migrate.find? fun m => m.core == s.cur) = none := hmine
      have hway : lf.2.2.twoWay s.me.c.site migSite = true := by rw [me_c]; exact hway
      intro pa no
      refine ⟨fun hcase z hz => ?_, fun hcase => ⟨fun hpop z hz => ?_, fun new hpop hstart => ?_⟩⟩
      · have hcond : (decide (farBase ≤ (l.map (·.2.1)).headD 0) == (f == 0)) = true := decide_beq_iff.2 hcase
        refine run_headOf hi hl ?_
        simp only [hpops, hroom, hx, hmine, hsp, hrange, hpart, need, if_true, hleaf, hpages, hleaf', hfree, hway, hcond, ok_bind]
        exact lateResult_ok hz
      · have hcond : (decide (farBase ≤ (l.map (·.2.1)).headD 0) == (f == 0)) = false :=
          Bool.eq_false_iff.2 (mt decide_beq_iff.1 hcase)
        have hpop : lf.2.2.popFrame s.me (poolKey (s.me.fold.getD 0) (f == 0)) x = .ok (none, v) := hpop
        refine run_headOf hi hl ?_
        simp only [hpops, hroom, hx, hmine, hsp, hrange, hpart, need, if_true, hleaf, hpages, hleaf', hfree, hway, hcond, hpop, ok_bind,
          Bool.false_eq_true, if_false]
        exact lateResult_ok hz
      · have hcond : (decide (farBase ≤ (l.map (·.2.1)).headD 0) == (f == 0)) = false :=
          Bool.eq_false_iff.2 (mt decide_beq_iff.1 hcase)
        have hpop : lf.2.2.popFrame s.me (poolKey (s.me.fold.getD 0) (f == 0)) x = .ok (some new, v) := hpop
        have hstart : v.migStart s.me x lf.1 lf.2.1 ((l.map (·.2.1)).headD 0) new = .ok w := hstart
        refine run_held (h := headOf .X _) (d := { w.goOn with held := some .stall }) hi hl nofun ?_ rfl
        simp only [hpops, hroom, hx, hmine, hsp, hrange, hpart, need, if_true, hleaf, hpages, hleaf', hfree, hway, hcond, hpop, ok_bind,
          Bool.false_eq_true, if_false, hstart]
    · have hmine : (s.migrate.find? fun m => m.core == s.cur) = some m := hmine
      have hend : s.migEnd s.me (poolKey (s.me.fold.getD 0) (!f == 0)) x m = .ok v := hend
      refine run_headOf hi hl ?_
      obtain hack | hack := hack
      all_goals
        simp only [hpops, hroom, hx, hmine, hack, needWait, if_true, ok_bind, hend]
        exact lateResult_ok hsrc

end Sys2Proof

/-! SUPPORT. What the memory system does beyond a core's L1 and in it (R182, R293 to R296, R321 to R328, R350 to R356): the current core and
strand stay, every core is as it was but for its L1 and the counters of its team (R340), and the memories stay canonical. -/

namespace Sys2Proof

namespace Machine

/-- A core without its L1 and its team's counters. -/
def CoreSt.bare (k : CoreSt) : CoreSt := { k with l1 := [], team := { k.team with mstat := [] } }

/-- The parts of a die that are memories. -/
def Die.stores (d : Die) : Tab Cluster × List Host.Cell := (d.clusters, d.dsp)

/-- A drover without the teams that it keeps away, whose counters alone the memory system changes. -/
def Drover.bare (d : Drover) : Drover := { d with away := [] }

/-- What the memory system leaves as it is. -/
structure Below (s v : State) : Prop where
  cur : v.cur = s.cur
  strand : v.strand = s.strand
  cores : ∀ c, (v.core c).bare = (s.core c).bare
  drovers : ∀ d, (v.drv d).bare = (s.drv d).bare
  memWf : s.memWf → v.memWf

variable {s u v : State} {w : Who} {ea : W64}

namespace Below

theorem refl (s : State) : Below s s := ⟨rfl, rfl, fun _ => rfl, fun _ => rfl, id⟩

theorem trans (h1 : Below s u) (h2 : Below u v) : Below s v :=
  ⟨h2.cur.trans h1.cur, h2.strand.trans h1.strand, fun c => (h2.cores c).trans (h1.cores c),
    fun d => (h2.drovers d).trans (h1.drovers d), h2.memWf ∘ h1.memWf⟩

end Below

/-- A state that differs at most in memory, and there stays canonical. -/
theorem below_of_mem (hcur : v.cur = s.cur) (hstrand : v.strand = s.strand) (hcores : v.cores = s.cores) (hdies : v.dies = s.dies)
    (hdrovers : v.drovers = s.drovers) (hmgmt : v.mgmt = s.mgmt) (hhost : v.hostMem = s.hostMem) (hpeer : v.peerMem = s.peerMem)
    (hmem : Memory.wf s.mem = true → Memory.wf v.mem = true) : Below s v := by
  refine ⟨hcur, hstrand, fun c => by rw [State.core, State.core, hcores],
    fun d => by rw [State.drv, State.drv, hdrovers], fun h => ?_⟩
  obtain ⟨h1, h2, h3, h4, h5, h6, h7, h8, h9⟩ := h
  refine ⟨hmem h1, hhost ▸ h2, hpeer ▸ h3, fun st cl => ?_, fun st => ?_, fun d => ?_, hmgmt ▸ h7, hmgmt ▸ h8, hmgmt ▸ h9⟩
  · rw [State.cluster, State.die, hdies]
    exact h4 st cl
  · rw [State.die, hdies]
    exact h5 st
  · rw [State.drv, hdrovers]
    exact h6 d

/-- A die changed that keeps its memories. -/
theorem below_setDie (s : State) {n : Nat} {d : Die} (hd : d.stores = (s.die n).stores) : Below s (s.setDie n d) := by
  have hsame (x : Nat) : ((s.setDie n d).die x).stores = (s.die x).stores := die_setDie_part Die.stores hd x
  refine ⟨rfl, rfl, fun _ => rfl, fun _ => rfl, fun ⟨h1, h2, h3, h4, h5, h6, h7, h8, h9⟩ => ⟨h1, h2, h3, fun st cl => ?_, fun st => ?_, h6, h7, h8, h9⟩⟩
  · have hc : ((s.setDie n d).die st).clusters = (s.die st).clusters := congrArg Prod.fst (hsame st)
    rw [State.cluster, hc]
    exact h4 st cl
  · have hc : ((s.setDie n d).die st).dsp = (s.die st).dsp := congrArg Prod.snd (hsame st)
    rw [hc]
    exact h5 st

/-- A core changed that keeps what is not its L1. -/
theorem below_setCore (s : State) {c : CoreId} {k : CoreSt} (hk : k.bare = (s.core c).bare) : Below s (s.setCore c k) :=
  ⟨rfl, rfl, core_setCore_part CoreSt.bare hk, fun _ => rfl, id⟩

/-- The result of a step that is right in each case. -/
theorem below_ite {c : Prop} [Decidable c] (hu : Below s u) (hv : Below s v) : Below s (if c then u else v) := by
  split
  · exact hu
  · exact hv

/-! ### Pages and lines at home -/

theorem stores_takeFrame {d : Die} {r : Nat × Die} (h : takeFrame d = some r) : r.2.stores = d.stores := by
  unfold takeFrame at h
  split at h
  · cases h; rfl
  · split at h
    · cases h; rfl
    · cases h

theorem stores_expandFrame {d e : Die} {lf : Nat} (h : expandFrame d lf = some e) : e.stores = d.stores := by
  unfold expandFrame at h
  split at h
  · cases h; rfl
  · obtain ⟨r, hr, rfl⟩ := Option.map_eq_some_iff.1 h
    exact stores_takeFrame hr

theorem below_spoilBlock (s : State) (b : Nat) : Below s (s.spoilBlock b) := by
  unfold State.spoilBlock
  exact below_of_mem rfl rfl rfl rfl rfl rfl rfl rfl id

theorem below_spoilPage (s : State) (site lf page : Nat) : Below s (s.spoilPage site lf page) := by
  unfold State.spoilPage
  generalize List.range 1024 = lines
  have h1 : Below s { s with lineBad := lines.foldl (fun t k => tset t (page * 1024 + k) true) s.lineBad,
                             latent := tfilter (fun k _ => k / 1024 != page) s.latent } := below_of_mem rfl rfl rfl rfl rfl rfl rfl rfl id
  dsimp only
  split
  · next hd => exact h1.trans (below_setDie _ (stores_expandFrame hd))
  · exact h1

theorem below_latent (s : State) (t : Tab Nat) : Below s { s with latent := t } := below_of_mem rfl rfl rfl rfl rfl rfl rfl rfl id

theorem below_lineKey (s : State) (t : Tab (BitVec 256 × Nat)) : Below s { s with lineKey := t } :=
  below_of_mem rfl rfl rfl rfl rfl rfl rfl rfl id

theorem stores_logError (d : Die) (kind pa ns : Nat) : (logError d kind pa ns).stores = d.stores := rfl

/-- A line logged at the die that is its home. -/
theorem below_log (s : State) (d : Option Nat) (kind pa : Nat) : Below s (match d with
    | some d => s.setDie d (logError (s.die d) kind pa (s.nsAt d).toNat)
    | none => s) := by
  cases d with
  | none => exact .refl s
  | some d => exact below_setDie s rfl

theorem below_markLine (s : State) (w : Who) (line kind : Nat) : Below s (s.markLine w line kind) := by
  unfold State.markLine
  dsimp only
  refine Below.trans ?_ (below_log _ _ _ _)
  split
  · split
    · exact below_spoilPage ..
    · exact .refl s
  · split
    · exact below_spoilBlock ..
    · exact below_of_mem rfl rfl rfl rfl rfl rfl rfl rfl id

theorem bare_countPage (k : CoreSt) (w : Who) : ({ k with team := k.team.countPage w } : CoreSt).bare = k.bare := by
  unfold TeamSt.countPage
  split
  · rfl
  · rfl

theorem below_expanded (s : State) (w : Who) : Below s (s.expanded w) := by
  obtain h | h := expanded_cases s w
  · rw [h]
    exact .refl s
  · rw [h]
    refine ⟨rfl, rfl, fun c => ?_, fun d => ?_, fun ⟨h1, h2, h3, h4, h5, h6, h7, h8, h9⟩ => ⟨h1, h2, h3, h4, h5, fun d => ?_, h7, h8, h9⟩⟩
    · exact tget_tmap_part (g := CoreSt.bare) (f := fun _ (k : CoreSt) => { k with team := k.team.countPage w })
        (fun _ k => bare_countPage k w) ..
    · exact tget_tmap_part (g := Drover.bare)
        (f := fun _ (d : Drover) => { d with away := d.away.map fun (a : Away) => a.countPage w }) (fun _ _ => rfl) ..
    · rw [State.drv, tget_tmap_part (g := Drover.gmem)
        (f := fun _ (d : Drover) => { d with away := d.away.map fun (a : Away) => a.countPage w }) (fun _ _ => rfl)]
      exact h6 d

theorem below_blankPage (s : State) (page : Nat) : Below s (s.blankPage page) := by
  unfold State.blankPage
  exact below_of_mem rfl rfl rfl rfl rfl rfl rfl rfl (wf_cclear _ _)

theorem below_makeResident {site lf pa : Nat} (h : s.makeResident w site lf pa ea = .ok v) : Below s v := by
  unfold State.makeResident at h
  dsimp only at h
  split at h
  · cases h; exact .refl s
  · split at h
    · cases h
    · next hexp =>
      have h := ok_of_ite_error h
      cases h
      refine Below.trans ?_ (below_expanded _ w)
      split
      · exact (below_blankPage s _).trans (below_setDie _ (stores_expandFrame hexp))
      · exact below_setDie s (stores_expandFrame hexp)

theorem below_reachHome {pa : Nat} (h : s.reachHome w pa ea = .ok v) : Below s v := by
  unfold State.reachHome at h
  split at h
  · cases he : s.extentOf pa with
    | none =>
      rw [he] at h
      cases h
    | some e =>
      rw [he] at h
      obtain ⟨_, _, rfl⟩ := ok_of_map (ok_of_ite_error (ok_of_ite_error h))
      exact .refl s
  · obtain ⟨_, _, hres⟩ := ok_of_bind h
    exact below_makeResident hres

theorem below_homeRead {line : Nat} {r : List Byte × State} (h : s.homeRead w line ea = .ok r) : Below s r.2 := by
  unfold State.homeRead at h
  have h := ok_of_ite_error (ok_of_ite_error h)
  split at h
  · cases h; exact .refl s
  · have h := ok_of_ite_error (ok_of_ite_error h)
    split at h
    · cases h
      dsimp only
      split
      · exact Below.trans (below_latent s _) (below_setDie _ (stores_logError ..))
      · exact below_latent s _
    · cases h; exact .refl s

theorem below_foldl {α : Type} {f : State → α → State} (hf : ∀ s a, Below s (f s a)) (l : List α) (s : State) : Below s (l.foldl f s) := by
  induction l generalizing s with
  | nil => exact .refl s
  | cons a l ih => exact (hf s a).trans (ih _)

theorem below_homeOpen {line : Nat} (h : s.homeOpen w line ea = .ok v) : Below s v := by
  unfold State.homeOpen at h
  split at h
  · next hr =>
    cases h
    exact below_homeRead hr
  · cases h
  · split at h
    · cases h
      exact below_foldl (f := fun u (e : Bad) => u.markLine e.who e.line e.kind) (fun s e => below_markLine s e.who e.line e.kind) _ s
    · cases h

theorem below_bumpMinor (s : State) (line : Nat) : Below s (s.bumpMinor line) := by
  unfold State.bumpMinor
  generalize List.range 64 = lines
  dsimp only
  refine below_ite (below_of_mem rfl rfl rfl rfl rfl rfl rfl rfl id) (below_ite ?_ ?_)
  · exact below_of_mem rfl rfl rfl rfl rfl rfl rfl rfl id
  · exact below_of_mem rfl rfl rfl rfl rfl rfl rfl rfl id

theorem below_homeWrite (s : State) (w : Who) (pa : Nat) (data : List Byte) : Below s (s.homeWrite w pa data) := by
  unfold State.homeWrite
  dsimp only
  have h0 : Below s (if s.treeFails w (pa / 64) = true then s.markLine w (pa / 64) 4 else s) :=
    below_ite (below_markLine ..) (.refl s)
  refine h0.trans ?_
  generalize (if s.treeFails w (pa / 64) = true then s.markLine w (pa / 64) 4 else s) = s0
  split
  · exact below_of_mem rfl rfl rfl rfl rfl rfl rfl rfl (wf_cwrite _ _)
  · split
    · exact below_of_mem rfl rfl rfl rfl rfl rfl rfl rfl (wf_cwrite _ _)
    · refine Below.trans ?_ (below_lineKey _ _)
      refine Below.trans ?_ (below_bumpMinor _ _)
      exact below_of_mem rfl rfl rfl rfl rfl rfl rfl rfl (wf_cwrite _ _)

/-! ### The L2 of a die -/

theorem below_setPiece (s : State) (site p : Nat) (x : Piece) : Below s (s.setPiece site p x) := below_setDie s rfl

theorem below_dropPiece (s : State) (site p : Nat) : Below s (s.dropPiece site p) := below_setDie s rfl

theorem below_lineBad (s : State) (t : Tab Bool) : Below s { s with lineBad := t } := below_of_mem rfl rfl rfl rfl rfl rfl rfl rfl id

theorem below_pieceHome (s : State) (site p : Nat) : Below s (s.pieceHome site p) := by
  unfold State.pieceHome
  split
  · next x _ =>
    refine below_ite ?_ (.refl s)
    refine Below.trans (below_homeWrite s (dieWho site) (p * 64) x.bytes) (Below.trans ?_ (below_setPiece _ _ _ _))
    exact below_ite (below_lineBad _ _) (.refl _)
  · exact .refl s

theorem below_pieceLeave (s : State) (site p : Nat) : Below s (s.pieceLeave site p) :=
  (below_pieceHome s site p).trans (below_ite (.refl _) (below_dropPiece ..))

theorem below_recallAll (s : State) (p : Nat) (l : List Nat) : Below s (s.recallAll p l) := by
  induction l generalizing s with
  | nil => exact .refl s
  | cons h l ih => exact (below_pieceHome s h p).trans (ih _)

theorem below_dropAll (s : State) (p : Nat) (l : List Nat) : Below s (s.dropAll p l) := by
  induction l generalizing s with
  | nil => exact .refl s
  | cons h l ih => exact (below_dropPiece s h p).trans (ih _)

theorem below_recallInv (s : State) (p : Nat) : Below s (s.recallInv p) := (below_recallAll ..).trans (below_dropAll ..)

theorem below_evictGranule (s : State) (site g : Nat) : Below s (s.evictGranule site g) := by
  unfold State.evictGranule
  generalize List.range 32 = pieces
  exact (below_foldl (fun s k => below_pieceLeave s site (g * 32 + k)) pieces s).trans (below_ite (.refl _) (below_setDie _ rfl))

theorem below_touchGranule (s : State) (site g : Nat) : Below s (s.touchGranule site g) := by
  unfold State.touchGranule
  dsimp only
  refine Below.trans ?_ (below_setDie _ rfl)
  split
  · split
    · exact below_evictGranule ..
    · exact .refl s
  · exact .refl s

theorem below_l2Read {site p : Nat} {r : List Byte × State} (h : s.l2Read w site p ea = .ok r) : Below s r.2 := by
  unfold State.l2Read at h
  split at h
  · obtain ⟨_, _, h⟩ := ok_of_bind h
    obtain ⟨_, _, h⟩ := ok_of_bind h
    cases h
    exact below_touchGranule ..
  · obtain ⟨s1, h1, h⟩ := ok_of_bind h
    obtain ⟨_, _, h⟩ := ok_of_bind h
    obtain ⟨x, hx, h⟩ := ok_of_bind h
    cases h
    exact (below_reachHome h1).trans ((below_recallAll ..).trans ((below_homeRead hx).trans
      ((below_touchGranule ..).trans (below_setPiece ..))))

theorem below_l2Own {site p : Nat} {full : Bool} (h : s.l2Own w site p full ea = .ok v) : Below s v := by
  unfold State.l2Own at h
  split at h
  · obtain ⟨_, _, h⟩ := ok_of_bind h
    dsimp only at h
    split at h
    · cases h
      exact (below_dropAll ..).trans (below_touchGranule ..)
    · obtain ⟨s1, h1, h⟩ := ok_of_bind h
      obtain ⟨_, _, h⟩ := ok_of_bind h
      cases h
      exact (below_reachHome h1).trans ((below_dropAll ..).trans (below_touchGranule ..))
  · obtain ⟨s1, h1, h⟩ := ok_of_bind h
    obtain ⟨_, _, h⟩ := ok_of_bind h
    have h1 := (below_reachHome h1).trans (below_recallInv s1 p)
    dsimp only at h
    split at h
    · cases h
      exact h1.trans ((below_touchGranule _ site (p / 32)).trans (below_setPiece ..))
    · obtain ⟨s3, h3, h⟩ := ok_of_bind h
      cases h
      exact h1.trans ((below_homeOpen h3).trans ((below_touchGranule s3 site (p / 32)).trans (below_setPiece ..)))

theorem below_cohRead {lvl : Lvl} {a n : Nat} {r : List Byte × State} (h : s.cohRead w lvl a n ea = .ok r) : Below s r.2 := by
  unfold State.cohRead at h
  dsimp only at h
  split at h
  · obtain ⟨x, hx, h⟩ := ok_of_bind h
    have hx := below_l2Read hx
    cases h
    exact hx
  · obtain ⟨s1, h1, h⟩ := ok_of_bind h
    obtain ⟨_, _, h⟩ := ok_of_bind h
    obtain ⟨x, hx, h⟩ := ok_of_bind h
    have hx := below_homeRead hx
    cases h
    exact (below_reachHome h1).trans ((below_recallInv ..).trans hx)

theorem below_cohWrite {lvl : Lvl} {a : Nat} {data : List Byte} (h : s.cohWrite w lvl a data ea = .ok v) : Below s v := by
  unfold State.cohWrite at h
  dsimp only at h
  split at h
  · obtain ⟨s1, h1, h⟩ := ok_of_bind h
    have h1 := below_l2Own h1
    split at h
    · cases h
      exact h1.trans (below_setPiece ..)
    · cases h
      exact h1
  · obtain ⟨s1, h1, h⟩ := ok_of_bind h
    obtain ⟨_, _, h⟩ := ok_of_bind h
    have h1 := (below_reachHome h1).trans (below_recallInv s1 (s.forward a / 64))
    split at h
    · cases h
      exact h1.trans (below_homeWrite ..)
    · obtain ⟨s3, h3, h⟩ := ok_of_bind h
      cases h
      exact h1.trans ((below_homeOpen h3).trans (below_homeWrite ..))

theorem below_orD (s : State) (w : Who) (a : Nat) : Below s (s.orD w a) := by
  unfold State.orD
  dsimp only
  split
  · next h =>
    obtain ⟨r, hr, h⟩ := ok_of_bind h
    exact (below_cohRead hr).trans (below_cohWrite h)
  · exact .refl s

theorem below_markBad (s : State) (l : List Bad) : Below s (s.markBad l) := by
  induction l generalizing s with
  | nil => exact .refl s
  | cons b l ih => exact (below_ite (below_orD ..) (below_markLine ..)).trans (ih _)

/-! ### The L1 of a core -/

theorem below_writeRuns {line : Nat} {l : List (Nat × List Byte)} (h : s.writeRuns w line l = .ok v) : Below s v := by
  induction l generalizing s with
  | nil => cases h; exact .refl v
  | cons e l ih =>
    unfold State.writeRuns at h
    split at h
    · next hw => exact (below_cohWrite hw).trans (ih h)
    · cases h
    · next f _ => exact (below_markBad _ f.bad).trans (ih h)

theorem below_cleanLine (s : State) (w : Who) (line : Nat) : Below s (s.cleanLine w line) := by
  unfold State.cleanLine
  split
  · exact .refl s
  · next hw => exact (below_writeRuns hw).trans (below_setCore _ rfl)

theorem below_l1Clean (s : State) (w : Who) (id : Nat) : Below s (s.l1Clean w id) := by
  unfold State.l1Clean
  split
  · exact .refl s
  · exact below_cleanLine ..

theorem below_l1Drop (s : State) (c : CoreId) (id : Nat) : Below s (s.l1Drop c id) := below_setCore s rfl

theorem below_l1Leave (s : State) (w : Who) (id : Nat) : Below s (s.l1Leave w id) := by
  unfold State.l1Leave
  refine (below_l1Clean s w id).trans ?_
  dsimp only
  split
  · exact .refl _
  · exact below_ite (.refl _) (below_ite (below_l1Drop ..) (below_setCore _ rfl))

theorem below_l1Unlock (s : State) (w : Who) (id : Nat) : Below s (s.l1Unlock w id) := by
  unfold State.l1Unlock
  split
  · exact .refl s
  · dsimp only
    refine Below.trans ?_ (below_ite (below_l1Leave ..) (.refl _))
    exact below_setCore s rfl

theorem below_l1UnlockAll (s : State) (w : Who) (l : List Nat) : Below s (s.l1UnlockAll w l) := by
  induction l generalizing s with
  | nil => exact .refl s
  | cons id l ih => exact (below_l1Unlock s w id).trans (ih _)

end Machine

end Sys2Proof

/-! SUPPORT. What reading operands and writing a result leave unchanged (R23, R27 to R29, R99, R183, R196). -/

namespace Sys2Proof

namespace Machine

variable {s u v : State}

/-! ### The registers and predicates of the running core -/

/-- The same core and strand run, and its registers and predicates are as before. -/
structure SameFiles (s v : State) : Prop where
  cur : v.cur = s.cur
  strand : v.strand = s.strand
  regs : ∀ σ, (v.tm.str σ).regs = (s.tm.str σ).regs
  preds : ∀ σ, (v.tm.str σ).preds = (s.tm.str σ).preds
  vregs : v.tm.vregs = s.tm.vregs

theorem SameFiles.refl (s : State) : SameFiles s s := ⟨rfl, rfl, fun _ => rfl, fun _ => rfl, rfl⟩

theorem SameFiles.trans (h1 : SameFiles s u) (h2 : SameFiles u v) : SameFiles s v :=
  ⟨h2.cur.trans h1.cur, h2.strand.trans h1.strand, fun σ => (h2.regs σ).trans (h1.regs σ), fun σ => (h2.preds σ).trans (h1.preds σ),
    h2.vregs.trans h1.vregs⟩

theorem SameFiles.vecX (h : SameFiles s v) : v.vecX = s.vecX := by
  rw [State.vecX, State.vecX, State.cls, State.cls, h.cur, h.strand]

/-- What was so of the registers before a change that leaves them is so after it, and the other way round. -/
theorem SameRegs.within {w : Bool} {r : Nat} {t : State} (h1 : SameFiles s u) (h : SameRegs u v w r) (h2 : SameFiles v t) :
    SameRegs s t w r := by
  obtain ⟨hr, hv⟩ := h
  rw [h1.strand] at hr
  rw [h1.vecX] at hv
  refine ⟨fun σ k hk => ?_, fun k hk => ?_⟩
  · rw [h2.regs, hr σ k hk, h1.regs]
  · rw [h2.vregs, hv k hk, h1.vregs]

theorem SamePreds.within {w : Bool} {p : Nat} {t : State} (h1 : SameFiles s u) (h : SamePreds u v w p) (h2 : SameFiles v t) :
    SamePreds s t w p := fun σ k hk => by rw [h2.preds, h σ k (h1.strand ▸ hk), h1.preds]

theorem SameFiles.sameRegs (h : SameFiles s v) (w : Bool) (r : Nat) : SameRegs s v w r :=
  ⟨fun σ k _ => by rw [h.regs], fun k _ => by rw [h.vregs]⟩

theorem SameFiles.samePreds (h : SameFiles s v) (w : Bool) (p : Nat) : SamePreds s v w p := fun σ k _ => by rw [h.preds]

/-- A team changed whose strands keep their registers. -/
theorem sameFiles_setTm (s : State) {t : TeamSt} (hr : ∀ σ, (t.str σ).regs = (s.tm.str σ).regs)
    (hp : ∀ σ, (t.str σ).preds = (s.tm.str σ).preds) (hv : t.vregs = s.tm.vregs) : SameFiles s (s.setTm t) :=
  ⟨rfl, rfl, by rw [tm_setTm]; exact hr, by rw [tm_setTm]; exact hp, by rw [tm_setTm]; exact hv⟩

/-- A team changed that keeps its strands and vector registers. -/
theorem sameFiles_setTm_of_str (s : State) {t : TeamSt} (hs : t.str = s.tm.str) (hv : t.vregs = s.tm.vregs) : SameFiles s (s.setTm t) :=
  sameFiles_setTm s (fun σ => by rw [hs]) (fun σ => by rw [hs]) hv

theorem str_setSt_of_part {β : Type} (g : StrandSt → β) (s : State) {x : StrandSt} (h : g x = g s.st) (σ : Strand) :
    g ((s.tm.setStr s.strand x).str σ) = g (s.tm.str σ) := by
  by_cases hσ : σ = s.strand
  · rw [hσ, str_setStr, h, State.st]
  · rw [str_setStr_ne _ _ hσ]

theorem vregs_setStr (t : TeamSt) (σ : Strand) (x : StrandSt) : (t.setStr σ x).vregs = t.vregs := by cases σ <;> rfl

theorem sameFiles_setSt (s : State) {x : StrandSt} (hr : x.regs = s.st.regs) (hp : x.preds = s.st.preds) : SameFiles s (s.setSt x) :=
  sameFiles_setTm s (str_setSt_of_part StrandSt.regs s hr) (str_setSt_of_part StrandSt.preds s hp) (vregs_setStr ..)

/-- Cores that differ at most in what the memory system changes of them have the same registers and predicates. -/
theorem sameFiles_of_below (h : Below s v) : SameFiles s v := by
  have hk : (v.core v.cur).bare = (s.core s.cur).bare := by rw [h.cur]; exact h.cores _
  have hs (σ : Strand) : v.tm.str σ = s.tm.str σ := by
    have hσ := congrArg (fun k : CoreSt => k.team.str σ) hk
    cases σ <;> exact hσ
  have hv := congrArg (fun k : CoreSt => k.team.vregs) hk
  exact ⟨h.cur, h.strand, fun σ => by rw [hs], fun σ => by rw [hs], hv⟩

/-! ### The special registers, the L1 and what else a word's result leaves -/

/-- The special registers of a team, with its brands, masks, tiles, accumulators, copies and counters. -/
def TeamSt.special (t : TeamSt) :=
  (t.slip, t.fmtctl, t.locsz, t.waitth, t.serr, t.serra, t.brands, t.masks, t.amask, t.tiles, t.ix0, t.ix1, t.ix2, t.bank, t.kind,
    t.board, t.mstat)

/-- The exception and configuration registers of a core, with its L1, its planes and the special registers of its team. -/
def CoreSt.special (k : CoreSt) :=
  (k.ecause, k.epc, k.eaddr, k.evec, k.pendsel, k.waitmax, k.asideL, k.asideS, k.asideM, k.asideO, k.l1, k.active, k.shadow, k.halted,
    k.team.special)

/-- The running core differs, but for its special registers, and nothing else does. -/
def SameBut (s v : State) : Prop := v = s ∨ ∃ k, v = s.setCore s.cur k ∧ k.special = (s.core s.cur).special

theorem SameBut.trans (h1 : SameBut s u) (h2 : SameBut u v) : SameBut s v := by
  obtain rfl | ⟨k, rfl, hk⟩ := h1
  · exact h2
  obtain rfl | ⟨j, rfl, hj⟩ := h2
  · exact .inr ⟨k, rfl, hk⟩
  rw [setCore_cur, core_setCore] at hj
  exact .inr ⟨j, by rw [setCore_cur, setCore_setCore], hj.trans hk⟩

theorem sameBut_setTm (s : State) {t : TeamSt} (h : t.special = s.tm.special) : SameBut s (s.setTm t) := by
  refine .inr ⟨_, rfl, ?_⟩
  unfold CoreSt.special
  rw [h]
  rfl

theorem special_setStr (t : TeamSt) (σ : Strand) (x : StrandSt) : (t.setStr σ x).special = t.special := by cases σ <;> rfl

theorem special_setQ (t : TeamSt) (q : QName) (l : List QEnt) : (t.setQ q l).special = t.special := by cases q <;> rfl

theorem sameBut_setSt (s : State) (x : StrandSt) : SameBut s (s.setSt x) := sameBut_setTm s (special_setStr ..)

theorem SameBut.sameMemory (h : SameBut s v) : SameMemory s v := by
  obtain rfl | ⟨k, rfl, hk⟩ := h
  · exact fun _ => rfl
  have hl : k.l1 = (s.core s.cur).l1 := congrArg (fun x => x.2.2.2.2.2.2.2.2.2.2.1) hk
  intro p
  cases p with
  | l1 c id k =>
    unfold State.byte
    dsimp only
    rw [core_setCore_part CoreSt.l1 hl]
  | _ => rfl

theorem SameBut.sameElsewhere (h : SameBut s v) : SameElsewhere s v := by
  obtain rfl | ⟨k, rfl, -⟩ := h
  · exact ⟨rfl, rfl, rfl, rfl, rfl, rfl, rfl, rfl, rfl, rfl, rfl, rfl, rfl, rfl, rfl, rfl, rfl, fun _ _ => rfl⟩
  exact ⟨rfl, rfl, rfl, rfl, rfl, rfl, rfl, rfl, rfl, rfl, rfl, rfl, rfl, rfl, rfl, rfl, rfl, fun c hc => core_setCore_ne s k hc⟩

theorem SameBut.sameSpecial (h : SameBut s v) : SameSpecial s v := by
  have hk : (v.core s.cur).special = (s.core s.cur).special := by
    obtain rfl | ⟨k, rfl, hk⟩ := h
    · rfl
    · rw [core_setCore, hk]
  unfold SameSpecial
  simpa only [CoreSt.special, TeamSt.special, Prod.mk.injEq, and_assoc] using hk

/-! ### Reading an operand -/

/-- No entry of `dq` locks a line (R182). -/
def Unlocked (s : State) : Prop := ∀ e ∈ s.tm.dq, e.locks = []

/-- What reading operands leaves: the registers and predicates, the drovers but for the counters of teams that are away, and, where no
entry of `dq` locks a line, all that `SameBut` names. -/
structure Popped (s u : State) : Prop where
  files : SameFiles s u
  drovers : ∀ d, (u.drv d).bare = (s.drv d).bare
  rest : Unlocked s → SameBut s u ∧ Unlocked u

theorem Popped.refl (s : State) : Popped s s := ⟨.refl s, fun _ => rfl, fun h => ⟨.inl rfl, h⟩⟩

theorem Popped.trans (h1 : Popped s u) (h2 : Popped u v) : Popped s v :=
  ⟨h1.files.trans h2.files, fun d => (h2.drovers d).trans (h1.drovers d),
    fun h => ⟨(h1.rest h).1.trans (h2.rest (h1.rest h).2).1, (h2.rest (h1.rest h).2).2⟩⟩

/-- A team changed that keeps its registers and what is special, and whose `dq` is part of what it was. -/
theorem popped_setTm (s : State) {t : TeamSt} (hs : t.str = s.tm.str) (hv : t.vregs = s.tm.vregs) (ht : t.special = s.tm.special)
    (hq : ∀ e ∈ t.dq, e ∈ s.tm.dq) : Popped s (s.setTm t) :=
  ⟨sameFiles_setTm_of_str s hs hv, fun _ => rfl,
    fun h => ⟨sameBut_setTm s ht, by rw [Unlocked, tm_setTm]; exact fun e he => h e (hq e he)⟩⟩

theorem str_setQ (t : TeamSt) (q : QName) (l : List QEnt) : (t.setQ q l).str = t.str := by
  funext σ
  cases q <;> cases σ <;> rfl

theorem vregs_setQ (t : TeamSt) (q : QName) (l : List QEnt) : (t.setQ q l).vregs = t.vregs := by cases q <;> rfl

theorem dq_setQ (t : TeamSt) (q : QName) (l : List QEnt) : (t.setQ q l).dq = t.dq := by cases q <;> rfl

theorem popped_popNamed {q : QName} {x : W64 × State} (h : s.popNamed q = .ok x) : Popped s x.2 := by
  unfold State.popNamed at h
  split at h
  · cases h
  · cases h
    exact popped_setTm s (str_setQ ..) (vregs_setQ ..) (special_setQ ..) (fun e he => dq_setQ s.tm q _ ▸ he)

theorem popped_popPort {p : Nat} {x : List W32 × State} (h : s.popPort p = .ok x) : Popped s x.2 := by
  unfold State.popPort at h
  dsimp only at h
  split at h
  · cases h
  · split at h
    · cases h
    · cases h
      exact popped_setTm s rfl rfl rfl (fun _ => id)

theorem popped_popDq {x : List W32 × State} (h : s.popDq = .ok x) : Popped s x.2 := by
  unfold State.popDq at h
  split at h
  · cases h
  · next e t hdq =>
    obtain ⟨_, _, h⟩ := ok_of_bind h
    cases h
    have hset : Popped s (s.setTm { s.tm with dq := t }) := popped_setTm s rfl rfl rfl (fun x hx => hdq ▸ List.mem_cons_of_mem e hx)
    have hbelow := below_l1UnlockAll (s.setTm { s.tm with dq := t }) s.me e.locks
    refine ⟨hset.files.trans (sameFiles_of_below hbelow), hbelow.drovers, fun hl => ?_⟩
    rw [hl e (hdq ▸ List.mem_cons_self)]
    exact hset.rest hl

theorem popped_src {a : BitVec 6} {x : W64 × State} (h : s.src a = .ok x) : Popped s x.2 := by
  unfold State.src at h
  dsimp only at h
  split at h
  · cases h; exact .refl s
  split at h
  · cases h; exact .refl s
  split at h
  · obtain ⟨y, hy, rfl⟩ := ok_of_map h
    exact popped_popPort hy
  split at h
  · cases h; exact .refl s
  split at h
  · exact popped_popNamed h
  · exact popped_popNamed h
  · obtain ⟨y, hy, rfl⟩ := ok_of_map h
    exact popped_popDq hy

theorem popped_vsrc {a : BitVec 6} {x : List W32 × State} (h : s.vsrc a = .ok x) : Popped s x.2 := by
  unfold State.vsrc at h
  dsimp only at h
  split at h
  · cases h; exact .refl s
  split at h
  · cases h; exact .refl s
  split at h
  · exact popped_popPort h
  split at h
  · cases h; exact .refl s
  · exact popped_popDq h

theorem popped_reads1 {a : BitVec 6} {x : W64} (h : s.Reads1 a x u) : Popped s u := popped_src h.2

theorem popped_reads2 {a b : BitVec 6} {x y : W64} (h : s.Reads2 a b x y u) : Popped s u := by
  obtain ⟨-, v, ha, hb⟩ := h
  exact (popped_src ha).trans (popped_src hb)

theorem popped_reads3 {a b c : BitVec 6} {x y z : W64} (h : s.Reads3 a b c x y z u) : Popped s u := by
  obtain ⟨-, v, w, ha, hb, hc⟩ := h
  exact (popped_src ha).trans ((popped_src hb).trans (popped_src hc))

theorem popped_lanes1 {a : BitVec 6} {x : List W32} (h : s.Lanes1 a x u) : Popped s u := popped_vsrc h.2

theorem popped_lanes2 {a b : BitVec 6} {x y : List W32} (h : s.Lanes2 a b x y u) : Popped s u := by
  obtain ⟨-, v, ha, hb⟩ := h
  exact (popped_vsrc ha).trans (popped_vsrc hb)

/-! ### Writing a result -/

/-- What writing a result that is no register leaves: the registers and predicates and all that `SameBut` names. -/
structure Kept (s v : State) : Prop where
  files : SameFiles s v
  rest : SameBut s v

theorem Kept.refl (s : State) : Kept s s := ⟨.refl s, .inl rfl⟩

theorem kept_setTm (s : State) {t : TeamSt} (hs : t.str = s.tm.str) (hv : t.vregs = s.tm.vregs) (ht : t.special = s.tm.special) :
    Kept s (s.setTm t) := ⟨sameFiles_setTm_of_str s hs hv, sameBut_setTm s ht⟩

theorem feedClaims_kept (n : Nat) (t : TeamSt) :
    (feedClaims n t).str = t.str ∧ (feedClaims n t).vregs = t.vregs ∧ (feedClaims n t).special = t.special := by
  induction n generalizing t with
  | zero => exact ⟨rfl, rfl, rfl⟩
  | succ n ih =>
    unfold feedClaims
    split
    · exact ⟨rfl, rfl, rfl⟩
    · split
      · exact ih _
      · exact ⟨rfl, rfl, rfl⟩
    · split
      · exact ⟨rfl, rfl, rfl⟩
      · exact ih _

theorem kept_pushSdq (s : State) (l : List W32) : Kept s (s.setTm (s.tm.pushSdq l)) := by
  unfold TeamSt.pushSdq
  split
  · exact kept_setTm s rfl rfl rfl
  · obtain ⟨h1, h2, h3⟩ := feedClaims_kept s.tm.claims.length { s.tm with sdq := s.tm.sdq ++ [{ lanes := l, mark := markOf s.tm.x }] }
    exact kept_setTm s h1 h2 h3

theorem kept_pushQ (s : State) (q : QName) (x : W64) : Kept s (s.setTm (s.tm.pushQ q x)) := by
  unfold TeamSt.pushQ
  split
  · exact kept_setTm s rfl rfl rfl
  · exact kept_setTm s (str_setQ ..) (vregs_setQ ..) (special_setQ ..)

theorem kept_pushVlat (s : State) (l : List W32) : Kept s (s.pushVlat l) := kept_setTm s rfl rfl rfl

theorem kept_pushLat (s : State) (x : W64) : Kept s (s.pushLat x) := by
  unfold State.pushLat
  split
  · exact kept_pushVlat ..
  · exact ⟨sameFiles_setSt s rfl rfl, sameBut_setSt ..⟩

theorem special_preemptHeld (σ : Strand) (n : Nat) (k : CoreSt) : (preemptHeld σ n k).special = k.special := by
  unfold preemptHeld CoreSt.askLeave
  dsimp only
  split
  · rfl
  · split <;> rfl

theorem special_heldSwap (σ : Strand) (n : Nat) (k : CoreSt) : (heldSwap σ n k).special = k.special := by
  unfold heldSwap CoreSt.askLeave
  split
  · rfl
  · dsimp only
    split <;> rfl

theorem vregs_preemptHeld (σ : Strand) (n : Nat) (k : CoreSt) : (preemptHeld σ n k).team.vregs = k.team.vregs := by
  unfold preemptHeld CoreSt.askLeave
  dsimp only
  split
  · rfl
  · split <;> rfl

/-- Retiring the word leaves registers, predicates and everything else that `SameBut` names (R14, R18, R187). -/
theorem kept_retire (s : State) (w : Bool) (n : Nat) (flow : Bool) : Kept s (s.retire w n flow) := by
  unfold State.retire
  dsimp only
  generalize hx : ({ s.st with pc := n, org := if flow then some s.st.pc else none, hold := .none, feDone := none,
                               span := if w then s.st.span + 1 else s.st.span } : StrandSt) = x
  have hr : x.regs = s.st.regs := by rw [← hx]
  have hp : x.preds = s.st.preds := by rw [← hx]
  have h1 : Kept s (s.setSt x) := ⟨sameFiles_setSt s hr hp, sameBut_setSt ..⟩
  have hc : s.cur = (s.setSt x).cur := rfl
  have hn : s.cyc = (s.setSt x).cyc := rfl
  rw [hc, hn]
  generalize (s.setSt x) = u at h1
  generalize s.strand = σ
  generalize s.runNs = now
  refine ⟨h1.files.trans ⟨rfl, rfl, fun τ => ?_, fun τ => ?_, ?_⟩, h1.rest.trans (.inr ⟨_, rfl, ?_⟩)⟩
  · rw [State.tm, State.team, setCore_cur, core_setCore, heldSwap_team, preemptHeld_str]
    rfl
  · rw [State.tm, State.team, setCore_cur, core_setCore, heldSwap_team, preemptHeld_str]
    rfl
  · rw [State.tm, State.team, setCore_cur, core_setCore, heldSwap_team, vregs_preemptHeld]
    rfl
  · exact (special_heldSwap ..).trans (special_preemptHeld ..)

/-- What a result changes: register `r` of the running strand at most, where `w` holds, predicate `p`, where `q` holds, and of what
`SameBut` names nothing. -/
structure Wrote (s v : State) (w : Bool) (r : Nat) (q : Bool) (p : Nat) : Prop where
  regs : SameRegs s v w r
  preds : SamePreds s v q p
  rest : SameBut s v

theorem Kept.wrote (h : Kept s v) (w : Bool) (r : Nat) (q : Bool) (p : Nat) : Wrote s v w r q p :=
  ⟨h.files.sameRegs w r, h.files.samePreds q p, h.rest⟩

variable {t : State} {w q : Bool} {r p : Nat}

theorem Wrote.andKept (h : Wrote s v w r q p) (h2 : Kept v t) : Wrote s t w r q p :=
  ⟨h.regs.within (.refl s) h2.files, h.preds.within (.refl s) h2.files, h.rest.trans h2.rest⟩

theorem wrote_setVreg (s : State) (k : Nat) (l : List W32) (h : s.vecX = true) : Wrote s (s.setVreg k l) true k q p := by
  refine ⟨⟨fun σ j _ => by rw [State.setVreg, tm_setTm]; rfl, fun j hj => ?_⟩, fun σ j _ => by rw [State.setVreg, tm_setTm]; rfl,
    sameBut_setTm s rfl⟩
  rw [State.setVreg, tm_setTm]
  obtain hj | hj | hj := hj
  · cases h.symm.trans hj
  · cases hj
  · exact tget_tset_ne _ _ _ hj

theorem wrote_setReg (s : State) (k : Nat) (x : W64) : Wrote s (s.setReg k x) true k q p := by
  unfold State.setReg
  split
  · next h => exact wrote_setVreg s k _ h
  · refine ⟨⟨fun σ j hj => ?_, fun j _ => by rw [State.setSt, tm_setTm, vregs_setStr]⟩, fun σ j _ => ?_, sameBut_setSt ..⟩
    · rw [State.setSt, tm_setTm]
      by_cases hσ : σ = s.strand
      · rw [hσ, str_setStr]
        obtain hj | hj | hj := hj
        · exact absurd hσ hj
        · cases hj
        · exact tget_tset_ne _ _ _ hj
      · rw [str_setStr_ne _ _ hσ]
    · rw [State.setSt, tm_setTm]
      rw [str_setSt_of_part StrandSt.preds s (x := { s.st with regs := tset s.st.regs k x }) rfl σ]

theorem getLsbD_setBit_ne (b : BitVec 8) {j k : Nat} (x : Bool) (h : j ≠ k) : (setBit b k x).getLsbD j = b.getLsbD j := by
  have hbit : (BitVec.ofNat 8 (2 ^ k)).getLsbD j = false := by
    rw [BitVec.getLsbD_ofNat, Nat.testBit_two_pow_of_ne (Ne.symm h), Bool.and_false]
  unfold setBit
  split
  · rw [BitVec.getLsbD_or, hbit, Bool.or_false]
  · rw [BitVec.getLsbD_and, BitVec.getLsbD_not, hbit]
    by_cases hj : j < 8
    · simp [hj]
    · simp [BitVec.getLsbD_of_ge b j (by omega)]

theorem wrote_setPred (s : State) (k : BitVec 3) (x : Bool) : Wrote s (s.setPred k.toNat x) w r (decide (k ≠ 7)) k.toNat := by
  unfold State.setPred
  split
  · exact (Kept.refl s).wrote ..
  · next hk =>
    have h7 : k ≠ 7 := fun h => hk (by rw [h]; rfl)
    refine ⟨⟨fun σ j _ => ?_, fun j _ => by rw [State.setSt, tm_setTm, vregs_setStr]⟩, fun σ j hj => ?_, sameBut_setSt ..⟩
    · rw [State.setSt, tm_setTm]
      rw [str_setSt_of_part StrandSt.regs s (x := { s.st with preds := setBit s.st.preds k.toNat x }) rfl σ]
    · rw [State.setSt, tm_setTm]
      by_cases hσ : σ = s.strand
      · rw [hσ, str_setStr]
        obtain hj | hj | hj := hj
        · exact absurd hσ hj
        · exact absurd h7 (of_decide_eq_false hj)
        · exact getLsbD_setBit_ne _ _ hj
      · rw [str_setStr_ne _ _ hσ]

theorem wrote_dest (s : State) (a : BitVec 6) (x : W64) : Wrote s (s.dest a x) (decide (a.toNat < 48)) a.toNat q p := by
  unfold State.dest
  dsimp only
  split
  · next h => rw [decide_eq_true h]; exact wrote_setReg ..
  split
  · split
    · exact (kept_pushQ ..).wrote ..
    · exact (kept_pushQ ..).wrote ..
    · exact (kept_pushSdq ..).wrote ..
  · exact (Kept.refl s).wrote ..

/-- A vector result leaves the strands of its team as they are. -/
theorem str_vdest (s : State) (a : BitVec 6) (l : List W32) :
    s.vdest a l = s ∨ ∃ t, s.vdest a l = s.setTm t ∧ t.str = s.tm.str ∧ t.special = s.tm.special := by
  unfold State.vdest
  dsimp only
  split
  · exact .inr ⟨_, rfl, rfl, rfl⟩
  split
  · unfold TeamSt.pushSdq
    split
    · exact .inr ⟨_, rfl, rfl, rfl⟩
    · obtain ⟨hs, -, ht⟩ := feedClaims_kept s.tm.claims.length { s.tm with sdq := s.tm.sdq ++ [{ lanes := l, mark := markOf s.tm.x }] }
      exact .inr ⟨_, rfl, hs, ht⟩
  · exact .inl rfl

theorem samePreds_vdest (s : State) (a : BitVec 6) (l : List W32) : SamePreds s (s.vdest a l) q p := by
  obtain h | ⟨t, h, hs, -⟩ := str_vdest s a l
  · rw [h]; exact (SameFiles.refl s).samePreds q p
  · exact fun σ j _ => by rw [h, tm_setTm, hs]

theorem sameBut_vdest (s : State) (a : BitVec 6) (l : List W32) : SameBut s (s.vdest a l) := by
  obtain h | ⟨t, h, -, ht⟩ := str_vdest s a l
  · exact .inl h
  · rw [h]; exact sameBut_setTm s ht

theorem sameRegs_vdest (s : State) (a : BitVec 6) (l : List W32) (h : s.vecX = true) :
    SameRegs s (s.vdest a l) (decide (a.toNat < 48)) a.toNat := by
  unfold State.vdest
  dsimp only
  split
  · next hk => rw [decide_eq_true hk]; exact (wrote_setVreg (q := false) (p := 0) s _ _ h).regs
  split
  · exact (kept_pushSdq ..).files.sameRegs ..
  · exact (SameFiles.refl s).sameRegs ..

theorem samePreds_vput (s : State) (d : Bool) (a : BitVec 6) (l : List W32) : SamePreds s (s.vput d a l) q p := by
  unfold State.vput
  refine SamePreds.within (.refl s) ?_ (kept_pushVlat ..).files
  cases d
  · exact samePreds_vdest s a l
  · exact (SameFiles.refl s).samePreds q p

theorem sameBut_vput (s : State) (d : Bool) (a : BitVec 6) (l : List W32) : SameBut s (s.vput d a l) := by
  unfold State.vput
  refine SameBut.trans ?_ (kept_pushVlat ..).rest
  cases d
  · exact sameBut_vdest ..
  · exact .inl rfl

theorem sameRegs_vput (s : State) (d : Bool) (a : BitVec 6) (l : List W32) (h : s.vecX = true) :
    SameRegs s (s.vput d a l) (!d && decide (a.toNat < 48)) a.toNat := by
  unfold State.vput
  refine SameRegs.within (.refl s) ?_ (kept_pushVlat ..).files
  cases d
  · exact sameRegs_vdest _ _ _ h
  · exact (SameFiles.refl s).sameRegs ..

theorem wrote_put (s : State) (d : Bool) (a : BitVec 6) (x : W64) :
    Wrote s (s.put d a x) (!d && decide (a.toNat < 48)) a.toNat q p := by
  unfold State.put
  refine Wrote.andKept ?_ (kept_pushLat ..)
  cases d
  · exact wrote_dest ..
  · exact (Kept.refl s).wrote ..

theorem wrote_setPred_pushLat (s : State) (d : Bool) (k : BitVec 3) (b : Bool) (x : W64) :
    Wrote s ((if d then s else s.setPred k.toNat b).pushLat x) w r (!d && decide (k ≠ 7)) k.toNat := by
  refine Wrote.andKept ?_ (kept_pushLat ..)
  cases d
  · exact wrote_setPred ..
  · exact (Kept.refl s).wrote ..

theorem kept_past (s : State) (t : Tag) : Kept s (s.past t) := kept_retire ..

/-- What is so of the registers, the predicates and the rest after a result is so after the operands and the result. -/
theorem SameBut.all (h : SameBut s v) : SameMemory s v ∧ SameElsewhere s v ∧ SameSpecial s v :=
  ⟨h.sameMemory, h.sameElsewhere, h.sameSpecial⟩

end Machine

open Sys2Proof.Machine

/-- Settles O12: reading an operand keeps the registers and, where no lock is to be released, everything but queues; the result is written
to the team alone, and retiring the word leaves registers and special registers. -/
theorem resultsLeaveTheRestUnchanged : Obligations.ResultsLeaveTheRestUnchanged := by
  intro s u t d r a b c p v l x y z lx ly q hu unlocked writes scalar vector predicate
  have hpop : Popped s u := by
    obtain rfl | h | h | h | h | h := hu
    · exact .refl _
    · exact popped_reads1 h
    · exact popped_reads2 h
    · exact popped_reads3 h
    · exact popped_lanes1 h
    · exact popped_lanes2 h
  have hscalar : Wrote u scalar writes r.toNat false 0 := (wrote_put u d r v).andKept (kept_past ..)
  have hpred : Wrote u predicate false 0 (!d && decide (p ≠ 7)) p.toNat := (wrote_setPred_pushLat u d p q v).andKept (kept_past ..)
  have hfiles := hpop.files
  refine ⟨hscalar.regs.within hfiles (.refl _), fun hx => ?_, hpred.regs.within hfiles (.refl _), hscalar.preds.within hfiles (.refl _),
    (samePreds_vput u d r l).within hfiles (kept_past ..).files, hpred.preds.within hfiles (.refl _), fun hl k hk => ?_⟩
  · exact (sameRegs_vput u d r l (hfiles.vecX.trans hx)).within hfiles (kept_past ..).files
  · have hrest := (hpop.rest hl).1
    simp only [List.mem_cons, List.not_mem_nil, or_false] at hk
    obtain rfl | rfl | rfl := hk
    · exact (hrest.trans hscalar.rest).all
    · exact (hrest.trans ((sameBut_vput u d r l).trans (kept_past ..).rest)).all
    · exact (hrest.trans hpred.rest).all

end Sys2Proof

/-! SUPPORT. The frame of the DROVER words (R418): a word of one source gives its value, or a failure code and has no effect. -/

namespace Sys2Proof

namespace Machine

variable {s u t p w : State} {d l : Bool} {r a b : BitVec 6} {x y : W64} {c k : Nat} {e : Instr}

theorem failW_eq (c : Nat) : failW c = BitVec.ofNat 64 (c * 2 ^ 56) := by
  simp only [failW, packW, List.foldl_cons, List.foldl_nil, Nat.zero_add]

/-- Selector 62 pops nothing (R26). -/
theorem popsOk_62 (s : State) (a : BitVec 6) : s.popsOk [a, 62] = s.popsOk [a] := by
  have hcount {k : Nat} (hk : k ≠ 62) : countSel [a, 62] k = countSel [a] k := by
    have h62 : ((62 : BitVec 6).toNat == k) = false := beq_false_of_ne (Ne.symm hk)
    unfold countSel
    rw [List.filter_cons, List.filter_cons, List.filter_cons, h62]
    rfl
  unfold State.popsOk
  rw [hcount (by decide), hcount (by decide), hcount (by decide), hcount (by decide), hcount (by decide)]

theorem myDrv_of_src (h : s.src a = .ok (x, u)) : u.myDrv = s.myDrv := congrArg coreDrv (popped_src h).files.cur

section Frame

variable {f : State → W64 → Except Nat (W64 × State)} {g : State → W64 → W64 → Except Nat (W64 × State)}

theorem fw1_eq (hr : s.room d r = .ok ()) (h : s.Reads1 a x u) : s.fw1 d r a f = match f u x with
    | .ok q => .ok (q.2.put d r q.1).goOn
    | .error c => .ok (u.put d r (failW c)).goOn := by
  obtain ⟨hp, hx⟩ := h
  unfold State.fw1
  rw [hp, ok_bind, hr, ok_bind, hx, ok_bind] <;> rfl

/-- A word whose second source is selector 62 is one of one source. -/
theorem fw2_62 (s : State) (d : Bool) (r a : BitVec 6) (g : State → W64 → W64 → Except Nat (W64 × State)) :
    s.fw2 d r a 62 g = s.fw1 d r a fun s x => g s x 0 := by
  unfold State.fw2 State.fw1
  rw [popsOk_62]
  rfl

/-- A word of one source gives its value. -/
theorem exec_fw1 (he : exec e s = s.run (headOf .X l) fun s => s.fw1 d r a f) (hi : s.Issues .X false) (hl : l = true)
    (hr : s.room d r = .ok ()) (h : s.Reads1 a x u) (hf : f u x = .ok (y, t)) : exec e s = .next ((t.put d r y).past .X) := by
  refine he.trans (run_headOf hi hl ?_)
  rw [fw1_eq hr h, hf]

/-- A word of one source gives a failure code. -/
theorem exec_fw1_fails (he : exec e s = s.run (headOf .X l) fun s => s.fw1 d r a f) (hi : s.Issues .X false) (hl : l = true)
    (hr : s.room d r = .ok ()) (h : s.Reads1 a x u) (hf : f u x = .error c) :
    exec e s = .next ((u.put d r (BitVec.ofNat 64 (c * 2 ^ 56))).past .X) := by
  refine he.trans (run_headOf hi hl ?_)
  rw [fw1_eq hr h, hf, ← failW_eq]

end Frame

theorem fwHead_ok {extra : Bool} (hd : s.destOk r = true) (ha : s.srcOk a = true) (he : extra = true) :
    (s.destOk r && s.srcOk a && s.srcOk 62 && extra) = true := rowHeadR_ok hd ha (srcOk_62 s) he

theorem decode_drover {w : W32} {n : BitVec 8} (h : w.extractLsb' 22 8 = n) (hn : ¬ n.toNat < 0x80) : decode .drover w = decodeDrover w := by
  unfold decode
  rw [opOf_eq h, if_neg hn]

/-- The DROVER words of one operand without an FN have bits 8 to 0 zero (R418). -/
theorem decode_drover_one {w : W32} (h : w.extractLsb' 22 8 ∈ ([0x84, 0x86, 0x89, 0x8B, 0x8C, 0x8D] : List (BitVec 8)))
    (hw : w.extractLsb' 0 9 ≠ 0) : decode .drover w = none := by
  simp only [List.mem_cons, List.not_mem_nil, or_false] at h
  obtain h | h | h | h | h | h := h <;> simpa [decode_drover h, decodeDrover, opOf_eq h] using fun _ => hw

/-- The FN of `QMAP` as a condition. -/
theorem ite_fn_zero {α : Type} {f : BitVec 3} (y z : α) : (if (f == 0) = true then y else z) = if f = 0 then y else z := by
  simp only [beq_iff_eq]

/-- The slot that `QMAP` takes is not in the state that its FN asks for (R422). -/
theorem qmapBusy {f : BitVec 3} (h : 63 < k ∨ (u.slot c k).st ≠ if f = 0 then SlotSt.loaded else SlotSt.serving) :
    (decide (63 < k) || (u.slot c k).st != (if f == 0 then SlotSt.loaded else .serving)) = true := by
  rw [Bool.or_eq_true, decide_eq_true_iff, bne_iff_ne, ite_fn_zero]
  exact h

theorem qmapFree {f : BitVec 3} (hk : k ≤ 63) (h : (u.slot c k).st = if f = 0 then SlotSt.loaded else SlotSt.serving) :
    (decide (63 < k) || (u.slot c k).st != (if f == 0 then SlotSt.loaded else .serving)) = false := by
  rw [Bool.or_eq_false_iff, decide_eq_false_iff_not, ite_fn_zero, h, bne_self_eq_false]
  exact ⟨by omega, rfl⟩

/-- A slot that `QSAVE` may save (R422). -/
theorem qsaveBusy (h : 63 < k ∨ ((s.slot c k).st ≠ .loaded ∧ (s.slot c k).st ≠ .stopped)) :
    (decide (63 < k) || !((s.slot c k).st == .loaded || (s.slot c k).st == .stopped)) = true := by
  rw [Bool.or_eq_true, decide_eq_true_iff, Bool.not_eq_true', Bool.or_eq_false_iff, beq_eq_false_iff_ne, beq_eq_false_iff_ne]
  exact h

theorem qsaveFree (hk : k ≤ 63) (h : (s.slot c k).st = .loaded ∨ (s.slot c k).st = .stopped) :
    (decide (63 < k) || !((s.slot c k).st == .loaded || (s.slot c k).st == .stopped)) = false := by
  rw [Bool.or_eq_false_iff, decide_eq_false_iff_not, Bool.not_eq_false', Bool.or_eq_true, beq_iff_eq, beq_iff_eq]
  exact ⟨by omega, h⟩

theorem fwHead_bad {extra : Bool} (c : BitVec 6) (h : s.destOk r = false ∨ s.srcOk a = false ∨ extra = false) :
    (s.destOk r && s.srcOk a && s.srcOk c && extra) = false := by
  obtain h | h | h := h <;> simp [h]

/-- What `PRIO.age` makes of a queue (R423): it is moved up one class. -/
def prioAged (s : State) (q : W64) : Except Nat (W64 × State) :=
  let v := s.myDrv
  let c := s.liveQ v q.toNat
  if decide (4095 < q.toNat) || s.qcbCorrupt v c then .error failCorrupt
  else
    let t := s.qcb v q.toNat
    let u := if t.st == 2 then s.setQcb v q.toNat { t with age := 0 } else s
    .ok (c.prio.setWidth 64, u.setLive v q.toNat { c with prio := if c.prio == 7 then 7 else c.prio + 1, age := 0 })

/-- `FLKNEW.free` of a handle of the right form (R430). -/
theorem flockFree_eq (hn : x.toNat ≤ 65535) (hform : flockForm x.toNat = true) : s.flockFree x =
    match s.flockAt (flockSite x.toNat) (flockEntry x.toNat) with
    | none => .error failStale
    | some e => if !e.members.isEmpty then .error failBusy else .ok (0, s.freeFlock (flockSite x.toNat) (flockEntry x.toNat)) := by
  unfold State.flockFree
  refine (if_neg ?_).trans ?_
  · rw [Bool.or_eq_true, decide_eq_true_iff, Bool.not_eq_true', hform]
    exact not_or.2 ⟨by omega, Bool.true_eq_false.mp⟩
  · rfl

end Machine

open Sys2Proof.Machine

/-- Settles O49: each word by its function in the frame of R418. -/
theorem firmwareWordsOfOneOperandComplete : Obligations.FirmwareWordsOfOneOperandComplete := by
  refine ⟨?_, ?_, ?_⟩
  · intro s u p w d b r a f x pl rec rest hi hd ha hr h v gives fails
    have hv : u.myDrv = s.myDrv := myDrv_of_src h.2
    have hl : (s.destOk r && s.srcOk a && s.srcOk 62 && true) = true := fwHead_ok hd ha rfl
    have hlf {q : Bool} (hq : q = true) := fwHead_ok hd ha hq
    refine ⟨fun hb => ⟨?_, fun hf => ?_⟩, fun e k hb => ⟨?_, ?_, fun hrun => ?_, fun hrun => ?_⟩, fun hf hbusy => ?_, fun hk => ⟨?_, ?_⟩,
      ?_, fun hn => ?_, fun e k hn => ⟨?_, ?_⟩, fun hp => ⟨?_, ?_⟩, fun hn => ⟨?_, ?_⟩, fun e hn => ?_⟩
    · exact exec_fw1_fails rfl hi hl hr h (c := 0x83) (by rw [hb]; rfl)
    · have hf : (f == 1 || f == 2 || f == 3) = true := by
        revert hf f
        decide
      exact exec_fw1_fails rfl hi (hlf hf) hr h (c := 0x83) (by rw [hb]; rfl)
    · rintro rfl
      exact exec_fw1 rfl hi hl hr h (by rw [hb]; rfl)
    · rintro (rfl | rfl)
      · exact exec_fw1 rfl hi hl hr h (by rw [hb]; rfl)
      · exact exec_fw1 rfl hi hl hr h (by rw [hb]; rfl)
    · exact exec_fw1_fails rfl hi hl hr h (c := 0x83) (by simp only [hb, hrun]; rfl)
    · exact exec_fw1 rfl hi hl hr h (by simp only [hb, hrun]; rfl)
    · refine exec_fw1_fails rfl hi (hlf (decide_eq_true hf)) hr h (c := 0x83) ?_
      dsimp only
      rw [hv, if_pos (qmapBusy hbusy)]
      rfl
    · intro hst
      refine exec_fw1 rfl hi hl hr h ?_
      dsimp only
      rw [hv, if_neg (Bool.eq_false_iff.1 (qmapFree (f := 0) hk hst))]
      rfl
    · intro hst
      refine exec_fw1 rfl hi hl hr h ?_
      dsimp only
      rw [hv, if_neg (Bool.eq_false_iff.1 (qmapFree (f := 1) hk hst))]
      rfl
    · obtain ⟨hpops, hx⟩ := h
      refine ⟨fun hbusy => run_headOf hi hl ?_, fun hk hst hbehind => run_headOf hi hl ?_⟩
      · simp only [hpops, hr, hx, ok_bind, ← failW_eq]
        exact if_pos (qsaveBusy hbusy)
      · have hbehind : u.behind s.myDrv (s.slot s.myDrv x.toNat).copy = .ok (b, p) := hbehind
        simp only [hpops, hr, hx, ok_bind, hbehind]
        exact if_neg (Bool.eq_false_iff.1 (qsaveFree hk hst))
    · exact exec_fw1_fails rfl hi hl hr h (c := 0x84) (by rw [hn]; rfl)
    · intro hst
      exact exec_fw1_fails rfl hi hl hr h (c := 0x83) (by simp only [hn, bne_iff_ne.2 hst]; rfl)
    · intro hst
      exact exec_fw1 rfl hi hl hr h (by simp only [hn, hst]; rfl)
    · intro hq
      obtain ⟨hpops, hx⟩ := h
      refine run_headOf hi hl ?_
      have hq : (s.drv s.myDrv).faultQ = [] := hq
      simp only [hpops, hr, hx, ok_bind, hp, hq]
    · intro hq hstore
      obtain ⟨hpops, hx⟩ := h
      refine run_headOf hi hl ?_
      have hq : (s.drv s.myDrv).faultQ = rec :: rest := hq
      simp only [hpops, hr, hx, ok_bind, hp, hq, hstore]
      rfl
    · exact exec_fw1_fails rfl hi hl hr h (c := 0x87) (by simp only [hv]; rw [hn]; rfl)
    · exact exec_fw1_fails rfl hi hl hr h (c := 0x87) (by simp only [hv]; rw [hn]; rfl)
    · intro susp fin
      have hn : (u.drv s.myDrv).liveHandle x = some e := hn
      refine ⟨fun hno => ?_, fun hcopy => ⟨?_, fun hmay => ?_⟩, fun hcopy n y haway => ⟨?_, ?_⟩⟩
      · have hno : (tget Susp.none (u.drv s.myDrv).susps e).mayResume = false := hno
        exact exec_fw1_fails rfl hi hl hr h (c := 0x87) (by simp only [hn, hv, hno]; rfl)
      · have hcopy : (tget Susp.none (u.drv s.myDrv).susps e).copy = true := hcopy
        exact exec_fw1 rfl hi hl hr h (by simp only [hn, hv, hcopy]; rfl)
      · have hcopy : (tget Susp.none (u.drv s.myDrv).susps e).copy = true := hcopy
        have hmay : (tget Susp.none (u.drv s.myDrv).susps e).mayResume = true := hmay
        exact exec_fw1 rfl hi hl hr h (by simp only [hn, hv, hcopy, hmay]; rfl)
      · have hcopy : (tget Susp.none (u.drv s.myDrv).susps e).copy = false := hcopy
        have haway : u.suspAway s.myDrv e = some (n, y) := haway
        exact exec_fw1 rfl hi hl hr h (by simp only [hn, hv, hcopy, haway]; rfl)
      · intro stopped hmay
        have hcopy : (tget Susp.none (u.drv s.myDrv).susps e).copy = false := hcopy
        have hmay : (tget Susp.none (u.drv s.myDrv).susps e).mayResume = true := hmay
        have haway : u.suspAway s.myDrv e = some (n, y) := haway
        refine ⟨fun hst => ?_, fun hst hdie => ?_, fun hst hdie => ?_⟩
        · have hst : (drained y.team && !y.team.serr.getLsbD 31) = true := hst
          exact exec_fw1 rfl hi hl hr h (by simp only [hn, hv, hcopy, hmay, haway, hst]; rfl)
        · have hst : (drained y.team && !y.team.serr.getLsbD 31) = false := hst
          exact exec_fw1_fails rfl hi hl hr h (c := 0x83) (by simp only [hn, hv, hcopy, hmay, haway, hst, hdie]; rfl)
        · have hst : (drained y.team && !y.team.serr.getLsbD 31) = false := hst
          exact exec_fw1 rfl hi hl hr h (by simp only [hn, hv, hcopy, hmay, haway, hst, hdie]; rfl)
  · intro s d r a b f hx
    have hill {l : Bool} {body : State → Iss Done} (hl : l = false) := run_headOf_false (s := s) (t := .X) (body := body)
      (by rw [hx]; rfl) nofun hl
    have hbad {p : Prop} {q : Bool} (hq : ¬p → q = false) (c : BitVec 6) (h : s.destOk r = false ∨ s.srcOk a = false ∨ ¬p) :=
      fwHead_bad c (h.imp_right (Or.imp_right hq))
    have hone {body : State → Iss Done} (h : s.destOk r = false ∨ s.srcOk a = false ∨ ¬True) :=
      hill (body := body) (hbad (q := true) (absurd trivial) 62 h)
    have hf3 : ¬(f = 1 ∨ f = 2 ∨ f = 3) → (f == 1 || f == 2 || f == 3) = false := by
      clear hone
      revert f
      decide
    have hf2 : ¬(f = 0 ∨ f = 1 ∧ b = 0) → (f < 2 && (f == 0 || b == 0)) = false := by
      intro h
      by_cases hb : b = 0
      · have hf : ¬f < 2 := by
          simp only [hb, and_true] at h
          revert h
          revert f
          decide
        rw [decide_eq_false hf, Bool.false_and]
      · rw [beq_false_of_ne (fun h0 => h (.inl h0)), beq_false_of_ne hb]
        exact Bool.and_false _
    refine ⟨?_, fun w => decode_drover_one⟩
    simp only [List.forall_mem_cons, List.not_mem_nil, false_implies, implies_true, and_true]
    exact ⟨fun h => hill (hbad hf3 62 h), fun h => hill (hbad decide_eq_false 62 h), fun h => hill (hbad hf2 _ h),
      fun h => hill (hbad hf2 _ h), hone, hone, hone, hone, hone, hone⟩
  · intro s u d r a x hi hd ha hr h v gives fails
    have hv : u.myDrv = s.myDrv := myDrv_of_src h.2
    have hl : (s.destOk r && s.srcOk a && s.srcOk 62 && true) = true := fwHead_ok hd ha rfl
    have hpops : exec (.prio d r a 0 1) s = s.run (headOf .X (s.destOk r && s.srcOk a && s.srcOk 62 && true)) fun s =>
        s.fw1 d r a fun s q => prioAged s q := by
      show s.run _ (fun s => s.fw2 d r a 62 _) = _
      simp only [fw2_62]
      rfl
    refine ⟨?_, ?_⟩
    · intro c t t'
      refine ⟨fun hbad => ?_, fun hq hok => ?_⟩
      · refine exec_fw1_fails hpops hi hl hr h (c := 0x82) ?_
        unfold prioAged
        simp only [hv]
        exact if_pos (by rw [Bool.or_eq_true, decide_eq_true_iff]; exact hbad)
      · refine exec_fw1 hpops hi hl hr h ?_
        unfold prioAged
        simp only [hv]
        refine (if_neg ?_).trans ?_
        · rw [Bool.or_eq_true, decide_eq_true_iff]
          exact not_or.2 ⟨by omega, Bool.eq_false_iff.1 hok⟩
        · simp only [beq_iff_eq]
          rfl
    · have hfree : exec (.flknew d r a 0 1) s = s.run (headOf .X (s.destOk r && s.srcOk a && s.srcOk 62 && true)) fun s =>
          s.fw1 d r a fun s x => s.flockFree x := by
        show s.run _ (fun s => s.fw2 d r a 62 _) = _
        simp only [fw2_62]
        rfl
      intro n
      refine ⟨fun hbad => ?_, fun hn hform => ⟨fun hnone => ?_, fun e he => ⟨fun hm => ?_, fun hm => ⟨?_, fun harea => ?_⟩⟩⟩⟩
      · refine exec_fw1_fails hfree hi hl hr h (c := 0x87) (if_pos ?_)
        rw [Bool.or_eq_true, decide_eq_true_iff, Bool.not_eq_true']
        exact hbad
      · exact exec_fw1_fails hfree hi hl hr h (c := 0x87) (by rw [flockFree_eq hn hform, hnone]; rfl)
      · exact exec_fw1_fails hfree hi hl hr h (c := 0x83) (by rw [flockFree_eq hn hform, he]; exact if_pos (by simpa using hm))
      · exact exec_fw1 hfree hi hl hr h (by rw [flockFree_eq hn hform, he]; exact if_neg (by simpa using hm))
      · unfold State.freeFlock
        rw [he]
        simp only [harea]

end Sys2Proof

/-! SUPPORT. The DROVER words of two operands in the frame of R418. -/

namespace Sys2Proof

namespace Machine

variable {s u t : State} {d l : Bool} {r a b : BitVec 6} {x y z : W64} {c : Nat} {e : Instr}

section Frame

variable {f : State → W64 → W64 → Except Nat (W64 × State)}

theorem fw2_eq (hr : s.room d r = .ok ()) (h : s.Reads2 a b x y u) : s.fw2 d r a b f = match f u x y with
    | .ok q => .ok (q.2.put d r q.1).goOn
    | .error c => .ok (u.put d r (failW c)).goOn := by
  obtain ⟨hp, v, hx, hy⟩ := h
  unfold State.fw2
  rw [hp, ok_bind, hr, ok_bind, hx, ok_bind, hy, ok_bind] <;> rfl

/-- A word of two sources gives its value. -/
theorem exec_fw2 (he : exec e s = s.run (headOf .X l) fun s => s.fw2 d r a b f) (hi : s.Issues .X false) (hl : l = true)
    (hr : s.room d r = .ok ()) (h : s.Reads2 a b x y u) (hf : f u x y = .ok (z, t)) : exec e s = .next ((t.put d r z).past .X) := by
  refine he.trans (run_headOf hi hl ?_)
  rw [fw2_eq hr h, hf]

/-- A word of two sources gives a failure code. -/
theorem exec_fw2_fails (he : exec e s = s.run (headOf .X l) fun s => s.fw2 d r a b f) (hi : s.Issues .X false) (hl : l = true)
    (hr : s.room d r = .ok ()) (h : s.Reads2 a b x y u) (hf : f u x y = .error c) :
    exec e s = .next ((u.put d r (BitVec.ofNat 64 (c * 2 ^ 56))).past .X) := by
  refine he.trans (run_headOf hi hl ?_)
  rw [fw2_eq hr h, hf, ← failW_eq]

end Frame

/-- The DROVER words of two operands have bits 2 to 0 zero (R418). -/
theorem decode_drover_two {w : W32} (h : w.extractLsb' 22 8 ∈ ([0x80, 0x82, 0x83, 0x85, 0x87, 0x88] : List (BitVec 8)))
    (hw : w.extractLsb' 0 3 ≠ 0) : decode .drover w = none := by
  simp only [List.mem_cons, List.not_mem_nil, or_false] at h
  obtain h | h | h | h | h | h := h <;> simpa [decode_drover h, decodeDrover, opOf_eq h] using fun _ => hw

/-! ### What reading operands leaves of the drovers -/

theorem qcbCorrupt_eq (h : Popped s u) (k : Nat) (q : Qcb) : u.qcbCorrupt k q = s.qcbCorrupt k q := by
  have hfolds : (u.drv k).folds = (s.drv k).folds := congrArg (f := Drover.folds) (a₁ := (u.drv k).bare) (a₂ := (s.drv k).bare) (h.drovers k)
  unfold State.qcbCorrupt State.foldOn State.fold
  rw [hfolds]

theorem node_eq (h : Popped s u) (k n : Nat) : u.node k n = s.node k n := by
  have hnodes : (u.drv k).nodes = (s.drv k).nodes := congrArg (f := Drover.nodes) (a₁ := (u.drv k).bare) (a₂ := (s.drv k).bare) (h.drovers k)
  unfold State.node
  rw [hnodes]

/-! ### The failure codes of `BRNEW` -/

/-- The codes of R419. -/
def failCodes : List Nat := [0x80, 0x82, 0x83, 0x84, 0x85, 0x86, 0x87]

theorem freeFail_mem (s : State) : s.freeFail.1 ∈ failCodes := by
  have hall : ∀ n < 7, [failMalformed, failCorrupt, failBusy, failMissing, failClass, failFull, failStale].getD n failMalformed ∈ failCodes := by
    decide
  exact hall _ (Nat.mod_lt _ (by decide))

theorem brnew_error_mem {k : Nat} (h : s.brnew c y = .error k) : k ∈ failCodes := by
  unfold State.brnew at h
  dsimp only at h
  split at h
  · cases h; decide
  split at h
  · cases h; decide
  split at h
  · cases h
  · cases h; decide

theorem min_mem {l : List Nat} {m n : Nat} (hm : m ∈ l) (hn : n ∈ l) : min m n ∈ l := by
  obtain h | h := Nat.le_total m n
  · rwa [Nat.min_eq_left h]
  · rwa [Nat.min_eq_right h]

/-- What `PRIO.set` makes of a queue (R423). -/
def prioSet (s : State) (q n : W64) : Except Nat (W64 × State) :=
  let v := s.myDrv
  let c := s.liveQ v q.toNat
  if decide (4095 < q.toNat) || s.qcbCorrupt v c then .error failCorrupt
  else if decide (7 < n.toNat) then .error failBusy
  else
    let t := s.qcb v q.toNat
    let u := if t.st == 2 then s.setQcb v q.toNat { t with age := 0 } else s
    .ok (c.prio.setWidth 64, u.setLive v q.toNat { c with prio := n.setWidth 3, age := 0 })

/-- What `QLOAD` makes of a queue and a slot (R422). -/
def loadSlot (s : State) (q k : W64) : Except Nat (W64 × State) :=
  let v := s.myDrv
  let c := s.qcb v q.toNat
  if decide (4095 < q.toNat) || s.qcbCorrupt v c || c.st == 0 then .error failCorrupt
  else if decide (63 < k.toNat) || (s.slot v k.toNat).st != .free || c.st == 2 || s.loaded v q.toNat then .error failBusy
  else if (s.fold v c.fold.toNat).hqShare v ≤ s.foldSlots v c.fold.toNat then .error failFull
  else .ok (0, s.setSlot v k.toNat { HwSlot.reset with st := .loaded, qcb := q.toNat, copy := c })

theorem loadSlot_eq (s : State) (q k : W64) : loadSlot s q k =
    let v := s.myDrv
    let c := s.qcb v q.toNat
    if 4095 < q.toNat ∨ s.qcbCorrupt v c = true ∨ c.st = 0 then .error failCorrupt
    else if 63 < k.toNat ∨ (s.slot v k.toNat).st ≠ .free ∨ c.st = 2 ∨ s.loaded v q.toNat = true then .error failBusy
    else if (s.fold v c.fold.toNat).hqShare v ≤ s.foldSlots v c.fold.toNat then .error failFull
    else .ok (0, s.setSlot v k.toNat { HwSlot.reset with st := .loaded, qcb := q.toNat, copy := c }) := by
  unfold loadSlot
  simp only [Bool.or_eq_true, decide_eq_true_iff, beq_iff_eq, bne_iff_ne, or_assoc]

theorem prioSet_eq (s : State) (q n : W64) : prioSet s q n =
    let v := s.myDrv
    let c := s.liveQ v q.toNat
    if 4095 < q.toNat ∨ s.qcbCorrupt v c = true then .error failCorrupt
    else if 7 < n.toNat then .error failBusy
    else
      let t := s.qcb v q.toNat
      let u := if t.st = 2 then s.setQcb v q.toNat { t with age := 0 } else s
      .ok (c.prio.setWidth 64, u.setLive v q.toNat { c with prio := n.setWidth 3, age := 0 }) := by
  unfold prioSet
  simp only [Bool.or_eq_true, decide_eq_true_iff, beq_iff_eq]

theorem flockNew_eq (s : State) (x : W64) (f : Nat) : s.flockNew x f =
    let k := x.toNat
    if 59 < k ∨ hasFlocks k = false ∨ (s.fold s.myDrv f).sites.getLsbD k = false then .error failClass
    else match tfree (s.die k).flocks 256 with
      | some e => .ok (BitVec.ofNat 64 (k * 1024 + e), s.setFlock k e (FlockEnt.fresh f none none))
      | none => .error failFull := by
  unfold State.flockNew
  simp only [Bool.or_eq_true, decide_eq_true_iff, Bool.not_eq_true', or_assoc] <;> rfl

theorem brnew_eq (s : State) (len : Nat) (y : W64) : s.brnew len y =
    let n := s.node (fieldW y 16 16) (fieldW y 15 0)
    let j := fieldW y 20 17
    if n.used = true ∧ ((n.st ≠ .idle ∧ n.st ≠ .waiting) ∨ tget 0 n.slots j ≠ 0) then .error failBusy
    else if n.used = false then .error failMissing
    else (s.newBuf (fieldW y 16 16) (fieldW y 15 0) j len (fieldW y 29 27) ((y >>> 21).setWidth 6)).elim (.error failFull) .ok := by
  unfold State.brnew
  simp only [Bool.and_eq_true, Bool.or_eq_true, Bool.not_eq_true', Bool.or_eq_false_iff, beq_eq_false_iff_ne, bne_iff_ne]
  generalize s.newBuf (fieldW y 16 16) (fieldW y 15 0) (fieldW y 20 17) len (fieldW y 29 27) ((y >>> 21).setWidth 6) = o
  cases o <;> rfl

end Machine

open Sys2Proof.Machine

/-- Settles O50: each word by its function in the frame of R418, or by its body. -/
theorem firmwareWordsOfTwoOperandsComplete : Obligations.FirmwareWordsOfTwoOperandsComplete := by
  refine ⟨?_, ?_⟩
  · intro s d r a b hx
    refine ⟨?_, fun w => decode_drover_two⟩
    have hill {body : State → Iss Done} (h : s.destOk r = false ∨ s.srcOk a = false ∨ s.srcOk b = false) :
        s.run (s.fwHead r a b true) body = .next (s.faulted .ILLEGAL 0 0) := by
      refine run_headOf_false (by rw [hx]; rfl) nofun ?_
      obtain h | h | h := h <;> simp [h]
    simp only [List.forall_mem_cons, List.not_mem_nil, false_implies, implies_true, and_true]
    exact ⟨hill, hill, hill, hill, hill, hill⟩
  · intro s u p q q' w d r a b x y z pl bs hi hd ha hb hr h v gives fails
    have hl := rowHeadR_ok (extra := true) hd ha hb rfl
    obtain ⟨hpops, m, hx, hy⟩ := id h
    have hpop : Popped s u := popped_reads2 h
    have hv : u.myDrv = s.myDrv := congrArg coreDrv hpop.files.cur
    refine ⟨?_, ?_, ?_, ?_, fun hp => ?_, fun hp hload => ?_, fun hatom hrel => ?_, fun hbad => ?_, fun h1 hmax hres => ?_⟩
    · intro c bad busy full
      have hload : exec (.qload d r a b) s = s.run (headOf .X (s.destOk r && s.srcOk a && s.srcOk b && true)) fun s =>
          s.fw2 d r a b loadSlot := rfl
      have hf := loadSlot_eq u x y
      rw [hv] at hf
      refine ⟨fun hbad => ?_, fun hbad hbusy => ?_, fun hbad hbusy hfull => ?_, fun hbad hbusy hfull => ?_⟩
      · exact exec_fw2_fails hload hi hl hr h (c := 0x82) (hf.trans (if_pos hbad))
      · exact exec_fw2_fails hload hi hl hr h (c := 0x83) (hf.trans ((if_neg hbad).trans (if_pos hbusy)))
      · exact exec_fw2_fails hload hi hl hr h (c := 0x86) (hf.trans ((if_neg hbad).trans ((if_neg hbusy).trans (if_pos hfull))))
      · exact exec_fw2 hload hi hl hr h (hf.trans ((if_neg hbad).trans ((if_neg hbusy).trans (if_neg hfull))))
    · intro c t t'
      have hset : exec (.prio d r a b 0) s = s.run (headOf .X (s.destOk r && s.srcOk a && s.srcOk b && true)) fun s =>
          s.fw2 d r a b prioSet := rfl
      have hf := prioSet_eq u x y
      rw [hv] at hf
      refine ⟨fun hbad => ?_, fun hx hok => ?_⟩
      · exact exec_fw2_fails hset hi hl hr h (c := 0x82) (hf.trans (if_pos hbad))
      · have hgood := not_or.2 ⟨Nat.not_lt.2 hx, Bool.eq_false_iff.1 hok⟩
        refine ⟨fun h7 => ?_, fun h7 => ?_⟩
        · exact exec_fw2_fails hset hi hl hr h (c := 0x83) (hf.trans ((if_neg hgood).trans (if_pos h7)))
        · exact exec_fw2 hset hi hl hr h (hf.trans ((if_neg hgood).trans (if_neg (Nat.not_lt.2 h7))))
    · intro site f
      have hnew : exec (.flknew d r a b 0) s = s.run (headOf .X (s.destOk r && s.srcOk a && s.srcOk b && true)) fun s =>
          s.fw2 d r a b fun s x y => s.flockNew x (fieldW y 2 0) := rfl
      have hf := flockNew_eq u x (fieldW y 2 0)
      rw [hv] at hf
      refine ⟨fun hbad => ?_, fun hx hflocks hfold => ?_⟩
      · exact exec_fw2_fails hnew hi hl hr h (c := 0x85) (hf.trans (if_pos hbad))
      · have hgood := not_or.2 ⟨Nat.not_lt.2 hx, not_or.2 ⟨ne_false_of_eq_true hflocks, ne_false_of_eq_true hfold⟩⟩
        refine ⟨fun hfull => ?_, fun e hfree => ?_⟩
        · exact exec_fw2_fails hnew hi hl hr h (c := 0x86) (hf.trans ((if_neg hgood).trans (by rw [hfull]; rfl)))
        · exact exec_fw2 hnew hi hl hr h (hf.trans ((if_neg hgood).trans (by rw [hfree])))
    · intro mask
      refine ⟨fun k hk => ⟨fun hend => run_headOf hi hl ?_, fun hw ht => ?_⟩, fun hk => ⟨fun hend => run_headOf hi hl ?_, fun h0 hm => ?_⟩⟩
      · simp only [hpops, hr, hx, hy, ok_bind, hk]
        exact if_pos (by rw [Bool.or_eq_true]; exact hend)
      · refine run_stall (h := s.fwHead r a b true) hi hl nofun ?_
        simp only [hpops, hr, hx, hy, ok_bind, hk, hw, ht]
        rfl
      · simp only [hpops, hr, hx, hy, ok_bind, hk]
        refine if_pos ?_
        simpa using hend
      · intro k
        refine run_headOf_stall hi hl ?_
        simp only [hpops, hr, hx, hy, ok_bind, hk]
        refine if_neg ?_
        have h0 : s.causes (x.toNat % 16 &&& 11) = 0 := h0
        simpa [h0] using hm
    · intro c
      have hcorrupt : s.qcbCorrupt s.myDrv c = u.qcbCorrupt v c := (qcbCorrupt_eq hpop ..).symm
      have hc : u.liveQ s.myDrv x.toNat = c := rfl
      have hgood (hq : x.toNat ≤ 4095) (hok : u.qcbCorrupt v c = false) : (decide (4095 < x.toNat) || u.qcbCorrupt v c) = false := by
        simp only [hok, Nat.not_lt.2 hq, decide_false, Bool.or_false]
      have hask : s.queueWho s.myDrv c = s.queueWho v c := rfl
      clear_value c
      refine ⟨fun hbad => run_headOf hi hl ?_, fun hq hok => ⟨fun hst => run_headOf hi hl ?_, fun hst hread => ⟨fun hlt => run_headOf hi hl ?_,
        fun hle hfetch => run_headOf hi hl ?_⟩⟩⟩
      · simp only [hpops, hr, hx, hy, ok_bind, hp, ← failW_eq, hc, hcorrupt]
        exact if_pos (by rw [Bool.or_eq_true, decide_eq_true_iff]; exact hbad)
      · simp only [hpops, hr, hx, hy, ok_bind, hp, ← failW_eq, hc, hcorrupt, hgood hq hok]
        exact if_pos (bne_iff_ne.2 hst)
      · simp only [hpops, hr, hx, hy, ok_bind, hp, hc, hcorrupt, hgood hq hok, hask, hread, hst, Nat.div_eq_of_lt hlt]
        rfl
      · have hne : (leNat bs / 2 ^ 24 == 0) = false := beq_false_of_ne (Nat.ne_of_gt (Nat.div_pos hle (by decide)))
        simp only [hpops, hr, hx, hy, ok_bind, hp, hc, hcorrupt, hgood hq hok, hask, hread, hst, hne, hfetch]
        rfl
    · intro c l
      have hc : s.liveQ s.myDrv y.toNat = c := rfl
      have hlanes : bytesLanes 16 bs = l := rfl
      clear_value c l
      have hgood (hq : y.toNat ≤ 4095) : decide (4095 < y.toNat) = false := decide_eq_false (Nat.not_lt.2 hq)
      refine ⟨fun hq => ?_, fun hq hbad => run_headOf hi hl ?_, fun hq hform hbad => run_headOf hi hl ?_, fun hq hform hok hrel =>
        ⟨fun hdisp => run_headOf hi hl ?_, fun k hdisp => run_headOf hi hl ?_⟩⟩
      · by_cases hform : malformed { c with lgv := true, fold := 0 } ((pw l 0 &&& 0xFFFF00FF) :: l.drop 1) = true
        · refine .inl (run_headOf hi hl ?_)
          simp only [hpops, hr, hx, hy, ok_bind, hp, hload, hc, hlanes, ← failW_eq, if_neg (Nat.not_le.2 hq), hform]
          rfl
        · refine .inr (run_headOf hi hl ?_)
          simp only [hpops, hr, hx, hy, ok_bind, hp, hload, hc, hlanes, ← failW_eq, if_neg (Nat.not_le.2 hq), hform, decide_eq_true hq]
          rfl
      · simp only [hpops, hr, hx, hy, ok_bind, hp, hload, hc, hlanes, ← failW_eq, if_pos hq, hbad]
        rfl
      · have hbad : s.qcbCorrupt s.myDrv c = true := hbad
        simp only [hpops, hr, hx, hy, ok_bind, hp, hload, hc, hlanes, ← failW_eq, if_pos hq, hform, hgood hq, hbad]
        rfl
      · have hok : s.qcbCorrupt s.myDrv c = false := hok
        simp only [hpops, hr, hx, hy, ok_bind, hp, hload, hc, hlanes, if_pos hq, hform, hgood hq, hok, hrel, hdisp]
        rfl
      · have hok : s.qcbCorrupt s.myDrv c = false := hok
        simp only [hpops, hr, hx, hy, ok_bind, hp, hload, hc, hlanes, if_pos hq, hform, hgood hq, hok, hrel, hdisp, ← failW_eq]
        rfl
    · intro req
      refine ⟨fun lid htrig => run_headOf hi hl ?_, fun k htrig => run_headOf hi hl ?_⟩
      · have htrig : q'.trigger s.myDrv { LaunchReq.zero with gid := x.toNat, patch := y, asid := s.mgmt.fwasid } = .ok (.ok lid, w) := htrig
        simp only [hpops, hr, hx, hy, ok_bind, hatom, hrel, htrig]
      · have htrig : q'.trigger s.myDrv { LaunchReq.zero with gid := x.toNat, patch := y, asid := s.mgmt.fwasid } = .ok (.error k, w) := htrig
        simp only [hpops, hr, hx, hy, ok_bind, hatom, hrel, htrig, ← failW_eq, beq_iff_eq]
        rfl
    · have hbad : (x.toNat == 0 || decide (2 ^ 40 < x.toNat) || fieldW y 63 30 != 0) = true := by
        simp only [Bool.or_eq_true, decide_eq_true_iff, beq_iff_eq, bne_iff_ne, or_assoc]
        exact hbad.imp_left fun h0 => by rw [h0]; rfl
      have hcode : (match u.brnew x.toNat y with | .error c => c | .ok _ => failStale) ∈ failCodes := by
        split
        · next hk => exact brnew_error_mem hk
        · decide
      refine ⟨_, min_mem (freeFail_mem u) hcode, run_headOf hi hl ?_⟩
      simp only [hpops, hr, hx, hy, ok_bind, ← failW_eq]
      exact if_pos hbad
    · intro e k j n taken
      have hgood : (x.toNat == 0 || decide (2 ^ 40 < x.toNat) || fieldW y 63 30 != 0) = false := by
        simp only [Bool.or_eq_false_iff, beq_eq_false_iff_ne, decide_eq_false_iff_not, bne_eq_false_iff_eq]
        exact ⟨⟨by omega, Nat.not_lt.2 hmax⟩, hres⟩
      have hok {z : W64} {t : State} (ho : u.brnew x.toNat y = .ok (z, t)) : gives (.brnew d r a b) z t := by
        refine run_headOf hi hl ?_
        simp only [hpops, hr, hx, hy, ok_bind, hgood, ho]
        rfl
      have herr {c : Nat} (ho : u.brnew x.toNat y = .error c) : fails (.brnew d r a b) c := by
        refine run_headOf hi hl ?_
        simp only [hpops, hr, hx, hy, ok_bind, hgood, ho, ← failW_eq]
        rfl
      have hnew := brnew_eq u x.toNat y
      rw [node_eq hpop] at hnew
      refine ⟨fun hn => ?_, fun hn htaken => ?_, fun hn htaken => ⟨fun hnone => ?_, fun hsome => ?_⟩⟩
      · exact herr (hnew.trans ((if_neg (fun h => absurd h.1 (Bool.eq_false_iff.1 hn))).trans (if_pos hn)))
      · exact herr (hnew.trans (if_pos ⟨hn, htaken⟩))
      · exact herr (hnew.trans ((if_neg (fun h => htaken h.2)).trans ((if_neg (ne_false_of_eq_true hn)).trans (by rw [hnone]; rfl))))
      · exact hok (hnew.trans ((if_neg (fun h => htaken h.2)).trans ((if_neg (ne_false_of_eq_true hn)).trans (by rw [hsome]; rfl))))

end Sys2Proof

/-! SUPPORT. The steps of a strand without a word of its own (R19, R122, R131, R278, R424). -/

namespace Sys2Proof

namespace Machine

variable {s u : State} {e : Instr}

/-- A step that executes a word ends as the word does. -/
theorem step_as_word {o : Host.Outcome State Fault Refusal} (h : o = exec e u) : ∃ v, exec e u = .next v ∧ o = .next v := by
  obtain ⟨v, hv⟩ := exec_next e u
  exact ⟨v, hv, h.trans hv⟩

/-- The condition under which `SLIP_RELEASE` moves (R19). -/
theorem slipRelease_moves {c : CoreId} {σ : Strand} (hc : s.canIssue c σ = true) (hh : ((s.team c).str σ).hold = .stall)
    (hf : slipFree (s.team c) σ = true) : (s.canIssue c σ && ((s.team c).str σ).hold == .stall && slipFree (s.team c) σ) = true := by
  rw [hc, hh, hf]
  rfl

end Machine

open Sys2Proof.Machine

/-- Settles O51: each step where its condition holds. -/
theorem strandStepsComplete : Obligations.StrandStepsComplete := by
  intro s u l n w t d r a b k p o x c σ st
  refine ⟨fun hc => ⟨fun hl => ⟨?_, fun hh hf => ?_⟩, fun hl hh hf hfetch hw => ?_⟩, fun hword hv ht => ?_, ?_, fun hword hx hlate => ?_⟩
  · show execLoopEnd s = _
    unfold execLoopEnd
    dsimp only
    rw [if_pos hc, hl]
  · show execSlipRelease s = _
    unfold execSlipRelease
    dsimp only
    rw [if_pos (slipRelease_moves hc hh hf), hl]
  · show execSlipRelease s = _
    unfold execSlipRelease
    dsimp only
    rw [if_pos (slipRelease_moves hc hh hf), hl, hfetch]
    dsimp only
    rw [hw]
    rfl
  · refine step_as_word ?_
    show execWaittExpire s = execWaitt t a k u
    have hlate : (u.nsAt u.cur.site).ult u.st.waitT = false := by
      rw [BitVec.ult_eq_decide, decide_eq_false_iff_not]
      exact Nat.not_lt.2 ht
    unfold execWaittExpire
    rw [hword]
    dsimp only
    rw [hv, hlate]
    rfl
  · simp only [List.forall_mem_cons, List.not_mem_nil, false_implies, implies_true, and_true]
    refine ⟨fun hword hp => step_as_word ?_, fun hword hp => step_as_word ?_⟩
    · show execPolledWaitRetry s = execLdf t d r a p o u
      unfold execPolledWaitRetry
      rw [hword]
      exact if_pos hp
    · show execPolledWaitRetry s = execStf t d r a p o u
      unfold execPolledWaitRetry
      rw [hword]
      exact if_pos hp
  · refine step_as_word ?_
    show execSwaitTimeout s = execSwait d r a b u
    unfold execSwaitTimeout
    rw [hword, hx]
    exact if_pos hlate

end Sys2Proof

/-! SUPPORT. The steps of teams (R38, R39, R132, R145, R179, R180, R184, R187). -/

namespace Sys2Proof

namespace Machine

variable {s : State} {c : CoreId} {t : TeamSt}

theorem resumed_id (t : TeamSt) : (resumed t).1.id = t.id := by
  unfold resumed
  split
  · rfl
  split
  · rfl
  split <;> rfl

theorem resumed_leaseRq (t : TeamSt) : (resumed t).1.leaseRq = t.leaseRq := by
  unfold resumed
  split
  · rfl
  split
  · rfl
  split <;> rfl

theorem resumed_leave (h : t.preNow = false) : (resumed t).2 = none := by
  unfold resumed
  rw [h]
  rfl

/-- The swap token where the planes flip (R179, R180). -/
theorem flip_eq (hrun : (s.core c).run = false) (hst : (s.core c).shadow.st = .ready) (hpre : (s.core c).shadow.pre = none)
    (ht : (s.core c).shadow.team = some t) : s.flip c = s.setCore c { s.core c with
      run := true,
      team := { (resumed t).1 with
        brands := if (s.core c).shadow.fresh then (match (resumed t).1.id with | some i => s.startViews i | none => []) else (resumed t).1.brands,
        leaseRq := false },
      active := { (s.core c).shadow with st := .active, team := none, pre := none, fresh := false }, shadow := Plane.reset,
      l1 := [], leave := (resumed t).2, leaveAt := s.runNs, halted := false, waitmax := s.waitmaxOf (resumed t).1, waitAcc := 0,
      waitAt := none, swapHeld := false, lease := if (resumed t).1.leaseRq then .want else .none, leaseN := 0, leaseT := s.cyc,
      leaseU := s.cyc, tlbi := none, lastIss := s.cyc, since := s.cyc } := by
  unfold State.flip
  simp only [hrun, hst, hpre, ht]
  rfl

/-- What asking a team that was not asked yet to leave makes of its core (R184). -/
theorem askLeave_of_none {k : CoreSt} (h : k.leave = none) (l : Leave) (now : Nat) :
    k.askLeave l now = { k with leave := some l, leaveAt := now } := by
  unfold CoreSt.askLeave
  rw [h]
  rfl

/-- The wait of a team that is away is over (R187). -/
theorem condMet_of {a : Away} (h : a.conds = [] ∨ ∃ t, WaitCond.time t ∈ a.conds ∧ t ≤ (s.nsAt a.from_.site).toNat) :
    s.condMet a = true := by
  unfold State.condMet
  obtain h | ⟨t, hmem, ht⟩ := h
  · rw [h]
    rfl
  · rw [Bool.or_eq_true, List.any_eq_true]
    exact .inr ⟨_, hmem, decide_eq_true ht⟩

theorem preempt_eq (hrun : (s.core c).run = true) (hleave : (s.core c).leave = none) (hcls : coreCls c ≠ .drover)
    (hexit : begunExit (s.core c).team = false) : s.preempt c =
      if phaseHeld (s.core c).team then s.setTeam c { (s.core c).team with preHeld := some .X }
      else s.setCore c ((s.core c).askLeave .preempt s.runNs) := by
  unfold State.preempt
  simp only [hrun, hleave, beq_false_of_ne hcls, hexit]
  rfl

theorem preempt_exited (hexit : begunExit (s.core c).team = true) : s.preempt c = s := by
  unfold State.preempt
  simp only [hexit, Bool.or_true, if_true]

/-- The save of a team that is asked to leave, other than by an exception (R184). -/
theorem teamSaveComplete_eq {l : Leave} (h : (s.core s.ev.core).leave = some l) (hl : ∀ τ p e x, l ≠ .entry τ p e x)
    (hcls : coreCls s.ev.core ≠ .drover) (hph : phaseGoesOn (s.core s.ev.core) = false) : execTeamSaveComplete s =
      .next (if saveReady ((s.drainTeam s.ev.core).core s.ev.core) then
        (s.drainTeam s.ev.core).orWaited ((s.drainTeam s.ev.core).leaveCore s.ev.core l) else s.drainTeam s.ev.core) := by
  unfold execTeamSaveComplete
  cases l with
  | entry τ p e x => exact absurd rfl (hl τ p e x)
  | _ =>
    simp only [h, beq_false_of_ne hcls, hph]
    rfl

end Machine

open Sys2Proof.Machine

/-- Settles O52: each step where its condition holds. -/
theorem teamStepsComplete : Obligations.TeamStepsComplete := by
  intro s t l a σ pc code addr c k
  have hc : s.ev.core = c := rfl
  have hk : s.core c = k := rfl
  clear_value k
  clear_value c
  refine ⟨fun hst => ?_, fun hst => ?_, fun hrun hst hpre ht => ?_, fun hrun hleave hcls => ⟨fun hd hserr => ?_, fun hd hserr => ?_,
    fun hexit => ⟨fun hph => ?_, fun hph => ?_, fun hw hcount hph => ?_, fun hw hcount hph => ?_⟩, fun hexit => ⟨?_, ?_⟩⟩,
    fun hleave => ⟨fun henter => ?_, fun henter => ?_⟩, fun hleave hl hcls hph => ⟨fun hready => ?_, fun hready => ?_⟩,
    fun ha hh => ⟨fun hdead hready hcond => ?_, fun hdead hboard => ?_⟩⟩
  · show execPlaneLoadComplete s = _
    unfold execPlaneLoadComplete
    simp only [hc, hk, hst]
    rfl
  · show execPlaneLoadComplete s = _
    unfold execPlaneLoadComplete
    simp only [hc, hk, hst]
    rfl
  · intro k'
    have hk' : k' = (s.flip c).core c := rfl
    clear_value k'
    subst hk
    rw [flip_eq hrun hst hpre ht, core_setCore] at hk'
    subst hk'
    refine ⟨rfl, rfl, rfl, rfl, rfl, rfl, resumed_leave, ?_, ?_⟩
    · show s.waitmaxOf (resumed t).1 = _
      unfold State.waitmaxOf
      rw [resumed_id]
    · show (if (resumed t).1.leaseRq then LeaseSt.want else .none) = _
      rw [resumed_leaseRq]
  · show execTeamComplete s = _
    unfold execTeamComplete
    simp only [hc, hk, hrun, beq_false_of_ne hcls, hd, hleave, hserr]
    rfl
  · show execTeamComplete s = _
    unfold execTeamComplete
    simp only [hc, hk, hrun, beq_false_of_ne hcls, hd, hleave, hserr]
    rfl
  · show execPreemptRequest s = _
    subst hk
    rw [execPreemptRequest, hc, preempt_eq hrun hleave hcls hexit, hph, askLeave_of_none hleave]
    rfl
  · show execPreemptRequest s = _
    subst hk
    rw [execPreemptRequest, hc, preempt_eq hrun hleave hcls hexit, if_pos hph]
  · show execLongWaitSwap s = _
    unfold execLongWaitSwap
    simp only [hc, hk, hrun, bne_iff_ne.2 hcls, hleave, Option.isSome_iff_ne_none.2 hw, decide_eq_true hcount, hexit, hph,
      askLeave_of_none hleave]
    rfl
  · show execLongWaitSwap s = _
    unfold execLongWaitSwap
    simp only [hc, hk, hrun, bne_iff_ne.2 hcls, hleave, Option.isSome_iff_ne_none.2 hw, decide_eq_true hcount, hexit, hph]
    rfl
  · show execPreemptRequest s = _
    subst hk
    rw [execPreemptRequest, hc, preempt_exited hexit]
  · show execLongWaitSwap s = _
    unfold execLongWaitSwap
    simp only [hc, hk, hexit, Bool.not_true, Bool.and_false, Bool.false_eq_true, if_false]
  · show execTeamSaveComplete s = _
    unfold execTeamSaveComplete State.enterPending
    simp only [hc, hk, hleave, henter, if_true]
  · show execTeamSaveComplete s = _
    unfold execTeamSaveComplete State.enterPending
    simp only [hc, hk, hleave, henter]
    rfl
  · show execTeamSaveComplete s = _
    rw [teamSaveComplete_eq (l := l) (by rw [hc, hk, hleave]) hl (by rw [hc]; exact hcls) (by rw [hc, hk]; exact hph), hc]
    simp only [hready, if_true]
  · show execTeamSaveComplete s = _
    rw [teamSaveComplete_eq (l := l) (by rw [hc, hk, hleave]) hl (by rw [hc]; exact hcls) (by rw [hc, hk]; exact hph), hc]
    simp only [hready]
    rfl
  · show execTeamRequeue s = _
    unfold execTeamRequeue
    simp only [ha, hh, hdead, hready, condMet_of hcond]
    rfl
  · show execTeamRequeue s = _
    unfold execTeamRequeue
    simp only [ha, hh, hdead, hboard]
    rfl

end Sys2Proof

/-! SUPPORT. The steps of nodes and launches (R372, R374, R375, R380, R388 to R391, R395). -/

namespace Sys2Proof

namespace Machine

variable {s : State} {d k : Nat} {e : Nat × Node}

/-- The one node of a class that is ready is its head. -/
theorem chooseHeads_one (h : s.readyNodes d k = [e]) (hv : e.2.variant = none) (hf : s.foldOn d e.2.fold = true) :
    s.chooseHeads d k [] = s.chooseNode d e.1 := by
  have hbut : s.nodesBut d k [] = [e] := by
    unfold State.nodesBut
    rw [h]
    rfl
  have hhead : s.atHead d [e] e = true := by
    unfold State.atHead
    simp only [List.takeWhile_cons, bne_self_eq_false, Bool.false_eq_true, if_false, List.all_nil]
  unfold State.chooseHeads
  simp only [hbut, List.filter_cons, hv, Option.isNone_none, hf, hhead, Bool.and_self, if_true, List.filter_nil, List.foldl_cons,
    List.foldl_nil]

theorem nodeOver_iff (n : Node) : nodeOver n = true ↔ n.st ∈ [NodeSt.done, NodeSt.failed, NodeSt.cancelled] := by
  simp only [nodeOver, Bool.or_eq_true, beq_iff_eq, List.mem_cons, List.not_mem_nil, or_false, or_assoc]

end Machine

open Sys2Proof.Machine

/-- Settles O53: each step where its condition holds. -/
theorem nodeAndLaunchStepsComplete : Obligations.NodeAndLaunchStepsComplete := by
  intro s u g l k time killed rest later e d gi
  have hd : s.ev.site = d := rfl
  have hgi : s.ev.n = gi := rfl
  clear_value d gi
  refine ⟨?_, chooseHeads_one, fun h => ?_, fun x h => ?_, fun hq => ?_, ⟨_, rfl, rfl⟩, fun hl => ⟨fun hg ht => ?_, fun hg ht => ⟨fun hle hpre => ?_,
    fun hle => ?_⟩, fun hg hc => ⟨?_, fun hall hin => ?_, fun hlate hroll => ?_⟩, fun hg hc hle => ?_⟩,
    fun hgraph hlaunch hst hteams hover hend => ?_⟩
  · intro v got
    have hexec : exec .nodeDispatch s = .next (s.serveClass d gi 8 []) := by rw [← hd, ← hgi]; rfl
    have hserve : s.serveClass d gi 8 [] = match v.nextNode d gi [] with
        | none => v
        | some e => match v.dispatchNext d e.1 (e.2.variant.getD false) with
          | some w => w
          | none => v.serveClass d gi 7 [e.2.fold] := rfl
    rw [hexec, hserve]
    refine ⟨fun hn => ⟨fun hgot => ?_, fun hgot => ?_⟩, fun hn => ?_⟩
    · have hgot : v.dispatchNext d e.1 (e.2.variant.getD false) = some u := hgot
      simp only [hn, hgot]
    · have hgot : v.dispatchNext d e.1 (e.2.variant.getD false) = none := hgot
      simp only [hn, hgot]
    · simp only [hn]
  · unfold State.chooseNode
    simp only [h]
  · unfold State.chooseNode
    simp only [h]
  · intro v n m
    refine ⟨fun hst hle => ?_, fun hlt => ?_⟩
    · show execInstanceComplete s = _
      unfold execInstanceComplete
      simp only [hd, hq]
      refine congrArg Host.Outcome.next (if_pos ?_)
      rw [Bool.and_eq_true, beq_iff_eq, decide_eq_true_iff]
      exact ⟨hst, hle⟩
    · show execInstanceComplete s = _
      unfold execInstanceComplete
      simp only [hd, hq]
      refine congrArg Host.Outcome.next (if_neg ?_)
      rw [Bool.and_eq_true, beq_iff_eq, decide_eq_true_iff]
      exact fun h => absurd h.2 (Nat.not_le.2 hlt)
  · show execLaunchStart s = _
    unfold execLaunchStart
    simp only [hd, hgi, hl, ht, hg]
    rfl
  · show execTimedLaunchPreplace s = _
    unfold execTimedLaunchPreplace
    simp only [hd, hgi, hl, ht, hg, if_pos hle, hpre]
    rfl
  · show execTimedLaunchFire s = _
    unfold execTimedLaunchFire
    simp only [hd, hgi, hl, ht, hg, decide_eq_true hle]
    rfl
  · show execTimedLaunchPreplace s = _
    unfold execTimedLaunchPreplace
    simp only [hd, hgi, hl, hg, hc]
    rfl
  · have hall : ((foldsOf g).all fun f => l.reserved.contains f) = true := by simpa using hall
    have hin : s.gangLate l = false := decide_eq_false (Nat.not_lt.2 hin)
    show execGangCommit s = _
    unfold execGangCommit
    simp only [hd, hgi, hl, hg, hc, hall, hin]
    rfl
  · have hlate : s.gangLate l = true := decide_eq_true hlate
    show execGangRollbackTimeout s = _
    unfold execGangRollbackTimeout
    simp only [hd, hgi, hl, hg, hc, hlate, hroll]
    rfl
  · show execGangStart s = _
    unfold execGangStart
    simp only [hd, hgi, hl, hg, hc, decide_eq_true hle]
    rfl
  · have hall : (g.nodes.all fun n => nodeOver (s.node d n)) = true :=
      List.all_eq_true.2 fun n hn => (nodeOver_iff _).2 (hover n hn)
    have hdone : (if (g.nodes.all fun n => (s.node d n).st == .done) = true then 0 else 1) =
        if ∀ n ∈ g.nodes, (s.node d n).st = .done then 0 else 1 := by
      simp only [List.all_eq_true, beq_iff_eq]
    show execLaunchEnd s = _
    unfold execLaunchEnd
    simp only [hd, hgi, hgraph, hlaunch, hst, hall, hteams, hdone, hend]
    rfl

end Sys2Proof

/-! SUPPORT. The packet processor where it serves a packet (R402, R413). -/

namespace Sys2Proof

namespace Machine

variable {s u p q : State} {d k : Nat} {bs bs' : List Byte} {kinds : Nat → Bool}

/-- The packet of the chosen slot is served where it is of a type that the step names. -/
theorem examine_eq (hst : (s.slot d k).st = .serving) (hlook : (s.slot d k).look = true) (hbar : (s.slot d k).barrier = none)
    (hr : s.askRead (s.queueWho d (s.slot d k).copy) (packetAddr (s.slot d k).copy) 4 4 = .ok (bs, p))
    (h0 : pktType (BitVec.ofNat 32 (leNat bs)) ≠ 0) (hc : s.isChoice d k (BitVec.ofNat 32 (leNat bs)) = true)
    (hr' : p.askRead (s.queueWho d (s.slot d k).copy) (packetAddr (s.slot d k).copy + 4) 60 4 = .ok (bs', q))
    (hv : q.servePacket d k (BitVec.ofNat 32 (leNat bs) :: bytesLanes 15 bs') = .ok u)
    (hk : kinds (pktType (BitVec.ofNat 32 (leNat bs))) = true) : s.examine d k kinds = u := by
  have h0 : (pktType (BitVec.ofNat 32 (leNat bs)) == 0) = false := beq_false_of_ne h0
  unfold State.examine
  simp only [hst, hlook, hbar, hr, h0, hk, hc, hr', hv, orWaited_ok]
  rfl

/-- The conditions of the barrier-and that holds a queue looked at (R405). -/
theorem barrierAndRelease_eq {l : List W64} {sig : W64} {m : Nat} (hst : (s.slot s.ev.site s.ev.n).st = .serving)
    (hbar : (s.slot s.ev.site s.ev.n).barrier = some (l, sig))
    (hmet : s.barrierMet (s.queueWho s.ev.site (s.slot s.ev.site s.ev.n).copy) l 0
      (fieldW (s.slot s.ev.site s.ev.n).copy.part 4 1) = .ok (m, p)) : execBarrierAndRelease s =
      .next (if m = 15 then
        s.orWaited ((p.barrierSignal s.ev.site s.ev.n sig).bind fun x => x.consumeSlot s.ev.site s.ev.n (s.slot s.ev.site s.ev.n).copy)
      else p.setSlot s.ev.site s.ev.n { s.slot s.ev.site s.ev.n with
        copy := { (s.slot s.ev.site s.ev.n).copy with part := BitVec.ofNat 64 (1 + 2 * m) } }) := by
  unfold execBarrierAndRelease
  simp only [hst, hbar, hmet, beq_iff_eq]
  rfl

end Machine

open Sys2Proof.Machine

/-- Settles O54: each step where its condition holds. -/
theorem graphAndQueueStepsComplete : Obligations.GraphAndQueueStepsComplete := by
  intro s u g l bs bs' p q r rest o m pSig d k v b w
  refine ⟨fun x h => ?_, fun x h => ?_, fun x h => ?_, fun hg => ⟨fun hl => ?_, fun hl => ?_⟩, fun h => ?_, fun x h => ?_, rfl,
    fun hst hlook hbar hr => ?_, fun hst hbar hmet => ⟨fun hm => ?_, fun hm hsig hcons => ?_⟩, fun hrec => ?_⟩
  · show execGraphUpload s = _
    have h : s.upload s.ev.site s.ev.bytes s.ev.list = .ok x := h
    unfold execGraphUpload
    simp only [h]
  · show execGraphUpload s = _
    have h : s.upload s.ev.site s.ev.bytes s.ev.list = .error (.answer x) := h
    unfold execGraphUpload
    simp only [h]
  · show execGraphUpload s = _
    have h : s.upload s.ev.site s.ev.bytes s.ev.list = .error (.wait x) := h
    unfold execGraphUpload
    simp only [h]
  · have hg : s.graphAt s.ev.site s.ev.n = some g := hg
    show execGraphUnload s = _
    unfold execGraphUnload
    simp only [hg, List.isEmpty_eq_false_iff.2 hl]
    rfl
  · intro y
    have hg : s.graphAt s.ev.site s.ev.n = some g := hg
    have hy : s.endGraphBufs s.ev.site g = y := rfl
    clear_value y
    refine ⟨fun hun => ?_, fun h hun hret => ?_, fun hun hret => ?_⟩
    · have hun : y.graphUnmapped s.ev.site g = false := hun
      show execGraphUnload s = _
      unfold execGraphUnload
      simp only [hg, hl, hy, hun]
      rfl
    · have hun : y.graphUnmapped s.ev.site g = true := hun
      have hret : y.returnTables s.ev.site g = .error h := hret
      show execGraphUnload s = _
      unfold execGraphUnload
      simp only [hg, hl, hy, hun, hret]
      rfl
    · have hun : y.graphUnmapped s.ev.site g = true := hun
      have hret : y.returnTables s.ev.site g = .ok u := hret
      show execGraphUnload s = _
      unfold execGraphUnload
      simp only [hg, hl, hy, hun, hret]
      rfl
  · have h : s.triggerSignal s.ev.site s.ev.launch = .ok (o, u) := h
    show execLaunchTrigger s = _
    unfold execLaunchTrigger
    simp only [h]
  · have h : s.triggerSignal s.ev.site s.ev.launch = .error x := h
    show execLaunchTrigger s = _
    unfold execLaunchTrigger
    simp only [h]
    rfl
  · intro w0 h0 hc hr' hv
    have hserve {kinds : Nat → Bool} (hk : kinds (pktType w0) = true) : s.examine d k kinds = u :=
      examine_eq hst hlook hbar hr h0 hc hr' hv hk
    refine ⟨fun h => ?_, fun h => ?_, fun h => ?_, fun h => ?_, fun h => ?_, fun h => ?_⟩
    · exact congrArg Host.Outcome.next (hserve (by simpa using h))
    all_goals exact congrArg Host.Outcome.next (hserve (beq_iff_eq.2 h))
  · refine (barrierAndRelease_eq hst hbar hmet).trans ?_
    rw [if_neg hm]
  · refine (barrierAndRelease_eq hst hbar hmet).trans ?_
    have hsig : p.barrierSignal s.ev.site s.ev.n pSig = .ok q := hsig
    have hcons : q.consumeSlot s.ev.site s.ev.n (s.slot s.ev.site s.ev.n).copy = .ok u := hcons
    rw [if_pos hm, hsig]
    exact congrArg (fun o => Host.Outcome.next (s.orWaited o)) hcons
  · intro x
    have hrec : (s.drv s.ev.site).waitRec = r :: rest := hrec
    refine ⟨fun hfull => ?_, fun hempty => ?_, fun hne hlt => ?_⟩
    · show execFaultRecordEnqueue s = _
      unfold execFaultRecordEnqueue
      simp only [hrec]
      exact congrArg Host.Outcome.next (if_pos hfull)
    · show execFaultRecordEnqueue s = _
      have hlt : ¬1024 ≤ (s.drv s.ev.site).faultQ.length := by rw [show (s.drv s.ev.site).faultQ = [] from hempty]; decide
      have hempty : (s.drv s.ev.site).faultQ.isEmpty = true := List.isEmpty_iff.2 hempty
      unfold execFaultRecordEnqueue
      simp only [hrec]
      exact congrArg Host.Outcome.next ((if_neg hlt).trans (if_pos hempty))
    · show execFaultRecordEnqueue s = _
      have hne : ¬(s.drv s.ev.site).faultQ.isEmpty = true := fun h => hne (List.isEmpty_iff.1 h)
      unfold execFaultRecordEnqueue
      simp only [hrec]
      exact congrArg Host.Outcome.next ((if_neg (Nat.not_le.2 hlt)).trans (if_neg hne))

end Sys2Proof

open Sys2Proof.Machine

namespace Sys2Proof

/-- Settles O55: each step where what it asks for can be had. -/
theorem memorySystemStepsComplete : Obligations.MemorySystemStepsComplete := by
  intro s u l site cl word p bs f h old w e d
  refine ⟨fun hhit => ?_, fun hmiss hwalk => ?_, fun hl2 => ⟨?_, fun hf hown => ?_, fun hf hread => ?_⟩, fun hl2 hreach hcopies => ?_,
    fun hal hat => ?_, fun hne hle hw => ?_, fun hr => ?_, fun hs => ⟨fun hx => ?_, fun hx hres => ?_⟩, rfl, fun ht hl => ?_,
    fun ht hf hw => ?_, fun ht hf hk hw => ?_, fun ht hf => ?_, fun ht hf hp => ⟨fun hd => ?_, fun hd => ?_⟩⟩
  · show execPageWalk s = _
    exact congrArg Host.Outcome.next (if_pos hhit)
  · show execPageWalk s = _
    refine congrArg Host.Outcome.next ((if_neg (Bool.eq_false_iff.1 hmiss)).trans ?_)
    have hwalk : s.walk s.evWho (s.ev.m % 2 ^ 52) (if s.ev.flag then .write else .read) 0 = .ok f := hwalk
    rw [hwalk]
    rfl
  · show execL2Fill s = _
    have hl2 : hasL2 s.evWho.c.site = true := hl2
    unfold execL2Fill
    simp only [hl2]
    rfl
  · show execDirectoryRequest s = _
    have hl2 : hasL2 s.evWho.c.site = true := hl2
    have hf : s.ev.flag = true := hf
    have hown : s.l2Own s.evWho s.evWho.c.site s.ev.n false 0 = .ok u := hown
    unfold execDirectoryRequest
    simp only [hl2, hf, hown]
    rfl
  · show execDirectoryRequest s = _
    have hl2 : hasL2 s.evWho.c.site = true := hl2
    have hf : s.ev.flag = false := hf
    have hread : s.l2Read s.evWho s.evWho.c.site s.ev.n 0 = .ok (bs, u) := hread
    unfold execDirectoryRequest
    simp only [hl2, hf, hread]
    rfl
  · show execDirectoryRequest s = _
    have hl2 : hasL2 s.evWho.c.site = false := hl2
    have hreach : s.reachHome s.evWho (s.ev.n * 64) 0 = .ok u := hreach
    have hcopies : u.reachCopies s.evWho s.ev.n (u.holders s.ev.n) 0 = .ok () := hcopies
    unfold execDirectoryRequest
    simp only [hl2, hreach, Except.bind, hcopies]
    rfl
  · show execSliceAtomic s = _
    have hal : (s.ev.n % atomSize s.ev.op != 0) = false := bne_eq_false_iff_eq.2 hal
    have hat : s.doAtomic s.evWho (.mem s.ev.n .l2) s.ev.op s.ev.word s.ev.word2 0 = .ok (old, u) := hat
    unfold execSliceAtomic
    simp only [hal, hat]
    rfl
  · show execHomeLineWrite s = _
    have hgo : (s.ev.bytes.isEmpty || decide (64 < s.ev.m + s.ev.bytes.length)) = false := by
      rw [List.isEmpty_eq_false_iff.2 hne, decide_eq_false (Nat.not_lt.2 hle)]
      rfl
    have hw : s.cohWrite s.evWho .home (s.ev.n * 64 + s.ev.m) s.ev.bytes 0 = .ok u := hw
    unfold execHomeLineWrite
    simp only [hgo, hw]
    rfl
  · show execHomeLineRead s = _
    have hr : s.cohRead s.evWho .home (s.ev.n * 64) 64 0 = .ok (bs, u) := hr
    unfold execHomeLineRead
    simp only [hr]
    rfl
  · show execPageExpansion s = _
    have hs : s.atStack s.evWho (s.ev.n * 65536) 0 = .ok h := hs
    unfold execPageExpansion
    simp only [hs, hx]
    rfl
  · show execPageExpansion s = _
    have hs : s.atStack s.evWho (s.ev.n * 65536) 0 = .ok h := hs
    have hres : s.makeResident s.evWho h.1 h.2 (s.ev.n * 65536) 0 = .ok u := hres
    unfold execPageExpansion
    simp only [hs, hx, hres]
    rfl
  · show execSoftError s = _
    have ht : s.ev.target = .line l := ht
    unfold execSoftError
    simp only [ht, beq_false_of_ne hl]
    rfl
  · show execSoftError s = _
    have ht : s.ev.target = .cspWord site cl word := ht
    have hf : s.ev.flag = false := hf
    unfold execSoftError
    simp only [ht, hf, decide_eq_false (Nat.not_le.2 hw)]
    rfl
  · show execSoftError s = _
    have ht : s.ev.target = .dspWord site word := ht
    have hf : s.ev.flag = false := hf
    unfold execSoftError
    simp only [ht, hf, beq_false_of_ne hk, decide_eq_false (Nat.not_le.2 hw)]
    rfl
  · show execSoftError s = _
    have ht : s.ev.target = .counter l := ht
    have hf : s.ev.flag = false := hf
    unfold execSoftError
    simp only [ht, hf]
    rfl
  · show execSoftError s = _
    have ht : s.ev.target = .l2Piece site l := ht
    have hf : s.ev.flag = false := hf
    unfold execSoftError
    simp only [ht, hf, hp, hd]
    rfl
  · show execSoftError s = _
    have ht : s.ev.target = .l2Piece site l := ht
    have hf : s.ev.flag = false := hf
    unfold execSoftError
    simp only [ht, hf, hp, hd]
    rfl

end Sys2Proof

/-! SUPPORT. CXL extents, and accesses that do not complete (R345 to R349, R455, R461). -/

namespace Sys2Proof

namespace Machine

variable {s v : State} {e x : Extent} {k a : Nat} {w : Who} {ea : W64}

theorem tget?_tset {α : Type} (t : Tab α) (k : Nat) (v : α) : tget? (tset t k v) k = some v := by
  induction t with
  | nil => exact if_pos rfl
  | cons e t ih =>
    obtain ⟨i, w⟩ := e
    unfold tset
    split
    · exact if_pos rfl
    split
    · exact if_pos rfl
    · next hne => exact (if_neg (Ne.symm hne)).trans ih

/-- A place without a cell reads as nothing. -/
theorem cget_of_no_cell {m : List Host.Cell} (h : ∀ c ∈ m, c.1 ≠ a) : cget m a = 0 := by
  induction m with
  | nil => rfl
  | cons c m ih =>
    unfold cget
    rw [if_neg (h c List.mem_cons_self), ih fun c hc => h c (List.mem_cons_of_mem _ hc)]
    exact ite_self _

/-- What is cleared reads as nothing, whatever the form of the memory. -/
theorem cget_cclear_inside (m : List Host.Cell) {n : Nat} (h1 : a ≤ k) (h2 : k < a + n) : cget (cclear m a n) k = 0 := by
  refine cget_of_no_cell fun c hc => ?_
  rintro rfl
  obtain ⟨-, hc⟩ := List.mem_filter.1 hc
  rw [Bool.or_eq_true, decide_eq_true_iff, decide_eq_true_iff] at hc
  omega

theorem far_sites {site : Nat} (h : Config.kindAt site = .far) : site = 21 ∨ site = 38 := by
  unfold Config.kindAt at h
  dsimp only at h
  split at h
  · cases h
  split at h
  · split at h
    · cases h
    · split at h <;> cases h
  split at h
  · next h2 =>
    rw [beq_iff_eq] at h2
    split at h <;> cases h
    omega
  split at h
  · next h3 =>
    rw [beq_iff_eq] at h3
    split at h <;> cases h
    omega
  · cases h

/-- The entries that an extent replaces taken off both tables (R349). -/
def State.withoutGone (s : State) (x : Extent) : State :=
  ([21, 38] : List Nat).foldl (fun (u : State) y => u.setDie y { u.die y with extents := goneUnder x (u.die y).extents }) s

theorem enterExtent_eq (s : State) (site : Nat) (x : Extent) : s.enterExtent site x =
    match tfree ((s.withoutGone x).die site).extents 256 with
    | some k => (s.withoutGone x).setDie site
        { (s.withoutGone x).die site with extents := tset ((s.withoutGone x).die site).extents k x }
    | none => s := rfl

theorem extents_withoutGone {site : Nat} (hsite : site = 21 ∨ site = 38) :
    ((s.withoutGone x).die site).extents = goneUnder x (s.die site).extents := by
  unfold State.withoutGone
  rw [List.foldl_cons, List.foldl_cons, List.foldl_nil]
  obtain rfl | rfl := hsite
  · rw [die_setDie_ne _ _ (by decide), die_setDie]
  · rw [die_setDie, die_setDie_ne _ _ (by decide)]

/-- An extent entered stands in the lowest free entry of its die's table (R345, R349). -/
theorem extentAt_enterExtent {site : Nat} (hsite : site = 21 ∨ site = 38) (hx : x.gone = false)
    (hk : tfree (goneUnder x (s.die site).extents) 256 = some k) : (s.enterExtent site x).extentAt site k = some x := by
  rw [← extents_withoutGone hsite] at hk
  rw [enterExtent_eq, hk]
  generalize s.withoutGone x = u
  show (tget? ((u.setDie site _).die site).extents k).filter _ = _
  rw [die_setDie, tget?_tset, Option.filter_some, hx]
  rfl

/-- Whether no route leads to the home of a far line (R305). -/
def State.farCut (s : State) (w : Who) (pa : Nat) : Bool :=
  match s.homeSite w.c.site w.fold pa with
  | some h => !s.twoWay w.c.site h
  | none => false

theorem reachHome_far {pa : Nat} (hfar : farBase ≤ pa) : s.reachHome w pa ea = match s.extentOf pa with
    | none => flt .EXTENT_GONE ea 0
    | some e => if s.farCut w pa then flt .POISON ea 0 else if e.sweep then hold else (s.lapsed 0 ea).map fun _ => s := if_pos hfar

/-- The far tier at its home with no lapse, and with one (R345, R346). -/
theorem reachHome_late {pa : Nat} (hl : s.lapse = some (0, a)) (hfar : farBase ≤ pa)
    (ho : ({ s with lapse := none } : State).reachHome w pa ea = .ok v) : s.reachHome w pa ea = flt .FAR_TIMEOUT ea a := by
  have hlapsed : s.lapsed 0 ea = flt .FAR_TIMEOUT ea a := by
    unfold State.lapsed
    rw [hl]
    rfl
  have hext : ({ s with lapse := none } : State).extentOf pa = s.extentOf pa := rfl
  have hcut : ({ s with lapse := none } : State).farCut w pa = s.farCut w pa := rfl
  rw [reachHome_far hfar] at ho ⊢
  rw [hext] at ho
  cases he : s.extentOf pa with
  | none =>
    rw [he] at ho
    cases ho
  | some e =>
    rw [he] at ho
    dsimp only at ho ⊢
    rw [hcut] at ho
    split at ho
    · cases ho
    split at ho
    · cases ho
    · next hway hsweep => rw [if_neg hway, if_neg hsweep, hlapsed]; rfl

theorem hostWay_late (hl : s.lapse = some (1, a)) (ho : ({ s with lapse := none } : State).hostWay w ea = .ok ()) :
    s.hostWay w ea = flt .FAR_TIMEOUT ea a := by
  unfold State.hostWay at ho ⊢
  have hdie : ({ s with lapse := none } : State).hostDie w = s.hostDie w := rfl
  rw [hdie] at ho
  cases hd : s.hostDie w with
  | none =>
    rw [hd] at ho
    cases ho
  | some d =>
    rw [hd] at ho
    dsimp only at ho ⊢
    split at ho
    · next hway =>
      refine (if_pos hway).trans ?_
      unfold State.lapsed
      rw [hl]
      rfl
    · cases ho

/-- A PEER access on its way fails as its lapse says (R461). -/
theorem peerWay_late (ho : ({ s with lapse := none } : State).peerWay w k ea = .ok ()) : s.peerWay w k ea = s.lapsed 2 ea := by
  unfold State.peerWay at ho ⊢
  dsimp only at ho ⊢
  split at ho
  · cases ho
  · next hports =>
    split at ho
    · next hway => exact (if_neg hports).trans (if_pos hway)
    · cases ho

theorem extent_releasing (he : s.extentAt s.ev.site s.ev.n = some e) (hr : e.releasing = true) :
    execReleaseSweep s = .next (if !e.sweep then s.setExtent s.ev.site s.ev.n { e with sweep := true }
      else ((s.rangePieces e.base e.len).foldl (fun (u : State) x => (u.pieceHome x.1 x.2).dropPiece x.1 x.2) s).removeExtent
        s.ev.site s.ev.n e) := by
  unfold execReleaseSweep
  dsimp only
  rw [he]
  refine congrArg Host.Outcome.next (if_neg ?_)
  rw [hr]
  exact Bool.false_ne_true

end Machine

open Sys2Proof.Machine

/-- Settles O56: each step where its condition holds; of an access that does not complete, the check on its way fails. -/
theorem extentAndTimeoutStepsComplete : Obligations.ExtentAndTimeoutStepsComplete := by
  intro s v e x k pa m a w off data ea site n o late
  refine ⟨fun hx hfits => ⟨?_, fun hk => ?_⟩, fun he => ⟨fun hr => ?_, fun hr hs => ⟨?_, fun ht => ?_⟩, fun hr hs => ?_, ?_⟩,
    fun a h1 h2 => cget_cclear_inside s.mem h1 h2, fun a hwf hout => ?_, ⟨_, rfl, rfl, rfl⟩, ?_, ?_, fun hl hfar ho => ?_, fun hl ho => ?_,
    fun hl ho => ?_, fun hl ha ho => ?_⟩
  · subst hx
    exact congrArg Host.Outcome.next (if_pos hfits)
  · have hsite : Config.kindAt s.ev.site = .far := by
      have hfits : s.extentFits s.ev.site x = true := hfits
      unfold State.extentFits at hfits
      simp only [Bool.and_eq_true, beq_iff_eq] at hfits
      obtain ⟨⟨⟨⟨⟨⟨⟨hfar, -⟩, -⟩, -⟩, -⟩, -⟩, -⟩, -⟩ := hfits
      exact hfar
    exact extentAt_enterExtent (far_sites hsite) (by rw [hx]) hk
  · show execExtentReleaseRequest s = _
    have he : s.extentAt s.ev.site s.ev.n = some e := he
    unfold execExtentReleaseRequest
    rw [he]
    exact congrArg Host.Outcome.next (if_neg (Bool.eq_false_iff.1 hr))
  · refine (extent_releasing he hr).trans (congrArg Host.Outcome.next (if_pos ?_))
    rw [hs]
    rfl
  · show execReleaseSweepTimeout s = _
    have he : s.extentAt s.ev.site s.ev.n = some e := he
    unfold execReleaseSweepTimeout
    rw [he]
    refine congrArg Host.Outcome.next (if_pos ?_)
    rw [hr, hs, decide_eq_true ht]
    rfl
  · refine (extent_releasing he hr).trans (congrArg Host.Outcome.next (if_neg ?_))
    rw [hs]
    exact Bool.false_ne_true
  · show execExtentForcedRemoval s = _
    have he : s.extentAt s.ev.site s.ev.n = some e := he
    unfold execExtentForcedRemoval
    rw [he]
  · show cget (cclear s.mem e.base e.len) a = _
    rw [cget_cclear _ _ _ hwf, if_neg (by omega)]
  · exact ⟨_, rfl, rfl, rfl⟩
  · intro aux
    have haux : (if (s.ev.k == 2) = true then 0 else if s.ev.flag = true then 1 else 2) = aux := by
      simp only [beq_iff_eq]
      rfl
    refine ⟨s.fail 2 aux, ?_, rfl, rfl⟩
    rw [← haux]
    rfl
  · exact reachHome_late hl hfar ho
  · have hway := hostWay_late hl ho
    exact ⟨by rw [State.doLoad, hway]; rfl, by rw [State.doStore, hway]; rfl⟩
  · have hway : s.peerWay w k ea = flt .POISON ea 0 := by
      rw [peerWay_late ho, State.lapsed, hl]
      rfl
    exact ⟨by rw [State.doLoad, hway]; rfl, by rw [State.doStore, hway]; rfl⟩
  · have hway : s.peerWay w k ea = flt .FAR_TIMEOUT ea a := by
      rw [peerWay_late ho, State.lapsed, hl]
      refine (if_neg (by decide)).trans (if_neg ?_)
      rw [Bool.and_eq_true, beq_iff_eq]
      exact fun h => ha (beq_iff_eq.1 h.2)
    exact ⟨by rw [State.doLoad, hway]; rfl, by rw [State.doStore, hway]; rfl⟩

end Sys2Proof

/-! SUPPORT. Links, the host and peers (R306 to R312, R454 to R461). -/

namespace Sys2Proof

namespace Machine

variable {s : State} {site : Nat} {p t : Nat} {q : Packet}

/-- What a fabric die does with a packet for another package that has reached it (R458). -/
theorem sendOn_foreign (hto : q.to_ = site) (hf : s.foreign site q = true) (hq : { q with sent := 0, src := none, again := false } = q) :
    s.sendOn site q = match lowPort (fieldW (tget 0 (s.die site).peers (q.peer.getD 0)) 47 32) with
      | none => s
      | some k =>
        if Config.fabSite (k / 8) = site then s.setLink site (16 + k % 8) ((s.link site (16 + k % 8)).giveLast q)
        else match s.portTo site (Config.fabSite (k / 8)) with
          | none => s
          | some m => s.setLink site m ((s.link site m).giveLast { q with to_ := Config.fabSite (k / 8) }) := by
  have hcond : (q.to_ == site && s.foreign site q) = true := by rw [hto, hf, beq_self_eq_true]; rfl
  have hhop : s.nextHop site q = (lowPort (fieldW (tget 0 (s.die site).peers (q.peer.getD 0)) 47 32)).bind fun k =>
      if Config.fabSite (k / 8) == site then some (16 + k % 8, q)
      else (s.portTo site (Config.fabSite (k / 8))).map fun m => (m, { q with to_ := Config.fabSite (k / 8) }) := if_pos hcond
  have hto' (x : Nat) : { q with to_ := x, sent := 0, src := none, again := false } = { q with to_ := x } :=
    congrArg (fun q : Packet => { q with to_ := x }) hq
  unfold State.sendOn
  rw [hhop]
  cases lowPort (fieldW (tget 0 (s.die site).peers (q.peer.getD 0)) 47 32) with
  | none => rfl
  | some k =>
    dsimp only [Option.bind_some]
    by_cases hx : Config.fabSite (k / 8) = site
    · rw [if_pos (beq_iff_eq.2 hx), if_pos hx]
      dsimp only
      rw [hq]
    · rw [if_neg (fun h => hx (beq_iff_eq.1 h)), if_neg hx]
      cases s.portTo site (Config.fabSite (k / 8)) with
      | none => rfl
      | some m =>
        dsimp only [Option.map_some]
        rw [hto']

/-- A packet for a cluster whose interface does not answer stands there (R447). -/
theorem inbox_toCluster {c : Nat} (hd : q.dst = some c) (hc : c ∈ s.ev.list) :
    ((s.toCluster site q).cluster site c).inbox = (s.cluster site c).inbox ++ [(q, s.runNs)] := by
  unfold State.toCluster
  rw [hd]
  dsimp only
  rw [if_pos (List.contains_iff_mem.2 hc)]
  unfold State.cluster State.setCluster
  rw [die_setDie]
  dsimp only
  rw [tget_tset_self]

end Machine

open Sys2Proof.Machine

/-- Settles O57: each step where its condition holds. -/
theorem linkHostAndPeerStepsComplete : Obligations.LinkHostAndPeerStepsComplete := by
  intro s p t r site n l u
  refine ⟨fun h => ?_, fun h => ?_, fun q c hd hc => inbox_toCluster hd hc, fun e he => ?_, fun he => ?_, fun hreq hdown hrep => ?_,
    fun hdown hfail => ?_, fun hdown => ⟨fun hheld => ?_, fun hheld => ?_, fun ht => ⟨fun htold => ?_, fun htold => ?_⟩⟩,
    fun hfold hup => ?_, fun k m hfold hreq => ?_, rfl, fun hst => ?_, ?_, ?_, fun hfold hreg u hu => ?_, fun hfold hup => ?_,
    fun hfold => ?_, fun hfold hle => ?_⟩
  · exact congrArg Host.Outcome.next (if_pos h)
  · exact congrArg Host.Outcome.next (if_neg (Bool.eq_false_iff.1 h))
  · show execFlitGroupReceive s = _
    have he : otherEnd s.ev.site s.ev.n = some e := he
    unfold execFlitGroupReceive
    rw [he]
  · show execFlitGroupReceive s = _
    have he : otherEnd s.ev.site s.ev.n = none := he
    unfold execFlitGroupReceive
    rw [he]
  · show execLinkReplay s = _
    have hreq : (s.link s.ev.site s.ev.n).replayRq = some p := hreq
    unfold execLinkReplay
    dsimp only
    rw [hreq]
    refine congrArg Host.Outcome.next (if_neg ?_)
    have hdown : (s.link s.ev.site s.ev.n).down = none := hdown
    rw [hdown, Bool.or_eq_true, decide_eq_true_iff]
    exact not_or.2 ⟨Bool.false_ne_true, Nat.not_le.2 hrep⟩
  · show execLinkRetryFail s = _
    refine congrArg Host.Outcome.next (if_pos ?_)
    have hdown : (s.link s.ev.site s.ev.n).down = none := hdown
    rw [hdown, Bool.and_eq_true, Bool.or_eq_true, decide_eq_true_iff]
    exact ⟨rfl, hfail⟩
  · show execLinkRetrainComplete s = _
    refine congrArg Host.Outcome.next (if_pos ?_)
    have hdown : (s.link s.ev.site s.ev.n).down = some t := hdown
    have hheld : s.heldDown s.ev.site s.ev.n = false := hheld
    rw [hdown, hheld]
    rfl
  · show execLinkRetrainComplete s = _
    refine congrArg Host.Outcome.next (if_neg ?_)
    have hheld : s.heldDown s.ev.site s.ev.n = true := hheld
    rw [hheld]
    simp
  · show execLinkDownTimeout s = _
    have hdown : (s.link s.ev.site s.ev.n).down = some t := hdown
    have htold : (s.link s.ev.site s.ev.n).told = false := htold
    unfold execLinkDownTimeout
    simp only [hdown, htold, if_neg (Nat.not_lt.2 ht)]
    rfl
  · show execLinkDownTimeout s = _
    have hdown : (s.link s.ev.site s.ev.n).down = some t := hdown
    have htold : (s.link s.ev.site s.ev.n).told = true := htold
    unfold execLinkDownTimeout
    simp only [hdown, htold, if_neg (Nat.not_lt.2 ht)]
    rfl
  · intro pa size
    have hpa : s.aperture s.ev.n = pa := rfl
    have hsize : reqSize s.ev.req = size := rfl
    clear_value pa size
    refine ⟨fun ⟨k, hk, hno⟩ => ?_, fun hle hopen hat hperf => ?_⟩
    · have hbad : ((linesOf pa size).all fun l => (s.openFold (l * 64)).isSome) = false := by
        rw [List.all_eq_false]
        exact ⟨k, hk, by rw [hno]; exact Bool.false_ne_true⟩
      show execHostApertureAccess s = _
      unfold execHostApertureAccess
      simp only [hfold, hup, hpa, hsize, hbad, Bool.and_false]
      rfl
    · have hopen : ((linesOf pa size).all fun l => (s.openFold (l * 64)).isSome) = true :=
        List.all_eq_true.2 fun k hk => Option.isSome_iff_ne_none.2 (hopen k hk)
      show execHostApertureAccess s = _
      unfold execHostApertureAccess
      simp only [hfold, hup, hpa, hsize]
      refine congrArg Host.Outcome.next ((if_neg (by decide)).trans ((if_neg ?_).trans ?_))
      · rw [Bool.not_eq_true', Bool.not_eq_false, Bool.and_eq_true, Bool.and_eq_true, decide_eq_true_iff]
        refine ⟨⟨hle, ?_⟩, hopen⟩
        split
        · next op x y hreq =>
          obtain ⟨hop, hal⟩ := hat op x y hreq
          rw [hop, Bool.true_and, beq_iff_eq]
          exact hal
        · rfl
      · rw [hperf]
        rfl
  · show execHostApertureAccess s = _
    unfold execHostApertureAccess
    simp only [hfold, hreq]
    rfl
  · exact congrArg Host.Outcome.next (if_neg (fun h => hst (beq_iff_eq.1 h)))
  · intro f fab pl w ok key due
    have hkey : peerKey s.ev = key := rfl
    have hdue : tget 0 s.peerNext key = due := rfl
    clear_value key due
    refine ⟨fun hlt => ?_, fun hlt => ?_, fun heq hno => ?_, fun heq hok hperf => ?_⟩
    · show execPeerRequestReceive s = _
      unfold execPeerRequestReceive
      simp only [hkey, hdue, if_pos hlt]
    · show execPeerRequestReceive s = _
      unfold execPeerRequestReceive
      simp only [hkey, hdue, if_neg (Nat.lt_asymm hlt), if_pos hlt]
    · have hno : s.peerPerform (s.ev.site % 2) s.evFold = flt .SPACE 0 0 := by
        have hno : s.peerAccepts (s.ev.site % 2) s.ev.n s.ev.m s.evFold s.ev.k (reqSize s.ev.req) = false := hno
        unfold State.peerPerform
        rw [hno]
        rfl
      show execPeerRequestReceive s = _
      unfold execPeerRequestReceive
      simp only [hkey, hdue, heq, Nat.lt_irrefl, if_false, hno]
      rfl
    · have hdone : s.peerPerform (s.ev.site % 2) s.evFold = .ok r := by
        have hok : s.peerAccepts (s.ev.site % 2) s.ev.n s.ev.m s.evFold s.ev.k (reqSize s.ev.req) = true := hok
        unfold State.peerPerform
        rw [hok]
        exact hperf
      show execPeerRequestReceive s = _
      unfold execPeerRequestReceive
      simp only [hkey, hdue, heq, Nat.lt_irrefl, if_false, hdone]
      rfl
  · intro fab q out hwf hn
    have hforward : exec .peerRequestForward s = .next (s.sendOn fab q) := congrArg Host.Outcome.next (if_pos hwf)
    have hforeign : s.foreign fab q = true := bne_iff_ne.2 hn
    rw [hforward, sendOn_foreign (q := q) (site := fab) rfl hforeign rfl]
    have hout : lowPort (fieldW (tget 0 (s.die fab).peers (q.peer.getD 0)) 47 32) = out := rfl
    rw [hout]
    refine ⟨fun h => ?_, fun h hx => ?_, fun h hx hport => ?_⟩
    · rw [h]
    · rw [h]
      exact congrArg Host.Outcome.next (if_pos hx)
    · rw [h]
      refine congrArg Host.Outcome.next ((if_neg hx).trans ?_)
      rw [hport]
  · show execRegisterWrite s = _
    have hreg : regAccess s.ev.n s.ev.m = true := hreg
    have hu : s.mmioWrite (s.ev.site % 2) s.ev.n (leBytes s.ev.m s.ev.word.toNat) = some u := hu
    unfold execRegisterWrite
    simp only [hfold, hreg, hu]
    rfl
  · show execRegisterWrite s = _
    unfold execRegisterWrite
    simp only [hfold, hup]
    rfl
  · show execRegisterWrite s = _
    unfold execRegisterWrite
    simp only [hfold]
    rfl
  · show execRegisterWrite s = _
    have hle : s.ev.n + s.ev.bytes.length ≤ 0xC000 := hle
    unfold execRegisterWrite
    simp only [hfold, if_pos hle]
    rfl

end Sys2Proof

/-! SUPPORT. Watchdogs, heat, power, the error log and device time (R342, R343, R447, R451, R452, R470 to R473, R491). -/

namespace Sys2Proof

namespace Machine

variable {s : State} {site reason : Nat}

/-- A die retires at once where the package runs (R449). -/
theorem retireWhenUp_running (h : s.mgmt.phase = 4) : s.retireWhenUp site reason = s.retireDie site reason :=
  if_pos (beq_iff_eq.2 h)

/-- Where the package does not run, a die's status is set and its retirement waits (R449). -/
theorem retireWhenUp_waiting (h : s.mgmt.phase ≠ 4) : s.retireWhenUp site reason =
    { s.setDisc site fun x => setField x 48 8 3 with mgmt := (s.setDisc site fun x => setField x 48 8 3).mgmt.askRetire site reason } :=
  if_neg (by simpa using h)

/-- A die whose temperature passed the limit a millisecond ago is too hot (R451). -/
theorem tooHot_of_since {t : Nat} (h : (s.die site).hotAt = some t) (ht : t + 1000000 ≤ s.runNs) : s.tooHot site = true := by
  unfold State.tooHot
  rw [h]
  exact decide_eq_true ht

end Machine

open Host Machine

/-- Settles O59. -/
theorem watchdogPowerAndTimeStepsComplete : Obligations.WatchdogPowerAndTimeStepsComplete := by
  unfold Obligations.WatchdogPowerAndTimeStepsComplete
  intro s g l later d gi t e m dv
  refine ⟨?_, ?_, rfl, ?_, ?_, ?_, ?_, ?_, rfl, ?_, rfl, ?_, ?_, ?_, ?_, ?_, ?_, ?_⟩
  · intro k hrun hcls hleave hlate
    refine congrArg Host.Outcome.next (if_pos ?_)
    simp only [Bool.and_eq_true, bne_iff_ne, Option.isNone_iff_eq_none, decide_eq_true_eq]
    exact ⟨⟨⟨hrun, hcls⟩, hleave⟩, hlate⟩
  · intro c hrun hhalt hlate
    refine congrArg Host.Outcome.next (if_pos ?_)
    simp only [Bool.and_eq_true, Bool.not_eq_true', decide_eq_true_eq]
    exact ⟨⟨hrun, hhalt⟩, hlate⟩
  · intro n lim hused hst hlim hlate u
    refine congrArg Host.Outcome.next (if_pos ?_)
    simp only [Bool.and_eq_true, Bool.or_eq_true, beq_iff_eq, bne_iff_ne, decide_eq_true_eq]
    exact ⟨⟨⟨hused, hst⟩, hlim⟩, hlate⟩
  · intro hcl hin hlate
    have hgo : ¬ (clustersOf e.site ≤ e.n || s.inReset e.site e.n || !s.clusterLate e.site e.n) = true := by
      rw [hin, hlate, decide_eq_false (Nat.not_le.2 hcl)]
      decide
    exact ⟨_, congrArg Host.Outcome.next (if_neg hgo), rfl, rfl, rfl, rfl, rfl, rfl⟩
  · intro hgraph hg hl hstart
    show execFoldWatchdog s = _
    have hgraph : graphOf s.ev.n = some (d, gi) := hgraph
    unfold execFoldWatchdog
    simp only [hgraph, hg, hl, hstart]
    rfl
  · show execThermalThrottle s = _
    unfold execThermalThrottle
    simp only [decide_eq_true_eq]
    rfl
  · intro hhot hlate hmay
    have hdo : exec .thermalRetire s = .next (s.retireWhenUp e.site 3) :=
      congrArg Host.Outcome.next (if_pos (Bool.and_eq_true_iff.2 ⟨tooHot_of_since hhot hlate, hmay⟩))
    refine ⟨fun hup => ?_, fun hdown => ?_⟩
    · rw [hdo, retireWhenUp_running hup]
    · rw [hdo, retireWhenUp_waiting hdown]
  · exact fun hb => congrArg Host.Outcome.next (if_pos hb)
  · exact fun hmem hclr => congrArg Host.Outcome.next (if_pos (Bool.and_eq_true_iff.2 ⟨beq_iff_eq.2 hmem, hclr⟩))
  · show execTmslew s = _
    unfold execTmslew
    rw [sextNat_toNat (by decide)]
  · exact fun hf => congrArg Host.Outcome.next (if_pos hf)
  · exact fun hf => congrArg Host.Outcome.next (if_neg (by rw [hf]; decide))
  · intro hn site q stamp
    have hport : ¬ 15 < s.ev.n := Nat.not_lt.2 hn
    refine ⟨fun hroom => ?_, fun hfull => ?_⟩
    · refine congrArg Host.Outcome.next ((if_neg hport).trans ?_)
      exact congrArg (State.timeSeen · 1) (if_pos hroom)
    · refine congrArg Host.Outcome.next ((if_neg hport).trans ?_)
      exact congrArg (State.timeSeen · 1) (if_neg (Nat.not_lt.2 hfull))
  · exact fun hup => congrArg Host.Outcome.next (if_pos hup)
  · exact fun hsrc hlate => congrArg Host.Outcome.next
      (if_pos (Bool.and_eq_true_iff.2 ⟨bne_iff_ne.2 hsrc, decide_eq_true hlate⟩))

end Sys2Proof

/-! SUPPORT. The collective engines (R462 to R468). -/

namespace Sys2Proof

namespace Machine

variable {s : State} {k : Coll} {t : Nat} {f : State → Who → Coll → W128 → Iss (Coll × State)}

/-- A collective of a type starts with what reading its inputs gives it (R465). -/
theorem startColl_ok {k1 : Coll} {u : State} (hk : tget? s.colls (ringKey s.ev.site s.ev.n) = some k) (hstart : k.started = false)
    (hst : k.status = none) (ht : dType k.desc = t)
    (hf : f s (s.engineWho s.ev.site s.ev.n) k (s.group s.ev.site k.desc) = .ok (k1, u)) :
    s.startColl t f = u.setColl s.ev.site s.ev.n (({ k1 with started := true } : Coll).settle (s.group s.ev.site k.desc)) := by
  have hgo : ¬ (k.started || k.status.isSome || dType k.desc != t) = true := by
    rw [hstart, hst, ht, bne_self_eq_false]
    decide
  unfold State.startColl
  simp only [hk]
  refine (if_neg hgo).trans ?_
  rw [hf]

/-- A collective that has ended is signalled and cleared, its read index published, and the ring goes on (R402, R462, R467). -/
theorem endColl_ok {fab ring st : Nat} {l : List W32} {v x : State} {q : Qcb} (hsig : s.collSignal (s.engineWho fab ring) l st = .ok v)
    (hcons : v.consumeAs (s.engineWho fab ring) (v.ring fab ring) = .ok (q, x, none)) :
    s.endColl fab ring l st =
      .ok ((({ x with colls := tdel x.colls (ringKey fab ring) } : State).setRdidx fab ring q.rdidx).takeDesc fab ring) := by
  show (s.collSignal (s.engineWho fab ring) l st).bind _ = _
  rw [hsig]
  show (v.consumeAs (s.engineWho fab ring) (v.ring fab ring)).map _ = _
  rw [hcons]
  rfl

end Machine

open Host Machine

/-- Settles O60. -/
theorem collectiveStepsComplete : Obligations.CollectiveStepsComplete := by
  unfold Obligations.CollectiveStepsComplete
  intro s u v x y k k' b inputs ranks q st fab ring w g
  refine ⟨rfl, ?_, ?_⟩
  · intro hk
    refine ⟨?_, ?_, ?_⟩
    · intro hstart hst
      refine ⟨fun hin => ⟨?_, ?_⟩, ?_, ?_, ?_⟩
      · intro hk'
        have hown : s.ownPartial w k g = .ok ({ k with own := inputs.map (collForm k.desc) }, u) := by
          unfold State.ownPartial
          rw [hin]
          rfl
        rw [hk']
        refine ⟨fun ht => ?_, fun ht => ?_⟩
        · show execAllReduce s = _
          unfold execAllReduce
          rw [startColl_ok hk hstart hst ht hown]
        · show execReduceScatter s = _
          unfold execReduceScatter
          rw [startColl_ok hk hstart hst ht hown]
      · intro hranks ht mine hk'
        have hread : ((s.collInputs w k.desc).bind fun r => (r.2.readRanks w g).bind fun q =>
            (.ok ({ k with ranks := q.1, parts := tset k.parts (q.1.getD (grp g 53 42) 0) (gatherBytes k.desc r.1) }, q.2) : Iss (Coll × State))) =
            .ok ({ k with ranks := ranks, parts := tset k.parts (ranks.getD (grp g 53 42) 0) mine }, v) := by
          rw [hin]
          show (u.readRanks w g).bind _ = _
          rw [hranks]
          rfl
        show execAllGather s = _
        unfold execAllGather
        rw [startColl_ok hk hstart hst ht hread, hk']
      · intro ht hrank
        show execCollectiveBroadcast s = _
        unfold execCollectiveBroadcast
        rw [startColl_ok hk hstart hst ht (if_pos (bne_iff_ne.2 hrank))]
      · intro ht hrank hread hk'
        show execCollectiveBroadcast s = _
        unfold execCollectiveBroadcast
        rw [startColl_ok (u := u) hk hstart hst ht
          ((if_neg fun h => bne_iff_ne.1 h hrank).trans (congrArg (Except.bind · _) hread)), hk']
      · intro ht
        show execCollectiveBarrier s = _
        unfold execCollectiveBarrier
        rw [startColl_ok hk hstart hst ht rfl]
    · intro w' hsig hcons hy
      have hend : u.endColl fab ring k.desc st = .ok y := hy ▸ endColl_ok hsig hcons
      have hdone : s.orWaited (u.endColl fab ring k.desc st) = y := by rw [hend, orWaited_ok]
      have hk : tget? s.colls (ringKey s.ev.site s.ev.n) = some k := hk
      refine ⟨?_, ?_⟩
      · intro hst hstart h0 hout
        subst h0
        have hout : k.output (s.group s.ev.site k.desc) = some b := hout
        refine ⟨fun hb hwrite => ?_, fun hb hu => ?_⟩
        · show execCollectiveComplete s = _
          have hwrite : s.collWrite (s.engineWho s.ev.site s.ev.n) (pw64 k.desc 6) b = .ok u := hwrite
          unfold execCollectiveComplete
          simp only [hk, hst, hstart, hout, List.isEmpty_eq_false_iff.2 hb, hwrite]
          exact congrArg Host.Outcome.next hdone
        · subst hb hu
          show execCollectiveComplete u = _
          unfold execCollectiveComplete
          simp only [hk, hst, hstart, hout]
          exact congrArg Host.Outcome.next hdone
      · intro hst hu
        subst hu
        show execCollectiveComplete u = _
        unfold execCollectiveComplete
        simp only [hk, hst]
        exact congrArg Host.Outcome.next hdone
    · intro hst hstart hout hlate
      show execCollectiveTimeout s = _
      have hk : tget? s.colls (ringKey s.ev.site s.ev.n) = some k := hk
      have hgo : (k.status.isNone && k.started && (k.output (s.group s.ev.site k.desc)).isNone && decide (k.since + 10000000 ≤ s.runNs)) = true := by
        have hout : k.output (s.group s.ev.site k.desc) = none := hout
        rw [hst, hstart, hout, decide_eq_true hlate]
        rfl
      unfold execCollectiveTimeout
      simp only [hk]
      exact congrArg Host.Outcome.next (if_pos hgo)
  · intro site d n h
    refine ⟨fun hseq => congrArg Host.Outcome.next (if_pos hseq), ?_⟩
    intro hseq hk hgroup hidx hst hk'
    have hgo : ¬ (dGroup k.desc != n || k.idx != s.ev.m || k.status.isSome) = true := by
      rw [hgroup, hidx, hst, bne_self_eq_false, bne_self_eq_false]
      decide
    refine congrArg Host.Outcome.next ((if_neg (Nat.not_le.2 hseq)).trans ?_)
    rw [hk, hk']
    exact if_neg hgo

end Sys2Proof

/-! SUPPORT. What an access leaves behind when it gives a result, and what translation and the reads of an engine beyond the L1 change (R137,
R149, R299 to R302): no more than the memory system does. -/

namespace Sys2Proof

namespace Machine

variable {s u v : State} {w : Who} {ea : W64}

/-! ### What holds of a result, where there is one -/

/-- A property of the result, if there is one. -/
structure Good {ε α : Type} (P : α → Prop) (x : Except ε α) : Prop where
  of : ∀ a, x = .ok a → P a

section Good

variable {ε α β : Type} {P Q : α → Prop} {R : β → Prop}

theorem good_ok {a : α} (h : P a) : Good P (.ok a : Except ε α) := ⟨fun _ he => Except.ok.inj he ▸ h⟩

theorem good_error {e : ε} : Good P (.error e : Except ε α) := ⟨fun _ he => nomatch he⟩

theorem good_bind {x : Except ε α} {f : α → Except ε β} (hx : Good P x) (hf : ∀ a, P a → Good R (f a)) : Good R (x >>= f) := by
  cases x with
  | error e => exact good_error
  | ok a => exact hf a (hx.of a rfl)

/-- A step that only checks. -/
theorem good_check {x : Except ε α} {f : α → Except ε β} (hf : ∀ a, Good R (f a)) : Good R (x >>= f) :=
  good_bind (P := fun _ => True) ⟨fun _ _ => trivial⟩ fun a _ => hf a

theorem good_map {x : Except ε α} {f : α → β} (hx : Good P x) (hf : ∀ a, P a → R (f a)) : Good R (x.map f) := by
  cases x with
  | error e => exact good_error
  | ok a => exact good_ok (hf a (hx.of a rfl))

theorem good_ite {c : Prop} [Decidable c] {x y : Except ε α} (hx : Good P x) (hy : Good P y) : Good P (if c then x else y) := by
  split
  · exact hx
  · exact hy

theorem good_any {x : Except ε α} : Good (fun _ => True) x := ⟨fun _ _ => trivial⟩

/-- Two ways into the same steps that follow. -/
theorem good_iteBind {c : Prop} [Decidable c] {x y : Except ε α} {f : α → Except ε β} (hx : Good P x) (hy : Good P y)
    (hf : ∀ a, P a → Good R (f a)) : Good R (if c then x >>= f else y >>= f) :=
  good_ite (good_bind hx hf) (good_bind hy hf)

theorem Good.mono {x : Except ε α} (h : Good P x) (hpq : ∀ a, P a → Q a) : Good Q x := ⟨fun a ha => hpq a (h.of a ha)⟩

end Good

/-- What an access that gives a value changes: no more than the memory system does. -/
abbrev GoodBelow {α : Type} (s : State) (x : Iss (α × State)) : Prop := Good (fun r => Below s r.2) x

/-- What a later access changes besides. -/
theorem GoodBelow.after {α : Type} {x : Iss (α × State)} (h : Below s u) (hx : GoodBelow u x) : GoodBelow s x := hx.mono fun _ => h.trans

/-! ### Walks and translation -/

theorem good_walkLoad (pa : Nat) : GoodBelow s (s.walkLoad w pa ea) :=
  good_bind ⟨fun _ hr => below_cohRead hr⟩ fun _ hr => good_ok hr

theorem good_walkRoot : GoodBelow s (s.walkRoot w ea) :=
  good_bind (good_walkLoad _) fun _ hr => good_ite (good_ok hr) good_error

theorem good_walkFrom (va n base level : Nat) : Good (fun r => Below s r.2.2.2) (s.walkFrom w va ea n base level) := by
  induction n generalizing s base level with
  | zero => exact good_error
  | succ n ih =>
    refine good_bind (good_walkLoad _) fun r hr => ?_
    have hnext := (ih (s := r.2) (bits r.1 47 12 * 4096) (level + 1)).mono fun _ => hr.trans
    exact good_ite good_error (good_ite good_error (good_ite (good_ite good_error hnext) (good_ite good_error (good_ok hr))))

theorem good_walk (va : Nat) (nd : Need) : GoodBelow s (s.walk w va nd ea) := by
  refine good_bind good_walkRoot fun r hr => good_bind (good_walkFrom va ..) fun q hq => ?_
  have hq := hr.trans hq
  refine good_ite good_error (good_ite good_error (good_ite ?_ ?_))
  · exact good_ok (hq.trans (below_setDie _ rfl))
  · exact good_bind ⟨fun t ht => hq.trans (below_cohWrite ht)⟩ fun t ht => good_ok (Below.trans ht (below_setDie _ rfl))

theorem good_dirtyLeaf (e : TlbEnt) (va : Nat) (nd : Need) : GoodBelow s (s.dirtyLeaf w e va nd ea) := by
  refine good_bind (good_walkLoad _) fun r hr => ?_
  have hwalk : GoodBelow s ((r.2.orD w e.pte).walk w va nd ea) := .after (hr.trans (below_orD ..)) (good_walk va nd)
  have hwrite {data : List Byte} {f : State → TlbEnt} {g : State → Die} (hg : ∀ u, (g u).stores = (u.die w.c.site).stores) :
      GoodBelow s (r.2.cohWrite w.walker .home e.pte data ea >>= fun u => .ok (f u, u.setDie w.c.site (g u))) :=
    good_bind (P := Below s) ⟨fun u hu => hr.trans (below_cohWrite hu)⟩ fun u hu => good_ok (hu.trans (below_setDie u (hg u)))
  refine good_ite good_error (good_ite good_error (good_ite (good_ite good_error hwalk) ?_))
  exact good_ite good_error (good_ite good_error (good_ite good_error (hwrite fun _ => rfl)))

theorem good_translate (va n : Nat) (nd : Need) : GoodBelow s (s.translate w va n nd ea) := by
  unfold State.translate
  refine good_ite good_error ?_
  split
  · next e _ =>
    refine good_ite good_error (good_ite good_error (good_ite ?_ (good_ok (.refl s))))
    exact good_bind (good_dirtyLeaf e va nd) fun _ hr => good_ok hr
  · exact good_bind (good_walk va nd) fun _ hr => good_ok hr

theorem good_placeOf (p : Spot) (n pol : Nat) (nd : Need) : GoodBelow s (s.placeOf w p n pol nd ea) := by
  cases p with
  | dev va => exact good_bind (good_translate va n nd) fun _ hr => good_ok hr
  | loc off => exact good_ok (.refl s)
  | csp off => exact good_ok (.refl s)
  | dsp off => exact good_ok (.refl s)
  | peer k off => exact good_ok (.refl s)
  | host a => exact good_ok (.refl s)
  | mmio off => exact good_ok (.refl s)

/-! ### Reads beyond the L1 -/

theorem good_kickRead (pa n : Nat) : GoodBelow s (s.kickRead w pa n ea) := good_check fun _ => good_ok (.refl s)

theorem good_readBeyond (lvl : Lvl) (pa n k : Nat) : GoodBelow s (s.readBeyond w lvl pa n ea k) := by
  induction k generalizing s pa n with
  | zero => exact good_ok (.refl s)
  | succ k ih =>
    have hrest (r : List Byte × State) (hr : Below s r.2) : GoodBelow s (r.2.readBeyond w lvl (pa + firstPart pa n) (n - firstPart pa n) ea k >>=
        fun q => .ok (r.1 ++ q.1, q.2)) := good_bind (GoodBelow.after hr (ih _ _)) fun _ hq => good_ok hq
    refine good_ite (good_ok (.refl s)) (good_ite ?_ ?_)
    · exact good_bind (good_kickRead _ _) hrest
    · exact good_bind ⟨fun _ hr => below_cohRead hr⟩ hrest

theorem below_mmioRead {d off n : Nat} {r : List Byte × State} (h : s.mmioRead d off n = some r) : Below s r.2 := by
  unfold State.mmioRead at h
  split at h
  · cases h
  · dsimp only at h
    split at h
    · cases h
    · obtain ⟨x, _, hx⟩ := Option.map_eq_some_iff.1 h
      split at hx
      · cases hx
        exact ⟨rfl, rfl, fun _ => rfl, fun _ => rfl, id⟩
      · cases hx
        exact .refl s

/-- A load performed elsewhere than in device memory. -/
theorem good_doLoad_elsewhere {p : Place} (hp : ∀ pa lvl, p ≠ .mem pa lvl) (n : Nat) : GoodBelow s (s.doLoad w p n ea) := by
  cases p with
  | mem pa lvl => exact absurd rfl (hp pa lvl)
  | csp st cl off => exact good_map (P := fun _ => True) ⟨fun _ _ => trivial⟩ fun _ _ => .refl s
  | dsp st off => exact good_map (P := fun _ => True) ⟨fun _ _ => trivial⟩ fun _ _ => .refl s
  | peer k off => exact good_map (P := fun _ => True) ⟨fun _ _ => trivial⟩ fun _ _ => .refl s
  | host a => exact good_map (P := fun _ => True) ⟨fun _ _ => trivial⟩ fun _ _ => .refl s
  | mmio off =>
    refine good_check fun _ => ?_
    split
    · next h => exact good_ok (below_mmioRead h)
    · exact good_error

theorem good_engineRead (p : Place) (n : Nat) : GoodBelow s (s.engineRead w p n ea) := by
  unfold State.engineRead
  split
  · exact good_readBeyond ..
  · next hp => exact good_doLoad_elsewhere hp n

/-! ### Reads of the drover (R400, R408) -/

theorem good_askPlace (p : W64) (n al : Nat) (nd : Need) : GoodBelow s (s.askPlace w p n al nd) :=
  good_check fun _ => good_check fun _ => good_placeOf ..

theorem good_askRead (p : W64) (n al : Nat) : GoodBelow s (s.askRead w p n al) :=
  good_bind (good_askPlace p n al .read) fun _ hq => GoodBelow.after hq (good_engineRead ..)

theorem good_askWord (p : W64) : GoodBelow s (s.askWord w p) := good_map (good_askRead p 8 8) fun _ hr => hr

theorem good_behind (d : Nat) (b : Qcb) : GoodBelow s (s.behind d b) := by
  unfold State.behind
  dsimp only
  split
  · next h => exact good_ok ((good_askWord b.hdr).of _ h)
  · exact good_ok (below_markBad ..)
  · exact good_error

end Machine

end Sys2Proof

/-! SUPPORT. What a fold reset and the drover's own tables change (R385 to R387, R410, R445): the fold descriptors and the graphs of the drovers
stay, and the memories stay canonical. -/

namespace Sys2Proof

namespace Machine

variable {s u v : State} {w : Who} {ea : W64}

/-! ### Updates that keep the memories canonical -/

theorem State.memWf.setDie (h : s.memWf) (n : Nat) {d : Die} (hd : d.stores = (s.die n).stores) : (s.setDie n d).memWf :=
  (below_setDie s hd).memWf h

theorem State.memWf.setCore (h : s.memWf) (c : CoreId) (k : CoreSt) : (s.setCore c k).memWf := h

theorem State.memWf.setTeam (h : s.memWf) (c : CoreId) (t : TeamSt) : (s.setTeam c t).memWf := h

theorem State.memWf.setTm (h : s.memWf) (t : TeamSt) : (s.setTm t).memWf := h

theorem State.memWf.setSt (h : s.memWf) (st : StrandSt) : (s.setSt st).memWf := h

theorem State.memWf.putOff (h : s.memWf) (m : Sched) : (s.putOff m).memWf := h

theorem State.memWf.freshWord (h : s.memWf) : s.freshWord.2.memWf := h

theorem State.memWf.setDrv (h : s.memWf) (n : Nat) {d : Drover} (hd : Memory.wf d.gmem = true) : (s.setDrv n d).memWf := by
  obtain ⟨h1, h2, h3, h4, h5, h6, h7, h8, h9⟩ := h
  refine ⟨h1, h2, h3, h4, h5, fun m => ?_, h7, h8, h9⟩
  by_cases hm : m = n
  · rw [hm, drv_setDrv]
    exact hd
  · rw [drv_setDrv_ne s d hm]
    exact h6 m

/-- A drover changed beside its graph memory. -/
theorem State.memWf.setDrvSame (h : s.memWf) (n : Nat) {d : Drover} (hd : d.gmem = (s.drv n).gmem) : (s.setDrv n d).memWf :=
  h.setDrv n (hd ▸ h.2.2.2.2.2.1 n)

theorem State.memWf.setCluster (h : s.memWf) (site cl : Nat) {c : Cluster} (hc : Memory.wf c.mem = true) : (s.setCluster site cl c).memWf := by
  obtain ⟨h1, h2, h3, h4, h5, h6, h7, h8, h9⟩ := h
  refine ⟨h1, h2, h3, fun x k => ?_, fun x => ?_, h6, h7, h8, h9⟩
  · by_cases hx : x = site
    · subst hx
      by_cases hk : k = cl
      · subst hk
        have hself : (s.setCluster x k c).cluster x k = c := by
          rw [State.cluster, State.setCluster, die_setDie]
          exact tget_tset_self ..
        rw [hself]
        exact hc
      · have hother : (s.setCluster x cl c).cluster x k = s.cluster x k := by
          rw [State.cluster, State.setCluster, die_setDie]
          exact tget_tset_ne _ _ _ hk
        exact hother ▸ h4 x k
    · have hother : (s.setCluster site cl c).cluster x k = s.cluster x k := by
        rw [State.cluster, State.setCluster, die_setDie_ne s _ hx]
        rfl
      exact hother ▸ h4 x k
  · by_cases hx : x = site
    · have hself : ((s.setCluster site cl c).die x).dsp = (s.die x).dsp := by rw [hx, State.setCluster, die_setDie]
      exact hself ▸ h5 x
    · have hother : ((s.setCluster site cl c).die x).dsp = (s.die x).dsp := by rw [State.setCluster, die_setDie_ne s _ hx]
      exact hother ▸ h5 x

/-- A cluster changed beside its scratchpad. -/
theorem State.memWf.setClusterSame (h : s.memWf) (site cl : Nat) {c : Cluster} (hc : c.mem = (s.cluster site cl).mem) :
    (s.setCluster site cl c).memWf :=
  h.setCluster site cl (hc ▸ h.2.2.2.1 site cl)

/-- Every die changed beside its memories. -/
theorem State.memWf.mapDies (h : s.memWf) {f : Nat → Die → Die} (hf : ∀ k x, (f k x).stores = x.stores) :
    ({ s with dies := tmap f s.dies } : State).memWf := by
  obtain ⟨h1, h2, h3, h4, h5, h6, h7, h8, h9⟩ := h
  have hsame (x : Nat) : (tget Die.reset (tmap f s.dies) x).stores = (s.die x).stores := tget_tmap_part hf Die.reset s.dies x
  refine ⟨h1, h2, h3, fun x k => ?_, fun x => ?_, h6, h7, h8, h9⟩
  · have hx : (tget Die.reset (tmap f s.dies) x).clusters = (s.die x).clusters := congrArg Prod.fst (hsame x)
    show Memory.wf (tget Cluster.fresh (tget Die.reset (tmap f s.dies) x).clusters k).mem = true
    rw [hx]
    exact h4 x k
  · have hx : (tget Die.reset (tmap f s.dies) x).dsp = (s.die x).dsp := congrArg Prod.snd (hsame x)
    show Memory.wf (tget Die.reset (tmap f s.dies) x).dsp = true
    rw [hx]
    exact h5 x

theorem State.memWf.foldl {α : Type} {f : State → α → State} (h : s.memWf) (hf : ∀ u a, State.memWf u → (f u a).memWf) (l : List α) :
    (l.foldl f s).memWf := by
  induction l generalizing s with
  | nil => exact h
  | cons a l ih => exact ih (hf s a h)

theorem State.memWf.ite {c : Prop} [Decidable c] (hu : u.memWf) (hv : v.memWf) : (if c then u else v).memWf := by
  split
  · exact hu
  · exact hv

/-! ### The relation -/

/-- The fold descriptors and the graphs of every drover stay, and the memories stay canonical. -/
structure Calm (s v : State) : Prop where
  plans : ∀ d, (v.drv d).folds = (s.drv d).folds ∧ (v.drv d).graphs = (s.drv d).graphs
  memWf : s.memWf → v.memWf

namespace Calm

theorem refl (s : State) : Calm s s := ⟨fun _ => ⟨rfl, rfl⟩, id⟩

theorem trans (h1 : Calm s u) (h2 : Calm u v) : Calm s v :=
  ⟨fun d => ⟨(h2.plans d).1.trans (h1.plans d).1, (h2.plans d).2.trans (h1.plans d).2⟩, h2.memWf ∘ h1.memWf⟩

/-- The same, the later change first. -/
theorem after (h2 : Calm u v) (h1 : Calm s u) : Calm s v := h1.trans h2

theorem of_below (h : Below s v) : Calm s v :=
  ⟨fun d => ⟨(congrArg Drover.folds (h.drovers d) :), (congrArg Drover.graphs (h.drovers d) :)⟩, h.memWf⟩

theorem ite {c : Prop} [Decidable c] (hu : Calm s u) (hv : Calm s v) : Calm s (if c then u else v) := by
  split
  · exact hu
  · exact hv

theorem foldl {α : Type} {f : State → α → State} (hf : ∀ s a, Calm s (f s a)) (l : List α) (s : State) : Calm s (l.foldl f s) := by
  induction l generalizing s with
  | nil => exact .refl s
  | cons a l ih => exact (hf s a).trans (ih _)

theorem setCore (s : State) (c : CoreId) (k : CoreSt) : Calm s (s.setCore c k) := ⟨fun _ => ⟨rfl, rfl⟩, id⟩

theorem putOff (s : State) (m : Sched) : Calm s (s.putOff m) := ⟨fun _ => ⟨rfl, rfl⟩, id⟩

theorem setDie (s : State) {n : Nat} {d : Die} (hd : d.stores = (s.die n).stores) : Calm s (s.setDie n d) := .of_below (below_setDie s hd)

theorem mapDies (s : State) {f : Nat → Die → Die} (hf : ∀ k x, (f k x).stores = x.stores) :
    Calm s { s with dies := tmap f s.dies } := ⟨fun _ => ⟨rfl, rfl⟩, fun h => h.mapDies hf⟩

theorem setCluster (s : State) {site cl : Nat} {c : Cluster} (hc : c.mem = (s.cluster site cl).mem) : Calm s (s.setCluster site cl c) :=
  ⟨fun _ => ⟨rfl, rfl⟩, fun h => h.setClusterSame site cl hc⟩

theorem setDrv (s : State) {n : Nat} {d : Drover} (hf : d.folds = (s.drv n).folds) (hg : d.graphs = (s.drv n).graphs)
    (hm : d.gmem = (s.drv n).gmem) : Calm s (s.setDrv n d) := by
  refine ⟨fun m => ?_, fun h => h.setDrvSame n hm⟩
  by_cases hn : m = n
  · rw [hn, drv_setDrv]
    exact ⟨hf, hg⟩
  · rw [drv_setDrv_ne s d hn]
    exact ⟨rfl, rfl⟩

end Calm

/-! ### Buffers, slots and nodes of a drover -/

theorem calm_setBuf (s : State) (d idx : Nat) (b : Buf) : Calm s (s.setBuf d idx b) := .setDrv s rfl rfl rfl

theorem calm_setNode (s : State) (d k : Nat) (n : Node) : Calm s (s.setNode d k n) := .setDrv s rfl rfl rfl

theorem calm_setQcb (s : State) (d q : Nat) (b : Qcb) : Calm s (s.setQcb d q b) := .setDrv s rfl rfl rfl

theorem calm_setSlot (s : State) (d k : Nat) (x : HwSlot) : Calm s (s.setSlot d k x) := .setDrv s rfl rfl rfl

theorem calm_endWindow (s : State) (d : Nat) (x : Window) : Calm s (s.endWindow d x) := .after (.putOff _ _) (.setDrv s rfl rfl rfl)

theorem calm_endWindows (s : State) (buf : Nat) : Calm s (s.endWindows buf) :=
  .foldl (fun _ d => .foldl (fun v x => calm_endWindow v d x) _ _) _ s

theorem calm_finishFree (s : State) (d idx : Nat) : Calm s (s.finishFree d idx) :=
  .ite (.refl s) (.ite (.after (.setDrv _ rfl rfl rfl) (calm_setBuf ..)) (calm_setBuf ..))

theorem calm_freeBuf (s : State) (d idx : Nat) : Calm s (s.freeBuf d idx) :=
  (calm_endWindows ..).trans ((calm_setBuf ..).trans (calm_finishFree ..))

theorem calm_dropRef (s : State) (d idx gen : Nat) : Calm s (s.dropRef d idx gen) :=
  .ite (.refl s) (.ite (calm_freeBuf ..) (calm_setBuf ..))

theorem calm_dropBrand (s : State) (b : W128) : Calm s (s.dropBrand b) := .ite (.refl s) (calm_dropRef ..)

theorem calm_dropSlots (s : State) (d k : Nat) : Calm s (s.dropSlots d k) :=
  (calm_setNode ..).trans (Calm.foldl (fun u (e : Nat × W128) => calm_dropBrand u e.2) _ _)

theorem calm_freeFlock (s : State) (site n : Nat) : Calm s (s.freeFlock site n) := by
  unfold State.freeFlock
  split
  · exact .refl s
  · dsimp only
    split
    · exact .after (.setDrv _ rfl rfl rfl) (.setDie s rfl)
    · exact .setDie s rfl

theorem calm_freeNodeFlock (s : State) (d k : Nat) : Calm s (s.freeNodeFlock d k) := by
  unfold State.freeNodeFlock
  dsimp only
  split
  · exact .refl s
  · split
    · exact .ite ((calm_setNode ..).trans (calm_freeFlock ..)) (calm_setNode ..)
    · exact calm_setNode ..

theorem calm_endNode (s : State) (d k : Nat) (st : NodeSt) : Calm s (s.endNode d k st) :=
  (calm_dropSlots ..).trans ((calm_freeNodeFlock ..).trans (calm_setNode ..))

/-! ### Queues -/

theorem calm_wake (s : State) (d : Nat) (sel : CoreSt → Swait → Bool) : Calm s (s.wake d sel) := by
  unfold State.wake
  dsimp only
  split
  · exact .setCore s _ _
  · exact .refl s

theorem calm_raisePend (s : State) (d q : Nat) : Calm s (s.raisePend d q) := by
  have hset : Calm s (s.setDrv d { s.drv d with pend := tset (s.drv d).pend q true }) := .setDrv s rfl rfl rfl
  exact .ite hset (hset.trans (calm_wake ..))

theorem calm_saveSlot (s : State) (d k : Nat) (part : W64) : Calm s (s.saveSlot d k part) := (calm_setQcb ..).trans (calm_setSlot ..)

end Machine

end Sys2Proof

/-! SUPPORT. Resets of a cluster, a fold and the package, boot, and the services of the management function (R288 to R291, R433 to R450). -/

namespace Sys2Proof

namespace Machine

variable {s u v : State}

/-! ### Fold reset (R445) -/

theorem calm_saved (d k q : Nat) {r : Bool × State} (h : Calm s r.2) :
    Calm s (if r.1 then (r.2.saveSlot d k 0).raisePend d q else r.2.saveSlot d k 0) :=
  have hsave := h.trans (calm_saveSlot r.2 d k 0)
  .ite (hsave.trans (calm_raisePend ..)) hsave

theorem calm_freeSlots (s : State) (d f : Nat) : Calm s (s.freeSlots d f) := by
  refine .foldl (fun u e => ?_) _ s
  cases hb : u.behind d e.2.copy with
  | ok x => exact calm_saved d e.1 e.2.qcb (.of_below ((good_behind d e.2.copy).of _ hb))
  | error h => exact calm_saved d e.1 e.2.qcb (r := (true, u)) (.refl u)

theorem calm_idleNodes (s : State) (d : Nat) (l : List Nat) : Calm s (s.idleNodes d l) :=
  .after (.setDrv _ rfl rfl rfl) (.foldl (fun _ _ => .ite (calm_freeNodeFlock ..) (calm_endNode ..)) l s)

theorem calm_freeMade (s : State) (d f : Nat) : Calm s (s.freeMade d f) :=
  .foldl (fun u (e : Nat × Buf) => calm_freeBuf u d e.1) _ s

theorem calm_freeFlocks (s : State) (f : Nat) : Calm s (s.freeFlocks f) :=
  .foldl (fun u (d : Nat × Die) => .foldl (fun v (e : Nat × FlockEnt) => calm_freeFlock v d.1 e.1) _ u) _ s

theorem calm_coverCluster (s : State) (site cl : Nat) : Calm s (s.coverCluster site cl) := by
  refine .after (.setCluster _ rfl) (.trans ?_ (.foldl (fun u c => .ite (.refl u) (.setCore u c _)) _ _))
  exact .after (.setDie _ rfl) (.setDie s rfl)

theorem calm_foldClusters (s : State) (f : Nat) : Calm s (s.foldClusters f) :=
  .foldl (fun u x => .foldl (fun v cl => calm_coverCluster v x cl) _ u) _ s

theorem calm_foldMemory (s : State) (f : Nat) : Calm s (s.foldMemory f) := by
  unfold State.foldMemory
  dsimp only
  exact .after (.mapDies _ fun _ _ => rfl) (.of_below (below_foldl (fun u (p : Nat × Nat) => below_pieceHome u p.1 p.2) _ s))

/-- Step 3 of a fold reset empties the launches of the fold's graphs on its drover. -/
theorem graphs_foldTables (s : State) (f d : Nat) : ((s.foldTables f d).drv d).graphs =
    tmap (fun _ g => if bit g.mask f then { g with launches := [] } else g) (s.drv d).graphs := by
  have h := ((calm_freeSlots s d f).trans ((calm_idleNodes _ d (s.nodesOf d f)).trans (calm_freeMade _ d f))).plans d
  unfold State.foldTables
  rw [drv_setDrv, h.2]

theorem graphs_foldTables_ne (s : State) (f : Nat) {d e : Nat} (he : e ≠ d) : ((s.foldTables f d).drv e).graphs = (s.drv e).graphs := by
  have h := ((calm_freeSlots s d f).trans ((calm_idleNodes _ d (s.nodesOf d f)).trans (calm_freeMade _ d f))).plans e
  unfold State.foldTables
  rw [drv_setDrv_ne _ _ he, h.2]

theorem folds_foldTables (s : State) (f d e : Nat) : ((s.foldTables f d).drv e).folds = (s.drv e).folds := by
  have h := ((calm_freeSlots s d f).trans ((calm_idleNodes _ d (s.nodesOf d f)).trans (calm_freeMade _ d f))).plans
  unfold State.foldTables
  by_cases he : e = d
  · rw [he, drv_setDrv]
    exact (h d).1
  · rw [drv_setDrv_ne _ _ he]
    exact (h e).1

theorem fold_unlockFold (s : State) (f d : Nat) : (s.unlockFold f d).fold d f = { s.fold d f with lock := false } := by
  unfold State.unlockFold
  rw [State.fold, drv_setDrv]
  exact tget_tset_self ..

theorem drv_unlockFold_ne (s : State) (f : Nat) {d e : Nat} (he : e ≠ d) : (s.unlockFold f d).drv e = s.drv e := drv_setDrv_ne s _ he

theorem graphs_unlockFold (s : State) (f d e : Nat) : ((s.unlockFold f d).drv e).graphs = (s.drv e).graphs := by
  unfold State.unlockFold
  by_cases he : e = d
  · rw [he, drv_setDrv]
  · rw [drv_setDrv_ne _ _ he]

/-- Steps 3 and 4 of a fold reset, and the clusters of the fold, between its teams' end and the end of LOCK. -/
def State.foldCleared (s : State) (f : Nat) : State :=
  ((((s.foldTables f 0).foldTables f 1).freeFlocks f).foldClusters f).foldMemory f

theorem calm_foldCleared (s : State) (f : Nat) : Calm ((s.foldTables f 0).foldTables f 1) (s.foldCleared f) :=
  (calm_freeFlocks ..).trans ((calm_foldClusters ..).trans (calm_foldMemory ..))

theorem fold_unlocked (s : State) (f : Nat) {d : Nat} (hd : d < 2) :
    (((s.foldCleared f).unlockFold f 0).unlockFold f 1).fold d f = { s.fold d f with lock := false } := by
  have hsame (e : Nat) : (s.foldCleared f).fold e f = s.fold e f := by
    have h := ((calm_foldCleared s f).plans e).1
    rw [folds_foldTables, folds_foldTables] at h
    exact congrArg (tget FoldDesc.reset · f) h
  obtain rfl | rfl : d = 0 ∨ d = 1 := by omega
  · rw [State.fold, drv_unlockFold_ne _ f (by decide : (0 : Nat) ≠ 1)]
    exact (fold_unlockFold ..).trans (hsame 0 ▸ rfl)
  · rw [fold_unlockFold, State.fold, drv_unlockFold_ne _ f (by decide : (1 : Nat) ≠ 0)]
    exact hsame 1 ▸ rfl

/-- No graph of the fold keeps a launch. -/
theorem launches_unlocked {f d gi : Nat} {g : Graph} (hd : d < 2)
    (hg : (gi, g) ∈ ((((s.foldCleared f).unlockFold f 0).unlockFold f 1).drv d).graphs) (hbit : bit g.mask f = true) : g.launches = [] := by
  have hfrom : ∃ t : Tab Graph, ((s.foldCleared f).drv d).graphs =
      tmap (fun _ g => if bit g.mask f then { g with launches := [] } else g) t := by
    have h := ((calm_foldCleared s f).plans d).2
    obtain rfl | rfl : d = 0 ∨ d = 1 := by omega
    · exact ⟨_, h.trans ((graphs_foldTables_ne _ f (by decide)).trans (graphs_foldTables ..))⟩
    · exact ⟨_, h.trans (graphs_foldTables ..)⟩
  obtain ⟨t, ht⟩ := hfrom
  rw [graphs_unlockFold, graphs_unlockFold, ht] at hg
  obtain ⟨e, _, he⟩ := List.mem_map.1 hg
  by_cases hm : bit e.2.mask f = true
  · have hge : g = { e.2 with launches := [] } := (congrArg Prod.snd he).symm.trans (if_pos hm)
    rw [hge]
  · have hge : g = e.2 := (congrArg Prod.snd he).symm.trans (if_neg hm)
    exact absurd (hge ▸ hbit) hm

/-! ### Cluster reset (R288 to R291) -/

theorem cluster_setCluster (s : State) (site cl : Nat) (c : Cluster) : (s.setCluster site cl c).cluster site cl = c := by
  rw [State.cluster, State.setCluster, die_setDie]
  exact tget_tset_self ..

theorem cores_enterQueue (s : State) (i : TeamId) : (s.enterQueue i).cores = s.cores := by
  unfold State.enterQueue
  dsimp only
  split <;> rfl

theorem dies_enterQueue (s : State) (i : TeamId) : (s.enterQueue i).dies = s.dies := by
  unfold State.enterQueue
  dsimp only
  split <;> rfl

theorem freeRange_drv (s : State) (i : TeamId) : (s.freeRange i).cores = s.cores ∧ (s.freeRange i).dies = s.dies := by
  unfold State.freeRange
  split <;> exact ⟨rfl, rfl⟩

/-- An assignment withdrawn leaves the cores but for the core's shadow plane, and the dies. -/
theorem cancelPlane_eq (s : State) (c : CoreId) :
    (s.cancelPlane c).cores = (s.setCore c { s.core c with shadow := Plane.reset }).cores ∧ (s.cancelPlane c).dies = s.dies := by
  unfold State.cancelPlane
  dsimp only
  split
  · exact ⟨rfl, rfl⟩
  · split
    · exact ⟨rfl, rfl⟩
    · split
      · exact freeRange_drv ..
      · exact ⟨cores_enterQueue .., dies_enterQueue ..⟩

/-- What a team that leaves is asked to leave with, once a reset asks it too: a synchronous fault stays the one recorded (R289). -/
def leaveReset : Option Leave → Leave
  | some (.fault r) => .fault r
  | _ => .reset

theorem leaveReset_leaveReset (l : Option Leave) : leaveReset (some (leaveReset l)) = leaveReset l := by
  cases l with
  | none => rfl
  | some l => cases l <;> rfl

/-- A core that a cluster reset has asked: its shadow plane is empty, and its team, if it has one, is to leave (R288, R289). -/
structure ResetAsked (k0 k : CoreSt) : Prop where
  shadow : k.shadow.st = .empty
  run : k.run = k0.run
  leave : k0.run = true → k.leave = some (leaveReset k0.leave)

/-- What a cluster reset does to a core of the cluster. -/
def State.askReset (s : State) (c : CoreId) : State := (if (s.core c).shadow.st == .empty then s else s.cancelPlane c).asyncFault c .reset

/-- The core once its assignment is withdrawn. -/
theorem cores_withdrawn (s : State) (c : CoreId) : ∃ k : CoreSt,
    k.shadow.st = .empty ∧ k.run = (s.core c).run ∧ k.leave = (s.core c).leave ∧
      (if (s.core c).shadow.st == .empty then s else s.cancelPlane c).core c = k ∧
      (∀ d, coreKey d ≠ coreKey c → (if (s.core c).shadow.st == .empty then s else s.cancelPlane c).core d = s.core d) ∧
      (if (s.core c).shadow.st == .empty then s else s.cancelPlane c).dies = s.dies := by
  by_cases he : (s.core c).shadow.st = .empty
  · rw [if_pos (beq_iff_eq.2 he)]
    exact ⟨_, he, rfl, rfl, rfl, fun _ _ => rfl, rfl⟩
  · rw [if_neg fun h => he (beq_iff_eq.1 h)]
    have hcore (d : CoreId) : (s.cancelPlane c).core d = (s.setCore c { s.core c with shadow := Plane.reset }).core d :=
      congrArg (tget CoreSt.reset · (coreKey d)) (cancelPlane_eq s c).1
    refine ⟨{ s.core c with shadow := Plane.reset }, rfl, rfl, rfl, (hcore c).trans (core_setCore ..), fun d hd => ?_, (cancelPlane_eq s c).2⟩
    exact (hcore d).trans (core_setCore_ne s _ hd)

/-- An asynchronous fault changes its core alone. -/
theorem asyncFault_else (s : State) (c : CoreId) (l : Leave) :
    (∀ d, coreKey d ≠ coreKey c → (s.asyncFault c l).core d = s.core d) ∧ (s.asyncFault c l).dies = s.dies := by
  unfold State.asyncFault
  dsimp only
  split
  · exact ⟨fun _ _ => rfl, rfl⟩
  · exact ⟨fun d hd => core_setCore_ne s _ hd, rfl⟩

theorem asyncFault_core (s : State) (c : CoreId) : ((s.asyncFault c .reset).core c).shadow = (s.core c).shadow ∧
    ((s.asyncFault c .reset).core c).run = (s.core c).run ∧
    ((s.core c).run = true → ((s.asyncFault c .reset).core c).leave = some (leaveReset (s.core c).leave)) := by
  unfold State.asyncFault
  dsimp only
  split
  · next h => exact ⟨rfl, rfl, fun hr => absurd h (by rw [hr]; decide)⟩
  · rw [core_setCore]
    refine ⟨rfl, rfl, fun _ => ?_⟩
    cases (s.core c).leave with
    | none => rfl
    | some l => cases l <;> rfl

theorem dies_askReset (s : State) (c : CoreId) : (s.askReset c).dies = s.dies := by
  obtain ⟨_, _, _, _, _, _, hdies⟩ := cores_withdrawn s c
  exact (asyncFault_else _ c .reset).2.trans hdies

theorem core_askReset_ne (s : State) {c d : CoreId} (hd : coreKey d ≠ coreKey c) : (s.askReset c).core d = s.core d := by
  obtain ⟨_, _, _, _, _, hother, _⟩ := cores_withdrawn s c
  exact ((asyncFault_else _ c .reset).1 d hd).trans (hother d hd)

theorem askReset_asked (s : State) (c : CoreId) : ResetAsked (s.core c) ((s.askReset c).core c) := by
  obtain ⟨k, hshadow, hrun, hleave, hcore, _, _⟩ := cores_withdrawn s c
  obtain ⟨h1, h2, h3⟩ := asyncFault_core (if (s.core c).shadow.st == .empty then s else s.cancelPlane c) c
  rw [hcore] at h1 h2 h3
  exact ⟨(congrArg Plane.st h1).trans hshadow, h2.trans hrun, fun hr => (h3 (hrun.trans hr)).trans (hleave ▸ rfl)⟩

theorem ResetAsked.again {k0 k k' : CoreSt} (h1 : ResetAsked k0 k) (h2 : ResetAsked k k') : ResetAsked k0 k' := by
  refine ⟨h2.shadow, h2.run.trans h1.run, fun hr => ?_⟩
  rw [h2.leave (h1.run.trans hr), h1.leave hr, leaveReset_leaveReset]

theorem core_of_key (s : State) {c d : CoreId} (h : coreKey c = coreKey d) : s.core c = s.core d := congrArg (tget CoreSt.reset s.cores) h

theorem foldl_askReset {k0 : CoreSt} {c : CoreId} (l : List CoreId) (h : ResetAsked k0 (s.core c) ∨ (s.core c = k0 ∧ c ∈ l)) :
    ResetAsked k0 ((l.foldl (fun u c => u.askReset c) s).core c) := by
  induction l generalizing s with
  | nil => exact h.elim id fun h => nomatch h.2
  | cons a l ih =>
    refine ih ?_
    by_cases hk : coreKey c = coreKey a
    · have hasked : ResetAsked (s.core c) ((s.askReset a).core c) := by
        rw [core_of_key _ hk, core_of_key _ hk]
        exact askReset_asked s a
      exact .inl (h.elim (fun h => h.again hasked) fun h => h.1 ▸ hasked)
    · rw [core_askReset_ne s hk]
      refine h.imp id fun h => ⟨h.1, (List.mem_cons.1 h.2).resolve_left fun hc => hk (hc ▸ rfl)⟩

theorem dies_foldl_askReset (l : List CoreId) (s : State) : (l.foldl (fun u c => u.askReset c) s).dies = s.dies := by
  induction l generalizing s with
  | nil => rfl
  | cons a l ih => exact (ih _).trans (dies_askReset s a)

/-- A cluster reset of a cluster of the site that is not in reset. -/
theorem clusterReset_eq {site cl : Nat} (hcl : cl < clustersOf site) (hin : s.inReset site cl = false) : s.clusterReset site cl =
    (clusterIds site cl).foldl (fun u c => u.askReset c) (s.setCluster site cl { s.cluster site cl with reset := some s.runNs }) :=
  if_neg (by rw [hin, decide_eq_false (Nat.not_le.2 hcl)]; decide)

/-! ### Steps 3 to 5 of a cluster reset -/

/-- A core as a cluster reset leaves it, but for what outlasts the reset. -/
structure CoreClear (k : CoreSt) : Prop where
  run : k.run = false
  team : k.team = TeamSt.reset
  l1 : k.l1 = []
  lease : k.lease = .none
  shadow : k.shadow = Plane.reset
  active : k.active = Plane.reset

/-- A core back in its reset state. -/
def State.coreReset (s : State) (c : CoreId) : State :=
  s.setCore c { CoreSt.reset with service := (s.core c).service, l1Next := (s.core c).l1Next }

theorem foldl_coreReset {c : CoreId} (l : List CoreId) (h : CoreClear (s.core c) ∨ c ∈ l) :
    CoreClear ((l.foldl (fun u c => u.coreReset c) s).core c) := by
  induction l generalizing s with
  | nil => exact h.elim id fun h => nomatch h
  | cons a l ih =>
    refine ih ?_
    by_cases hk : coreKey c = coreKey a
    · rw [core_of_key _ hk]
      unfold State.coreReset
      rw [core_setCore]
      exact .inl ⟨rfl, rfl, rfl, rfl, rfl, rfl⟩
    · have hother : (s.coreReset a).core c = s.core c := core_setCore_ne s _ hk
      rw [hother]
      exact h.imp id fun h => (List.mem_cons.1 h).resolve_left fun hc => hk (hc ▸ rfl)

theorem cores_foldl {α : Type} {f : State → α → State} (hf : ∀ s a, (f s a).cores = s.cores) (l : List α) (s : State) :
    (l.foldl f s).cores = s.cores := by
  induction l generalizing s with
  | nil => rfl
  | cons a l ih => exact (ih _).trans (hf s a)

theorem cores_freeSwapped (s : State) (a : Away) : (s.freeSwapped a).cores = s.cores := by
  unfold State.freeSwapped
  split <;> rfl

theorem cores_requeue (s : State) (d n : Nat) (a : Away) : (s.requeue d n a).cores = s.cores := by
  unfold State.requeue
  split
  · exact (cores_enterQueue ..).trans (cores_freeSwapped ..)
  · rfl

theorem cores_requeueSwapped (s : State) (site cl : Nat) : (s.requeueSwapped site cl).cores = s.cores := by
  unfold State.requeueSwapped
  dsimp only
  refine cores_foldl (fun u d => ?_) _ s
  refine cores_foldl (fun v n => ?_) _ u
  split
  · split
    · exact cores_requeue ..
    · rfl
  · rfl

/-- The state after steps 3 and 4 of a cluster reset. -/
def State.coresCleared (s : State) (site cl : Nat) : State :=
  (clusterIds site cl).foldl (fun u c => u.coreReset c)
    (((clusterIds site cl).foldl (fun (u : State) c => if (u.core c).run then u.endUnsaved c else u) s).cutInterface site cl)

theorem cores_clusterClear (s : State) (site cl : Nat) : (s.clusterClear site cl).cores = ((s.coresCleared site cl).requeueSwapped site cl).cores := by
  unfold State.clusterClear State.coresCleared State.coreReset
  rw [State.setCluster, State.setDie]
  dsimp only [State.leaseReset, State.setDie]

theorem clusterClear_cores (s : State) {site cl : Nat} {c : CoreId} (hc : c ∈ clusterIds site cl) :
    CoreClear ((s.clusterClear site cl).core c) := by
  have hcore : (s.clusterClear site cl).core c = (s.coresCleared site cl).core c :=
    congrArg (tget CoreSt.reset · (coreKey c)) ((cores_clusterClear s site cl).trans (cores_requeueSwapped ..))
  rw [hcore]
  exact foldl_coreReset _ (.inr hc)

theorem clusterClear_cluster (s : State) (site cl : Nat) : ∃ c : Cluster,
    (s.clusterClear site cl).cluster site cl = { c with waiters := [], clearing := true, inbox := [] } :=
  ⟨_, cluster_setCluster ..⟩

/-! ### Package reset and boot (R433 to R437, R446) -/

/-- The links of the dies apart, nothing differs that a package reset speaks of. -/
structure LinksOnly (s v : State) : Prop where
  cores : v.cores = s.cores
  drovers : v.drovers = s.drovers
  mem : v.mem = s.mem
  mgmt : v.mgmt = s.mgmt
  dies : ∀ x, v.die x = { s.die x with links := (v.die x).links }

namespace LinksOnly

theorem refl (s : State) : LinksOnly s s := ⟨rfl, rfl, rfl, rfl, fun _ => rfl⟩

theorem trans (h1 : LinksOnly s u) (h2 : LinksOnly u v) : LinksOnly s v :=
  ⟨h2.cores.trans h1.cores, h2.drovers.trans h1.drovers, h2.mem.trans h1.mem, h2.mgmt.trans h1.mgmt, fun x => by rw [h2.dies x, h1.dies x]⟩

theorem foldl {α : Type} {f : State → α → State} (hf : ∀ s a, LinksOnly s (f s a)) (l : List α) (s : State) : LinksOnly s (l.foldl f s) := by
  induction l generalizing s with
  | nil => exact .refl s
  | cons a l ih => exact (hf s a).trans (ih _)

end LinksOnly

theorem linksOnly_setLink (s : State) (site p : Nat) (l : Link) : LinksOnly s (s.setLink site p l) := by
  refine ⟨rfl, rfl, rfl, rfl, fun x => ?_⟩
  unfold State.setLink
  by_cases hx : x = site
  · rw [hx, die_setDie]
  · rw [die_setDie_ne s _ hx]

theorem linksOnly_bothWays (s : State) (site p : Nat) (f : Link → Link) : LinksOnly s (s.bothWays site p f) := by
  unfold State.bothWays
  dsimp only
  split
  · exact linksOnly_setLink ..
  · exact (linksOnly_setLink ..).trans (linksOnly_setLink ..)

theorem linksOnly_holdDown (s : State) (l : List Nat) : LinksOnly s (s.holdDown l) := by
  refine .foldl (fun u x => .foldl (fun v p => ?_) _ u) l s
  split
  · exact linksOnly_bothWays ..
  · exact .refl v

/-- The first step of boot changes BOOTSTAT, the phase and the links of retired sites. -/
theorem linksOnly_rom (s : State) : LinksOnly { s with mgmt := s.mgmt.romStart } s.rom := by
  unfold State.rom
  dsimp only
  split
  · exact .refl _
  · exact linksOnly_holdDown ..

/-- What step 1 of boot leaves of the management function. -/
theorem romStart_kept (m : Mgmt) : m.romStart.record = m.record ∧ m.romStart.hostUp = m.hostUp ∧ m.romStart.toRetire = m.toRetire ∧
    m.romStart.staging = m.staging ∧ m.romStart.apbase = m.apbase := by
  unfold Mgmt.romStart
  split
  · exact ⟨rfl, rfl, rfl, rfl, rfl⟩
  split
  · exact ⟨rfl, rfl, rfl, rfl, rfl⟩
  split <;> exact ⟨rfl, rfl, rfl, rfl, rfl⟩

theorem mgmt_foldl {α : Type} {f : State → α → State} (hf : ∀ s a, (f s a).mgmt = s.mgmt) (l : List α) (s : State) :
    (l.foldl f s).mgmt = s.mgmt := by
  induction l generalizing s with
  | nil => rfl
  | cons a l ih => exact (ih _).trans (hf s a)

theorem mgmt_romTables (s : State) : s.romTables.mgmt = s.mgmt :=
  (mgmt_foldl (f := fun (u : State) x => u.setDie x { u.die x with routes := s.routesOf s.mgmt.expected x }) (fun _ _ => rfl)
    s.mgmt.expected { s with freeCtr := s.freeCtr + 3600 } :)

end Machine

open Host Machine

/-- Settles O58. -/
theorem resetAndBootStepsComplete : Obligations.ResetAndBootStepsComplete := by
  unfold Obligations.ResetAndBootStepsComplete
  intro s t e m w
  refine ⟨rfl, ?_, ?_, rfl, ?_, rfl, ?_, ?_, ?_, ?_, ?_, ?_, ?_, ?_, ?_, rfl, ?_, ?_⟩
  · intro site cl hcl
    refine ⟨fun hin => if_pos (by rw [hin, Bool.or_true]), fun hin => ?_, ?_⟩
    · intro u
      have hu : u = _ := clusterReset_eq hcl hin
      clear_value u
      subst hu
      refine ⟨?_, fun c hc => ?_⟩
      · rw [State.cluster, State.die, dies_foldl_askReset]
        exact congrArg Cluster.reset (cluster_setCluster s site cl { s.cluster site cl with reset := some s.runNs })
      · have hasked : ResetAsked (s.core c) _ := foldl_askReset (s := s.setCluster site cl { s.cluster site cl with reset := some s.runNs })
          (clusterIds site cl) (.inr ⟨rfl, hc⟩)
        refine ⟨hasked.shadow, hasked.run, fun hr => (hasked.leave hr).trans ?_⟩
        cases (s.core c).leave with
        | none => rfl
        | some l => cases l <;> rfl
    · intro u
      have hcores := fun c => clusterClear_cores s (site := site) (cl := cl) (c := c)
      obtain ⟨c, hcluster⟩ := clusterClear_cluster s site cl
      have hu : u = s.clusterClear site cl := rfl
      clear_value u
      subst hu
      rw [hcluster]
      refine ⟨rfl, rfl, rfl, fun c hc => ?_⟩
      obtain ⟨h1, h2, h3, h4, h5, h6⟩ := hcores c hc
      exact ⟨h1, h2, h3, h4, h5, h6⟩
  · intro ht
    have ht : (s.cluster s.ev.site s.ev.n).reset = some t := ht
    refine ⟨fun hclear hdue => ?_, fun hclear hdue => ?_, fun hclear => ?_⟩
    · have hclear : (s.cluster s.ev.site s.ev.n).clearing = false := hclear
      show execClusterResetSaveDeadline s = _
      unfold execClusterResetSaveDeadline
      simp only [ht, hclear, if_pos hdue]
      rfl
    · have hclear : (s.cluster s.ev.site s.ev.n).clearing = false := hclear
      show execClusterResetSaveDeadline s = _
      unfold execClusterResetSaveDeadline
      simp only [ht, hclear, if_neg (Nat.not_le.2 hdue)]
      rfl
    · have hclear : (s.cluster s.ev.site s.ev.n).clearing = true := hclear
      show execClusterResetSaveDeadline s = _
      unfold execClusterResetSaveDeadline
      simp only [ht, hclear, if_true]
      rfl
  · intro f l v u
    refine ⟨rfl, ?_, ?_, ?_⟩
    · intro d gi g x hd hg hbit hx
      refine List.mem_flatMap.2 ⟨d, ?_, List.mem_flatMap.2 ⟨(gi, g), hg, ?_⟩⟩
      · obtain rfl | rfl : d = 0 ∨ d = 1 := by omega
        · exact .head _
        · exact .tail _ (.head _)
      · rw [if_pos hbit]
        refine List.mem_map.2 ⟨x, hx, ?_⟩
        simp only [Bool.and_eq_true, Option.isNone_iff_eq_none]
    · exact fun d hd => fold_unlocked v f hd
    · exact fun d gi g hd hg hbit => launches_unlocked (s := v) hd hg hbit
  · intro b c x d u
    obtain ⟨hcores, hdrovers, hmem, hmgmt, hdies⟩ : LinksOnly _ u := linksOnly_rom _
    obtain ⟨hrecord, hhost, hretire, hstaging, hapbase⟩ := romStart_kept ({ Mgmt.reset with
      record := s.mgmt.record, recSeq := s.mgmt.recSeq, recValid := s.mgmt.recValid, toRetire := s.mgmt.toRetire, hostUp := s.mgmt.hostUp, brownout := b })
    exact ⟨congrArg (tget CoreSt.reset · (coreKey c)) hcores, hdies x, congrArg (tget Drover.reset · d) hdrovers, hmem,
      (congrArg Mgmt.record hmgmt).trans hrecord, (congrArg Mgmt.hostUp hmgmt).trans hhost, (congrArg Mgmt.toRetire hmgmt).trans hretire,
      (congrArg Mgmt.staging hmgmt).trans hstaging, (congrArg Mgmt.apbase hmgmt).trans hapbase⟩
  · intro hacts site cl
    have hgo : ¬ (!s.rstActs 1) = true := by rw [hacts]; decide
    refine ⟨fun h => ?_, fun hlive hcl => ⟨fun hin => ?_, fun hin => ?_⟩⟩
    · refine congrArg Host.Outcome.next ((if_neg hgo).trans (if_pos ?_))
      simp only [Bool.or_eq_true, Bool.not_eq_true', decide_eq_true_eq]
      exact h
    all_goals
      have hthere : ¬ (!s.siteLive site || decide (clustersOf site ≤ cl)) = true := by
        rw [hlive, decide_eq_false (Nat.not_le.2 hcl)]
        decide
    · exact congrArg Host.Outcome.next ((if_neg hgo).trans ((if_neg hthere).trans (if_pos hin)))
    · exact congrArg Host.Outcome.next ((if_neg hgo).trans ((if_neg hthere).trans (if_neg (Bool.eq_false_iff.1 hin))))
  · exact fun hacts => congrArg Host.Outcome.next (if_pos hacts)
  · exact fun hacts => congrArg Host.Outcome.next (if_pos hacts)
  · intro hacts hkind hlive k d c v
    have hgo : ¬ (!s.rstActs 4) = true := by rw [hacts]; decide
    refine congrArg Host.Outcome.next ((if_neg hgo).trans (if_neg ?_))
    rw [hkind, hlive]
    decide
  · intro r f
    have hpass (hf : f = 0) : ¬ (f != 0) = true := by rw [hf]; decide
    refine ⟨fun hphase hb hlen => ?_, fun hphase => ?_⟩
    · refine congrArg Host.Outcome.next (if_neg ?_)
      have hlen : ¬ stagingSize < s.ev.n + s.ev.bytes.length := Nat.not_lt.2 hlen
      simp only [Bool.or_eq_true, beq_iff_eq, decide_eq_true_eq, not_or]
      exact ⟨⟨hphase, Bool.eq_false_iff.1 hb⟩, hlen⟩
    have hone : ¬ (r.mgmt.phase != 1) = true := by rw [hphase]; decide
    refine ⟨fun hf => ?_, fun hf hdiff => ?_, ?_⟩
    · exact congrArg Host.Outcome.next ((if_neg hone).trans (if_pos (bne_iff_ne.2 hf)))
    · obtain ⟨x, hx, hne⟩ := hdiff
      refine congrArg Host.Outcome.next ((if_neg hone).trans ((if_neg (hpass hf)).trans (if_pos ?_)))
      have hall : ((List.range 60).all fun x => s.ev.list.contains x == r.mgmt.expected.contains x) = false :=
        List.all_eq_false.2 ⟨x, List.mem_range.2 hx, fun h => hne (beq_iff_eq.1 h)⟩
      rw [hall]
      rfl
    · intro hf hsame hsites b entry
      have hall : ((List.range 60).all fun x => s.ev.list.contains x == r.mgmt.expected.contains x) = true :=
        List.all_eq_true.2 fun x hx => beq_iff_eq.2 (hsame x (List.mem_range.1 hx))
      have hany : (s.ev.list.any fun x => decide (59 < x)) = false :=
        List.any_eq_false.2 fun x hx h => absurd (of_decide_eq_true h) (Nat.not_lt.2 (Nat.le_of_lt_succ (hsites x hx)))
      refine congrArg Host.Outcome.next ((if_neg hone).trans ((if_neg (hpass hf)).trans ((if_neg ?_).trans ?_)))
      · rw [hall, hany]
        decide
      · have hwords : b.romTables.retireAsked.mgmt.fwwords = (bootNat r.mgmt.staging 8 8 + 3) / 4 := congrArg Mgmt.fwwords (mgmt_romTables b)
        show (if b.romTables.retireAsked.mgmt.fwwords ≤ entry then _ else _) = _
        rw [hwords]
  · intro hrun hlive
    have hgo : ¬ (!s.starterRuns || !s.siteLive (Config.drvSite (s.ev.site % 2))) = true := by
      have hlive : s.siteLive (Config.drvSite (s.ev.site % 2)) = true := hlive
      rw [hrun, hlive]
      decide
    refine ⟨fun h => ?_, fun h => ?_⟩
    · exact congrArg Host.Outcome.next ((if_neg hgo).trans (if_neg (Nat.not_le.2 h)))
    · exact congrArg Host.Outcome.next ((if_neg hgo).trans (if_pos h))
  · exact fun hrun => congrArg Host.Outcome.next (if_pos (by rw [hrun]; rfl))
  · intro hb body
    exact congrArg Host.Outcome.next (if_neg (Bool.eq_false_iff.1 hb))
  · intro hst hn
    refine congrArg Host.Outcome.next (if_neg ?_)
    have hst : s.siteStatus s.timeDrv s.ev.site = 1 ∨ s.siteStatus s.timeDrv s.ev.site = 2 := hst
    have hn : s.ev.n < bits (tget 0 (s.drv s.timeDrv).disc s.ev.site).toNat 47 32 := hn
    have hlive : (s.siteStatus s.timeDrv s.ev.site == 1 || s.siteStatus s.timeDrv s.ev.site == 2) = true := by
      rw [Bool.or_eq_true, beq_iff_eq, beq_iff_eq]
      exact hst
    rw [hlive, decide_eq_false (Nat.not_le.2 hn)]
    exact Bool.false_ne_true
  · intro hsite hkind hnot hwhy
    have hmay : s.mayRetire s.ev.site = true := by
      unfold State.mayRetire
      rw [decide_eq_true hsite, bne_iff_ne.2 hkind, (hnot : s.mgmt.retired s.ev.site = false)]
      rfl
    have hdo : exec .dieRetirement s = .next (s.retireWhenUp s.ev.site s.ev.n) := by
      refine congrArg Host.Outcome.next (if_pos ?_)
      simp only [Bool.and_eq_true, Bool.or_eq_true, List.contains_iff_mem]
      exact ⟨hmay, hwhy⟩
    rw [hdo]
    exact ⟨fun hup => congrArg Host.Outcome.next (retireWhenUp_running hup), fun hdown => congrArg Host.Outcome.next (retireWhenUp_waiting hdown)⟩

end Sys2Proof

/-! SUPPORT. Every operation on memory keeps the memories canonical: the L1, the scratchpads, MMIO registers, and loads and stores. The later
files do the same for the operations that are written with these. -/

namespace Sys2Proof

namespace Machine

variable {s u v : State} {w : Who} {ea : W64}

/-- The memories of a result's state are canonical. -/
abbrev GoodWf {ε α : Type} (x : Except ε (α × State)) : Prop := Good (fun r => r.2.memWf) x

/-- The memories of a resulting state are canonical. -/
abbrev GoodSt {ε : Type} (x : Except ε State) : Prop := Good State.memWf x

/-- The memories of a state are canonical, where there is one. -/
structure SomeWf (x : Option State) : Prop where
  of : ∀ t, x = some t → t.memWf

theorem GoodBelow.wf {α : Type} {x : Iss (α × State)} (hx : GoodBelow s x) (h : s.memWf) : GoodWf x := hx.mono fun _ hb => hb.memWf h

theorem someWf_ite {c : Prop} [Decidable c] {x y : Option State} (hx : SomeWf x) (hy : SomeWf y) : SomeWf (if c then x else y) := by
  split
  · exact hx
  · exact hy

theorem someWf_some (h : s.memWf) : SomeWf (some s) := ⟨fun _ ht => Option.some.inj ht ▸ h⟩

theorem someWf_none : SomeWf none := ⟨fun _ ht => nomatch ht⟩

/-! ### The L1 -/

theorem State.memWf.cohRead (h : s.memWf) (lvl : Lvl) (a n : Nat) : GoodWf (s.cohRead w lvl a n ea) := ⟨fun _ hr => (below_cohRead hr).memWf h⟩

theorem State.memWf.cohWrite (h : s.memWf) (lvl : Lvl) (a : Nat) (data : List Byte) : GoodSt (s.cohWrite w lvl a data ea) :=
  ⟨fun _ hr => (below_cohWrite hr).memWf h⟩

theorem State.memWf.reachHome (h : s.memWf) (pa : Nat) : GoodSt (s.reachHome w pa ea) := ⟨fun _ hr => (below_reachHome hr).memWf h⟩

theorem State.memWf.markBad (h : s.memWf) (l : List Bad) : (s.markBad l).memWf := (below_markBad s l).memWf h

theorem State.memWf.cleanLine (h : s.memWf) (w : Who) (line : Nat) : (s.cleanLine w line).memWf := (below_cleanLine s w line).memWf h

theorem State.memWf.l1Clean (h : s.memWf) (w : Who) (id : Nat) : (s.l1Clean w id).memWf := (below_l1Clean s w id).memWf h

theorem State.memWf.l1Leave (h : s.memWf) (w : Who) (id : Nat) : (s.l1Leave w id).memWf := (below_l1Leave s w id).memWf h

theorem State.memWf.l1UnlockAll (h : s.memWf) (w : Who) (l : List Nat) : (s.l1UnlockAll w l).memWf := (below_l1UnlockAll s w l).memWf h

theorem State.memWf.l1LeaveAll (h : s.memWf) (w : Who) (l : List Nat) : (s.l1LeaveAll w l).memWf := by
  induction l generalizing s with
  | nil => exact h
  | cons id l ih => exact ih (h.l1Leave w id)

theorem State.memWf.l1CleanAll (h : s.memWf) (w : Who) (l : List Nat) : (s.l1CleanAll w l).memWf := by
  induction l generalizing s with
  | nil => exact h
  | cons id l ih => exact ih (h.l1Clean w id)

theorem State.memWf.writtenBack (h : s.memWf) : GoodSt (s.writtenBack w) := good_ite good_error (good_ok h)

theorem State.memWf.released (h : s.memWf) : GoodSt (s.released w) := (h.l1CleanAll w _).writtenBack

theorem State.memWf.acquired (h : s.memWf) : GoodSt (s.acquired w) := (h.l1LeaveAll w _).writtenBack

theorem State.memWf.l1Flush (h : s.memWf) : GoodSt (s.l1Flush w) := good_ite good_error (good_ok (h.l1CleanAll w _))

theorem State.memWf.l1Beyond (h : s.memWf) (line : Nat) : GoodSt (s.l1Beyond w line) := by
  refine good_ite good_error (good_ok ?_)
  split
  · exact h.l1Leave ..
  · exact h.cleanLine ..

theorem State.memWf.l1Room (h : s.memWf) (line : Nat) : Good SomeWf (s.l1Room w line) := by
  refine good_ite (good_ok (someWf_some h)) ?_
  split
  · exact good_ok someWf_none
  · exact good_ite good_error (good_ok (someWf_some (h.l1Clean w _)))

theorem State.memWf.staleHome (h : s.memWf) (line : Nat) : GoodSt (s.staleHome w line) := good_ite good_error (good_ok (h.cleanLine w line))

theorem State.memWf.l1Fill (h : s.memWf) (line : Nat) (lvl : Lvl) (brief : Bool) : GoodWf (s.l1Fill w line lvl brief ea) := by
  unfold State.l1Fill
  split
  · exact good_ite (good_ok h) (good_bind (h.cohRead ..) fun r hr => good_ok hr)
  · refine good_bind (h.staleHome line) fun s0 h0 => good_bind (h0.l1Room line) fun o ho => ?_
    split
    · exact good_ok h0
    · exact good_bind ((ho.of _ rfl).cohRead ..) fun r hr => good_ok hr

theorem State.memWf.l1Read (h : s.memWf) (pa n : Nat) : GoodWf (s.l1Read w pa n ea) := by
  unfold State.l1Read
  dsimp only
  split
  · exact good_ok h
  · refine good_bind (h.l1Fill ..) fun r hr => ?_
    split
    · split
      · exact good_ok hr
      · exact good_ok hr
    · exact hr.cohRead ..

theorem State.memWf.writePast (h : s.memWf) (lvl : Lvl) (pa : Nat) (data : List Byte) : GoodSt (s.writePast w lvl pa data ea) :=
  good_bind (h.l1Beyond _) fun _ h1 => good_bind (h1.cohWrite ..) fun _ h2 => good_ok h2

theorem State.memWf.l1Write (h : s.memWf) (pa : Nat) (data : List Byte) : GoodSt (s.l1Write w pa data ea) := by
  unfold State.l1Write
  dsimp only
  split
  · exact good_ok h
  · refine good_bind (h.staleHome _) fun s0 h0 => good_bind (h0.reachHome pa) fun s1 h1 => good_bind (h1.l1Room _) fun o ho => ?_
    split
    · next s2 => exact good_ok (ho.of s2 rfl :)
    · exact h1.writePast ..

/-! ### Scratchpads -/

theorem State.memWf.cspWrite (h : s.memWf) (site cl off : Nat) (data : List Byte) : (s.cspWrite site cl off data).memWf :=
  h.setCluster site cl (wf_cwrite _ _ (h.2.2.2.1 site cl))

theorem State.memWf.dspWrite (h : s.memWf) (site off : Nat) (data : List Byte) : (s.dspWrite site off data).memWf := by
  obtain ⟨h1, h2, h3, h4, h5, h6, h7, h8, h9⟩ := h
  unfold State.dspWrite
  refine ⟨h1, h2, h3, fun x k => ?_, fun x => ?_, h6, h7, h8, h9⟩
  · rw [State.cluster]
    by_cases hx : x = site
    · rw [hx, die_setDie]
      exact h4 site k
    · rw [die_setDie_ne s _ hx]
      exact h4 x k
  · by_cases hx : x = site
    · rw [hx, die_setDie]
      exact wf_cwrite _ _ (h5 site)
    · rw [die_setDie_ne s _ hx]
      exact h5 x

/-- Every drover changed beside its graph memory. -/
theorem State.memWf.mapDrovers (h : s.memWf) {f : Nat → Drover → Drover} (hf : ∀ k d, (f k d).gmem = d.gmem) :
    ({ s with drovers := tmap f s.drovers } : State).memWf := by
  obtain ⟨h1, h2, h3, h4, h5, h6, h7, h8, h9⟩ := h
  refine ⟨h1, h2, h3, h4, h5, fun d => ?_, h7, h8, h9⟩
  show Memory.wf (tget Drover.reset (tmap f s.drovers) d).gmem = true
  rw [tget_tmap_part hf Drover.reset s.drovers d]
  exact h6 d

theorem State.memWf.waiterDone (h : s.memWf) (site : Nat) (x : Waiter) (v : Option W64) : (s.waiterDone site x v).memWf := h

theorem State.memWf.feMet (h : s.memWf) (team site cl off : Nat) : (s.feMet team site cl off).memWf := h.mapDrovers fun _ _ => rfl

theorem wf_waiterDo {c : Cluster} (hc : Memory.wf c.mem = true) (x : Waiter) : Memory.wf (waiterDo c x).mem = true := by
  unfold waiterDo
  split
  · exact wf_cwrite _ _ hc
  · split <;> exact hc

theorem State.memWf.scanPass (h : s.memWf) (site cl word : Nat) (l kept : List Waiter) (did : Bool) :
    (s.scanPass site cl word l kept did).1.memWf := by
  induction l generalizing s kept did with
  | nil => exact h
  | cons x l ih =>
    unfold State.scanPass
    dsimp only
    split
    · split
      · exact ih (h.feMet ..) kept did
      · split
        · exact ih (h.waiterDone ..) kept true
        · exact ih ((h.setCluster site cl (wf_waiterDo (h.2.2.2.1 site cl) x)).waiterDone ..) kept true
    · exact ih h (x :: kept) did

theorem State.memWf.scanWord (h : s.memWf) (site cl word n : Nat) : (s.scanWord site cl word n).memWf := by
  induction n generalizing s with
  | zero => exact h
  | succ n ih =>
    have hpass := (h.scanPass site cl word (s.cluster site cl).waiters [] false).setClusterSame site cl
      (c := { (s.scanPass site cl word (s.cluster site cl).waiters [] false).1.cluster site cl with
        waiters := (s.scanPass site cl word (s.cluster site cl).waiters [] false).2.1 }) rfl
    exact .ite (ih hpass) hpass

theorem State.memWf.serviceScan (h : s.memWf) (site cl off : Nat) : (s.serviceScan site cl off).memWf := h.scanWord ..

theorem State.memWf.markWord (h : s.memWf) (site cl off : Nat) (full : Bool) : (s.markWord site cl off full).memWf :=
  (h.setClusterSame site cl (by rfl)).serviceScan ..

/-! ### MMIO and kicks -/

/-- The management function changed beside its memories. -/
theorem State.memWf.setMgmt (h : s.memWf) {m : Mgmt} (h1 : m.fwmem = s.mgmt.fwmem)
    (h2 : m.staging = s.mgmt.staging) (h3 : m.fwlog = s.mgmt.fwlog) : ({ s with mgmt := m } : State).memWf := by
  obtain ⟨hm, hh, hp, hc, hd, hg, hfw, hst, hlog⟩ := h
  exact ⟨hm, hh, hp, hc, hd, hg, h1 ▸ hfw, h2 ▸ hst, h3 ▸ hlog⟩

theorem State.memWf.setAgenda (h : s.memWf) (l : List Sched) : ({ s with agenda := l } : State).memWf := h

theorem State.memWf.drvWrite (h : s.memWf) (d o : Nat) (val mask : W64) : SomeWf (s.drvWrite d o val mask) := by
  unfold State.drvWrite
  refine someWf_ite (someWf_some (h.setDrvSame d rfl)) ?_
  refine someWf_ite (someWf_some (h.setDrvSame d rfl)) ?_
  refine someWf_ite (someWf_some h) ?_
  refine someWf_ite (someWf_some (h.setDrvSame d rfl)) ?_
  refine someWf_ite (someWf_some (.ite (h.setDrvSame d rfl) h)) ?_
  refine someWf_ite (someWf_some (h.setMgmt rfl rfl rfl)) ?_
  refine someWf_ite ?_ ?_
  · split
    · exact someWf_some (.ite h (h.setMgmt rfl rfl rfl))
    · exact someWf_some (h.setMgmt rfl rfl rfl)
    · exact someWf_some (h.setAgenda _)
    · exact someWf_some (h.setAgenda _)
    · exact someWf_some h
  refine someWf_ite (someWf_some (h.setDrvSame d rfl)) ?_
  refine someWf_ite ?_ ?_
  · refine someWf_some ?_
    split
    · exact h.setAgenda _
    · exact h
  refine someWf_ite (someWf_some (h.setDrvSame d rfl)) ?_
  refine someWf_ite (someWf_some h) ?_
  refine someWf_ite (someWf_ite (someWf_some h) (someWf_some (h.setDrvSame d rfl))) ?_
  refine someWf_ite (someWf_some (.ite (h.setDrvSame d rfl) h)) ?_
  exact someWf_ite (someWf_some h) someWf_none

theorem State.memWf.keyWrite (h : s.memWf) (site f o : Nat) (val mask : W64) : (s.keyWrite site f o val mask).memWf :=
  .ite h (h.setDie site rfl)

theorem State.memWf.kindWrite (h : s.memWf) (site o : Nat) (val mask : W64) : SomeWf (s.kindWrite site o val mask) := by
  unfold State.kindWrite
  dsimp only
  split
  · refine someWf_ite (someWf_some (.ite (h.setDie site rfl) h)) (someWf_ite (someWf_some (.ite (h.setDie site rfl) h)) ?_)
    refine someWf_ite (someWf_some (h.setAgenda _)) (someWf_ite (someWf_some h) ?_)
    exact someWf_ite (someWf_some (h.keyWrite ..)) someWf_none
  · refine someWf_ite (someWf_some (h.keyWrite ..)) (someWf_ite (someWf_some (h.setDie site rfl)) someWf_none)
  · refine someWf_ite (someWf_some (h.setDie site rfl)) (someWf_ite (someWf_some (.ite (h.setDie site rfl) h)) ?_)
    refine someWf_ite (someWf_some (h.setDie site rfl)) (someWf_ite (someWf_some (h.setDie site rfl)) ?_)
    exact someWf_ite (someWf_some (h.setDie site rfl)) someWf_none
  · exact someWf_none

theorem State.memWf.commonWrite (h : s.memWf) (site o : Nat) (val mask : W64) : SomeWf (s.commonWrite site o val mask) := by
  unfold State.commonWrite
  refine someWf_ite (someWf_some (.ite (h.setDie site rfl) h)) (someWf_ite (someWf_some (h.setDie site rfl)) (someWf_ite ?_ ?_))
  · refine someWf_some ?_
    split
    · exact h.setDie site rfl
    · exact h.setDie site rfl
    · exact h
  · exact someWf_ite (someWf_some (h.setDie site rfl)) someWf_none

theorem State.memWf.winWrite (h : s.memWf) (site o : Nat) (val mask : W64) : SomeWf (s.winWrite site o val mask) := by
  unfold State.winWrite
  split
  · next hc => exact someWf_some ((h.commonWrite site o val mask).of _ hc)
  · exact someWf_ite (h.drvWrite ..) (h.kindWrite ..)

theorem State.memWf.mmioWrite (h : s.memWf) (d off : Nat) (data : List Byte) : SomeWf (s.mmioWrite d off data) := by
  unfold State.mmioWrite
  split
  · exact someWf_none
  · exact someWf_ite someWf_none (h.winWrite ..)

theorem State.memWf.raisePend (h : s.memWf) (d q : Nat) : (s.raisePend d q).memWf := (calm_raisePend s d q).memWf h

theorem State.memWf.wake (h : s.memWf) (d : Nat) (sel : CoreSt → Swait → Bool) : (s.wake d sel).memWf := (calm_wake s d sel).memWf h

theorem State.memWf.kickQueue (h : s.memWf) (d q : Nat) (fold : Option Nat) : (s.kickQueue d q fold).memWf := by
  unfold State.kickQueue
  refine .ite h ?_
  split
  · exact h
  · exact .ite (h.setDrvSame d rfl) (h.raisePend ..)
  · exact h.raisePend ..

theorem State.memWf.kickStore (h : s.memWf) (w : Who) (pa : Nat) : (s.kickStore w pa).memWf :=
  .ite (.ite (h.kickQueue ..) h) (.ite (h.setAgenda _) h)

theorem State.memWf.kickRange (h : s.memWf) (pa n : Nat) : GoodSt (s.kickRange w pa n ea) :=
  good_check fun _ => good_ok (h.foldl (fun _ _ hu => hu.kickStore ..) _)

/-! ### Loads and stores -/

theorem State.memWf.readLines (h : s.memWf) (lvl : Lvl) (pa n k : Nat) : GoodWf (s.readLines w lvl pa n ea k) := by
  induction k generalizing s pa n with
  | zero => exact good_ok h
  | succ k ih =>
    have hrest (r : List Byte × State) (hr : r.2.memWf) : GoodWf (r.2.readLines w lvl (pa + firstPart pa n) (n - firstPart pa n) ea k >>=
        fun q => .ok (r.1 ++ q.1, q.2)) := good_bind (ih hr _ _) fun _ hq => good_ok hq
    refine good_ite (good_ok h) (good_ite ?_ (good_ite ?_ ?_))
    · exact good_bind ((good_kickRead ..).wf h) hrest
    · exact good_bind (h.l1Read ..) hrest
    · exact good_bind (good_bind (h.l1Beyond _) fun _ hu => hu.cohRead ..) hrest

theorem State.memWf.writeLines (h : s.memWf) (lvl : Lvl) (pa : Nat) (data : List Byte) (k : Nat) : GoodSt (s.writeLines w lvl pa data ea k) := by
  induction k generalizing s pa data with
  | zero => exact good_ok h
  | succ k ih =>
    refine good_ite (good_ok h) (good_ite ?_ (good_ite ?_ ?_))
    · exact good_bind (h.kickRange ..) fun _ hu => ih hu _ _
    · exact good_bind (h.l1Write ..) fun _ hu => ih hu _ _
    · exact good_bind (h.writePast ..) fun _ hu => ih hu _ _

theorem State.memWf.doLoad (h : s.memWf) (p : Place) (n : Nat) : GoodWf (s.doLoad w p n ea) := by
  by_cases hp : ∃ pa lvl, p = .mem pa lvl
  · obtain ⟨pa, lvl, rfl⟩ := hp
    exact h.readLines ..
  · exact (good_doLoad_elsewhere (fun pa lvl he => hp ⟨pa, lvl, he⟩) n).wf h

theorem State.memWf.setHostMem (h : s.memWf) {m : List Host.Cell} (hm : Memory.wf m = true) : ({ s with hostMem := m } : State).memWf := by
  obtain ⟨h1, _, h3, h4, h5, h6, h7, h8, h9⟩ := h
  exact ⟨h1, hm, h3, h4, h5, h6, h7, h8, h9⟩

theorem State.memWf.setPeerMem (h : s.memWf) (k : Nat) {m : List Host.Cell} (hm : Memory.wf m = true) :
    ({ s with peerMem := tset s.peerMem k m } : State).memWf := by
  obtain ⟨h1, h2, h3, h4, h5, h6, h7, h8, h9⟩ := h
  refine ⟨h1, h2, fun n => ?_, h4, h5, h6, h7, h8, h9⟩
  by_cases hn : n = k
  · rw [hn, tget_tset_self]
    exact hm
  · rw [tget_tset_ne _ _ _ hn]
    exact h3 n

theorem State.memWf.doStore (h : s.memWf) (p : Place) (data : List Byte) : GoodSt (s.doStore w p data ea) := by
  cases p with
  | mem pa lvl => exact h.writeLines ..
  | csp st cl off => exact good_ok (h.cspWrite ..)
  | dsp st off => exact good_ok (h.dspWrite ..)
  | peer k off => exact good_map (P := fun _ => True) ⟨fun _ _ => trivial⟩ fun _ _ => h.setPeerMem k (wf_cwrite _ _ (h.2.2.1 k))
  | host a => exact good_map (P := fun _ => True) ⟨fun _ _ => trivial⟩ fun _ _ => h.setHostMem (wf_cwrite _ _ h.2.1)
  | mmio off =>
    refine good_check fun _ => ?_
    split
    · next ht => exact good_ok ((h.mmioWrite _ _ _).of _ ht)
    · exact good_error

theorem State.memWf.doAtomic (h : s.memWf) (p : Place) (op : AtomOp) (operand expected : W64) :
    GoodWf (s.doAtomic w p op operand expected ea) :=
  good_bind (h.doLoad ..) fun _ hr => good_bind (hr.doStore ..) fun _ ht => good_ok ht

end Machine

end Sys2Proof

/-! SUPPORT. The queues of a team, faults, retirement and the issue of a word keep the memories canonical. -/

namespace Sys2Proof

namespace Machine

variable {s u v : State} {w : Who} {ea : W64}

theorem State.memWf.setReg (h : s.memWf) (k : Nat) (v : W64) : (s.setReg k v).memWf := .ite h h

theorem State.memWf.setPred (h : s.memWf) (k : Nat) (b : Bool) : (s.setPred k b).memWf := .ite h h

theorem State.memWf.pushLat (h : s.memWf) (v : W64) : (s.pushLat v).memWf := .ite h h

theorem State.memWf.pushDq (h : s.memWf) (w : Who) (e : DqEnt) : (s.pushDq w e).memWf := .ite (h.l1UnlockAll ..) h

theorem State.memWf.pushBq (h : s.memWf) (v : BqVal) : GoodSt (s.pushBq v) := good_ite good_error (good_ite (good_ok h) good_error)

theorem State.memWf.popBq (h : s.memWf) : GoodWf s.popBq := by
  unfold State.popBq
  split
  · exact good_ok h
  · exact good_ite good_error good_error

theorem State.memWf.raiseRecord (h : s.memWf) (d : Nat) (r : Record) : (s.raiseRecord d r).memWf := h.setDrvSame d rfl

theorem State.memWf.tellFirmware (h : s.memWf) : s.tellFirmware.memWf :=
  (h.freshWord.setDrvSame _ (by rfl)).wake ..

theorem State.memWf.poolDry (h : s.memWf) (site : Nat) : (s.poolDry site).memWf := .ite h (h.setDie site (by rfl)).tellFirmware

theorem State.memWf.waited (h : s.memWf) (k : Hold) : (s.waited k).memWf := by
  unfold State.waited
  split
  · exact h.poolDry ..
  · exact h

theorem State.memWf.orWaited (h : s.memWf) {x : Except Hold State} (hx : GoodSt x) : (s.orWaited x).memWf := by
  cases x with
  | ok u => exact hx.of u rfl
  | error k => exact h.waited k

theorem State.memWf.placeNow (h : s.memWf) (p : Place) (size : Nat) (nd : Need) (again : Bool) : GoodWf (s.placeNow w p ea size nd again) := by
  unfold State.placeNow
  split
  · exact good_ite (good_bind ((good_translate ..).wf h) fun _ hr => good_ok hr) (good_ok h)
  · exact good_ok h

theorem State.memWf.performEnt (h : s.memWf) (e : StoreEnt) (data : List Byte) : GoodSt (s.performEnt w e data) := by
  unfold State.performEnt
  have hacc : GoodSt ((s.placeNow w e.place e.ea e.size (if e.add then .both else .write) e.again).bind fun p =>
      if e.add then (p.2.doAtomic w p.1 (.amo 0) (BitVec.ofNat 64 (leNat data)) 0 e.ea).map (·.2) else p.2.doStore w p.1 data e.ea) :=
    good_bind (h.placeNow ..) fun p hp => good_ite (good_map (hp.doAtomic ..) fun _ hr => hr) (hp.doStore ..)
  split
  · next hs => exact good_ok (hacc.of _ hs)
  · exact good_error
  · exact good_ok (h.markBad _)

theorem State.memWf.performStore (h : s.memWf) (c : CoreId) : GoodSt (s.performStore c) := by
  unfold State.performStore
  dsimp only
  split
  · exact good_error
  · split
    · exact good_error
    · exact good_ite good_error ((h.setTeam c _).performEnt ..)

theorem State.memWf.drainStores (h : s.memWf) (c : CoreId) (n : Nat) : (s.drainStores c n).memWf := by
  induction n generalizing s with
  | zero => exact h
  | succ n ih =>
    unfold State.drainStores
    split
    · next hs => exact ih ((h.performStore c).of _ hs)
    · exact h.waited _

theorem State.memWf.lockLines (h : s.memWf) (lvl : Lvl) (brief : Bool) (l : List Nat) : GoodWf (s.lockLines w lvl brief ea l) := by
  induction l generalizing s with
  | nil => exact good_ok h
  | cons line l ih =>
    refine good_iteBind (P := State.memWf) (h.l1Beyond line) (good_ok h) fun s0 h0 => good_bind (h0.l1Fill ..) fun r hr => ?_
    split
    · exact good_error
    · exact good_bind (ih (hr.setCore w.c _)) fun q hq => good_ok hq

theorem State.memWf.queuedDatum (h : s.memWf) (p : Place) (size : Nat) (signed vector : Bool) (mark : Nat) :
    GoodWf (s.queuedDatum w p ea size signed vector mark) := by
  refine good_ite ?_ (good_bind (h.doLoad ..) fun r hr => good_ok hr)
  split
  · exact good_bind (h.lockLines ..) fun r hr => good_ite (good_ok hr) (good_bind (hr.l1Read ..) fun b hb => good_ok hb)
  · exact good_error

theorem State.memWf.unlockedDatum (h : s.memWf) (p : Place) (size : Nat) (signed vector : Bool) (mark : Nat) :
    GoodWf (s.unlockedDatum w p ea size signed vector mark) := by
  unfold State.unlockedDatum
  split
  · exact good_bind (h.doLoad ..) fun r hr => good_ok hr
  · exact h.queuedDatum ..

theorem State.memWf.performLoad (h : s.memWf) (c : CoreId) (stop : Bool) : GoodSt (s.performLoad c stop) := by
  unfold State.performLoad
  dsimp only
  split
  · next pre p ea size sg vec mark _ _ ag rest _ =>
    have h0 := h.setTeam c { s.team c with lq := pre ++ rest }
    have hdatum : GoodWf (((s.setTeam c { s.team c with lq := pre ++ rest }).placeNow (s.who c) p ea size .read ag).bind fun q =>
        (if stop || (s.team c).x.exited then State.unlockedDatum else State.queuedDatum) q.2 (s.who c) q.1 ea size sg vec mark) := by
      refine good_bind (h0.placeNow ..) fun q hq => ?_
      split
      · exact hq.unlockedDatum ..
      · exact hq.queuedDatum ..
    split
    · next hs => exact good_ok (State.memWf.pushDq (hdatum.of _ hs) _ _)
    · exact good_error
    · exact good_ok (State.memWf.pushDq (h0.markBad _) _ _)
  · exact good_error

theorem State.memWf.drainLoads (h : s.memWf) (c : CoreId) (stop : Bool) (n : Nat) : (s.drainLoads c stop n).memWf := by
  induction n generalizing s with
  | zero => exact h
  | succ n ih =>
    unfold State.drainLoads
    split
    · next hs => exact ih ((h.performLoad c stop).of _ hs)
    · exact h.waited _

theorem State.memWf.drainQueues (h : s.memWf) (c : CoreId) (stop : Bool) (n : Nat) : (s.drainQueues c stop n).memWf := by
  induction n generalizing s with
  | zero => exact h
  | succ n ih => exact ih ((h.drainLoads ..).drainStores ..)

theorem State.memWf.drainCore (h : s.memWf) (c : CoreId) (stop : Bool) : (s.drainCore c stop).memWf := h.drainQueues ..

theorem State.memWf.drainEntry (h : s.memWf) (c : CoreId) : (s.drainEntry c).memWf := (h.setTeam c _).drainCore ..

theorem State.memWf.unlockDq (h : s.memWf) (c : CoreId) : (s.unlockDq c).memWf := h.l1UnlockAll ..

theorem State.memWf.enterException (h : s.memWf) (c : CoreId) (σ : Strand) (pcE : Nat) (code : Code) (addr : W64) :
    (s.enterException c σ pcE code addr).memWf := ((h.drainEntry c).unlockDq c).setCore ..

theorem State.memWf.leaveException (h : s.memWf) (c : CoreId) : (s.leaveException c).memWf := h.setCore ..

theorem State.memWf.haltCore (h : s.memWf) (c : CoreId) : (s.haltCore c).memWf := (h.drainEntry c).setCore ..

theorem State.memWf.tellHost (h : s.memWf) (d : Nat) : (s.tellHost d).memWf := h.freshWord.setMgmt rfl rfl rfl

/-! ### Faults, retirement and issue -/

theorem State.memWf.noteHold (h : s.memWf) (k : Hold) : (s.noteHold k).memWf := ((h.waited k).setSt _).setCore ..

theorem State.memWf.takeFault (h : s.memWf) (pcF pcE : Nat) (f : Flt) : (s.takeFault pcF pcE f).memWf := by
  have h1 : (({ s with lapse := none } : State).markBad f.bad).memWf := State.memWf.markBad (s := { s with lapse := none }) h f.bad
  unfold State.takeFault
  extract_lets c s1 s2 _ s3
  have h3 : s3.memWf := (h1.setTeam c _).setTeam c _
  clear_value s3
  refine .ite (.ite ((h3.haltCore c).tellHost _) (.ite (h3.enterException ..) ((h3.drainEntry c).setCore ..))) ?_
  split
  · exact h3
  · exact (h3.setTeam c _).setCore ..
  · exact h3.setCore ..

theorem State.memWf.retire (h : s.memWf) (b : Bool) (pc : Nat) (flow : Bool) : (s.retire b pc flow).memWf := (h.setSt _).setCore ..

/-- What the body of a word leaves. -/
abbrev GoodDone (x : Iss Done) : Prop := Good (fun d => d.s.memWf) x

theorem done_ok {d : Done} (h : d.s.memWf) : GoodDone (.ok d) := good_ok h

theorem done_ite {c : Prop} [Decidable c] {x y : Done} (hx : x.s.memWf) (hy : y.s.memWf) : (if c then x else y).s.memWf := by
  split
  · exact hx
  · exact hy

theorem State.memWf.issue (h : s.memWf) (hd : Head) {body : State → Iss Done} (hbody : GoodDone (body s)) : (s.issue hd body).memWf := by
  unfold State.issue
  refine .ite (h.setSt _) (.ite (h.noteHold _) (.ite (h.takeFault ..) (.ite (h.takeFault ..) (.ite (h.takeFault ..) ?_))))
  split
  · next d hs =>
    have hdone : d.s.memWf := hbody.of d hs
    split
    · exact hdone.noteHold _
    · dsimp only
      split
      · exact hdone.retire ..
      · exact (hdone.retire ..).takeFault ..
  · exact h.noteHold _
  · exact h.takeFault ..

theorem State.memWf.passLoopEnd (h : s.memWf) (l : Loop) : (s.passLoopEnd l).memWf := .ite (.ite (h.setSt _) (h.noteHold _)) (h.setSt _)

/-- The memories are canonical after a step that gives a state. -/
structure Leads (x : Host.Outcome State Fault Refusal) : Prop where
  of : ∀ t, x = .next t → t.memWf

theorem leads_next (h : s.memWf) : Leads (.next s) := ⟨fun _ ht => Host.Outcome.next.inj ht ▸ h⟩

theorem leads_ite {c : Prop} [Decidable c] {x y : Host.Outcome State Fault Refusal} (hx : Leads x) (hy : Leads y) : Leads (if c then x else y) := by
  split
  · exact hx
  · exact hy

theorem State.memWf.run (h : s.memWf) {hd : Head} {body : State → Iss Done} (hbody : ∀ u, u.memWf → GoodDone (body u)) : Leads (s.run hd body) :=
  leads_next (h.issue hd (hbody s h))

theorem State.memWf.sendTlbi (h : s.memWf) (m : TlbiMsg) (l : List Nat) : (s.sendTlbi m l).memWf := by
  induction l generalizing s with
  | nil => exact h
  | cons k l ih => exact ih (h.setDie k rfl)

end Machine

end Sys2Proof

/-! SUPPORT. Operands, frames and the control and memory words of a strand keep the memories canonical. -/

namespace Sys2Proof

namespace Machine

variable {s u v : State} {w : Who} {ea : W64}

/-! ### Operands and results -/

theorem State.memWf.popDq (h : s.memWf) : GoodWf s.popDq := by
  unfold State.popDq
  split
  · exact good_error
  · exact good_check fun _ => good_ok ((h.setTm _).l1UnlockAll ..)

theorem State.memWf.popNamed (h : s.memWf) (k : QName) : GoodWf (s.popNamed k) := by
  unfold State.popNamed
  split
  · exact good_error
  · exact good_ok h

theorem State.memWf.popPort (h : s.memWf) (p : Nat) : GoodWf (s.popPort p) := by
  unfold State.popPort
  dsimp only
  split
  · exact good_error
  · split
    · exact good_error
    · exact good_ok h

theorem State.memWf.src (h : s.memWf) (sel : BitVec 6) : GoodWf (s.src sel) := by
  refine good_ite (good_ok h) (good_ite (good_ok h) (good_ite (good_map (h.popPort _) fun _ hr => hr) (good_ite (good_ok h) ?_)))
  split
  · exact h.popNamed _
  · exact h.popNamed _
  · exact good_map h.popDq fun _ hr => hr

theorem State.memWf.vsrc (h : s.memWf) (sel : BitVec 6) : GoodWf (s.vsrc sel) :=
  good_ite (good_ok h) (good_ite (good_ok h) (good_ite (h.popPort _) (good_ite (good_ok h) h.popDq)))

theorem State.memWf.dest (h : s.memWf) (sel : BitVec 6) (v : W64) : (s.dest sel v).memWf := by
  refine .ite (h.setReg ..) (.ite ?_ h)
  split <;> exact h.setTm _

theorem State.memWf.vdest (h : s.memWf) (sel : BitVec 6) (v : List W32) : (s.vdest sel v).memWf := .ite (h.setTm _) (.ite (h.setTm _) h)

theorem State.memWf.put (h : s.memWf) (d : Bool) (sel : BitVec 6) (v : W64) : (s.put d sel v).memWf :=
  State.memWf.pushLat (.ite h (h.dest ..)) _

theorem State.memWf.vput (h : s.memWf) (d : Bool) (sel : BitVec 6) (v : List W32) : (s.vput d sel v).memWf :=
  State.memWf.setTm (.ite h (h.vdest ..)) _

/-! ### Frames -/

theorem State.memWf.frameK (h : s.memWf) (d : Bool) (r a b : BitVec 6) (f : W64 → W64 → W64) : GoodDone (s.frameK d r a b f) :=
  good_check fun _ => good_check fun _ => good_bind (h.src a) fun _ hx => good_bind (hx.src b) fun _ hy => good_ok (hy.put ..)

theorem State.memWf.frameI (h : s.memWf) (d : Bool) (r a : BitVec 6) (f : W64 → W64) : GoodDone (s.frameI d r a f) :=
  good_check fun _ => good_check fun _ => good_bind (h.src a) fun _ hx => good_ok (hx.put ..)

theorem State.memWf.frameD (h : s.memWf) (d : Bool) (r a b : BitVec 6) (f : W64 → W64 → W64 → W64) : GoodDone (s.frameD d r a b f) :=
  good_check fun _ => good_bind (h.src a) fun _ hx => good_bind (hx.src b) fun _ hy => good_ok (hy.put ..)

theorem State.memWf.frameP (h : s.memWf) (d : Bool) (p : BitVec 3) (a b : BitVec 6) (f : W64 → W64 → Bool) : GoodDone (s.frameP d p a b f) :=
  good_check fun _ => good_bind (h.src a) fun _ hx => good_bind (hx.src b) fun _ hy =>
    good_ok (State.memWf.pushLat (.ite hy (hy.setPred ..)) _)

theorem State.memWf.frameV (h : s.memWf) (d : Bool) (r : BitVec 6) (v : W64) : GoodDone (s.frameV d r v) :=
  good_check fun _ => good_ok (h.put ..)

/-! ### Control words -/

theorem State.memWf.execBr (h : s.memWf) (t : Tag) (c : BitVec 4) (i : BitVec 18) : Leads (execBr t c i s) := by
  refine h.run fun s h => good_check fun _ => good_check fun _ => good_ite ?_ (good_ite ?_ ?_)
  · exact good_bind (good_map h.popBq fun _ hr => hr) fun r hr => done_ok (done_ite hr hr)
  · exact good_bind (good_map (h.pushBq _) fun _ hu => hu) fun r hr => done_ok (done_ite hr hr)
  · exact good_bind (good_ok h) fun r hr => done_ok (done_ite hr hr)

theorem State.memWf.execCall (h : s.memWf) (t : Tag) (i : BitVec 18) : Leads (execCall t i s) :=
  h.run fun _ h => good_check fun _ => good_check fun _ => good_ok h

theorem State.memWf.execRet (h : s.memWf) (t : Tag) : Leads (execRet t s) := by
  refine h.run fun s h => ?_
  split
  · exact good_error
  · exact good_check fun _ => good_ok h

theorem State.memWf.execJmpr (h : s.memWf) (t : Tag) (a : BitVec 6) : Leads (execJmpr t a s) := by
  refine h.run fun s h => good_ite ?_ ?_
  · exact good_bind h.popBq fun _ hr => good_check fun _ => good_ok hr
  · refine good_check fun _ => good_bind (h.src a) fun x hx => good_check fun _ => good_check fun _ => ?_
    exact good_iteBind (P := State.memWf) (hx.pushBq _) (good_ok hx) fun u hu => good_ok hu

theorem State.memWf.execLoop (h : s.memWf) (l : BitVec 2) (a : BitVec 6) (n : BitVec 14) : Leads (execLoop l a n s) := by
  refine h.run fun s h => good_check fun _ => good_ite ?_ ?_
  · exact good_check fun _ => good_bind (h.src a) fun x hx => good_bind (hx.pushBq _) fun u hu =>
      good_bind (P := fun r : W64 × State => r.2.memWf) (good_ok hu) fun r hr => good_check fun _ => done_ok (done_ite hr hr)
  · exact good_bind (good_map h.popBq fun _ hr => hr) fun r hr => good_check fun _ => done_ok (done_ite hr hr)

theorem State.memWf.discard (h : s.memWf) (closing : List Nat) : (s.discard closing).memWf := by
  unfold State.discard
  dsimp only
  split
  · exact h
  · exact h
  · exact (h.setTm _).l1UnlockAll ..

theorem State.memWf.execLbrk (h : s.memWf) (c : BitVec 4) (l : BitVec 2) : Leads (execLbrk c l s) := by
  refine h.run fun s h => ?_
  split
  · exact good_error
  · refine good_check fun _ => good_iteBind (P := fun r : Bool × State => r.2.memWf) ?_ ?_ fun r hr => ?_
    · exact good_map (h.pushBq _) fun _ hu => hu
    · exact good_map h.popBq fun _ hr => hr
    · exact good_ite (good_ok ((hr.setSt _).discard _)) (good_ok hr)

theorem State.memWf.execPush (h : s.memWf) (t : Tag) (a : BitVec 6) (n : BitVec 10) : Leads (execPush t a n s) := by
  refine h.run fun s h => ?_
  split
  · exact good_error
  · refine good_check fun _ => good_check fun _ => ?_
    exact good_iteBind (P := fun r : W64 × State => r.2.memWf) (good_ok h) (h.src a) fun x hx => good_ok hx

theorem State.memWf.execPop (h : s.memWf) (t : Tag) (r : BitVec 6) (n : BitVec 10) : Leads (execPop t r n s) := by
  refine h.run fun s h => ?_
  split
  · exact good_error
  · exact good_check fun _ => good_check fun _ => good_bind (h.popNamed _) fun x hx =>
      good_ok (.ite ((hx.setTm _).pushLat _) (hx.put ..))

theorem State.memWf.execWaitt (h : s.memWf) (t : Tag) (a : BitVec 6) (n : BitVec 10) : Leads (execWaitt t a n s) :=
  h.run fun _ h => good_check fun _ => good_bind (h.src a) fun _ hx => good_ite (good_ok h) (good_ok hx)

theorem State.memWf.execExit (h : s.memWf) : Leads (execExit s) := h.run fun _ h => good_check fun _ => good_ok (.ite h h)

theorem State.memWf.execTrap (h : s.memWf) (t : Tag) (a : BitVec 6) (n : BitVec 10) : Leads (execTrap t a n s) :=
  h.run fun _ h => good_ite (good_ok h) (good_check fun _ => good_bind (h.src a) fun _ hx => good_ok hx)

/-! ### Loads, stores and prefetches -/

theorem State.memWf.placeOf (h : s.memWf) (p : Spot) (n pol : Nat) (nd : Need) : GoodWf (s.placeOf w p n pol nd ea) := (good_placeOf ..).wf h

theorem State.memWf.access (h : s.memWf) (base : W64) (size al pol : Nat) (nd : Need) : GoodWf (s.access base ea size al pol nd) :=
  good_check fun _ => good_check fun _ => h.placeOf ..

theorem State.memWf.enqueueLoad (h : s.memWf) (p : Place) (size : Nat) (signed vector : Bool) : GoodSt (s.enqueueLoad p ea size signed vector) :=
  good_ite (good_ok h) good_error

theorem State.memWf.enqueueStore (h : s.memWf) (p : Place) (ea : W64) (size : Nat) (data : Option (List Byte)) (add : Bool) :
    (s.enqueueStore p ea size data add).memWf := h.setTm _

theorem State.memWf.loadBody (h : s.memWf) (size : Nat) (signed d : Bool) (r a : BitVec 6) (p : BitVec 2) (o : BitVec 7) :
    GoodDone (s.loadBody size signed d r a p o) := by
  refine good_check fun _ => good_iteBind (P := fun _ => True) good_any good_any fun _ _ => ?_
  refine good_bind (h.src a) fun x hx => good_bind (hx.access ..) fun q hq => good_check fun _ => good_ite ?_ ?_
  · exact good_bind (hq.enqueueLoad ..) fun u hu => done_ok hu
  · refine good_check fun _ => ?_
    have hload : GoodWf (q.2.doLoad q.2.me q.1 size (memEa x.1 o size)) := hq.doLoad ..
    split
    · next v hv =>
      have hv : v.2.memWf := hload.of v hv
      exact good_ite (done_ok (hv.pushDq ..)) (done_ok (hv.put ..))
    · exact good_ite (done_ok ((hq.markBad _).pushDq ..)) good_error
    · exact good_error

theorem State.memWf.storeBody (h : s.memWf) (size : Nat) (d : Bool) (v a : BitVec 6) (p : BitVec 2) (o : BitVec 7) :
    GoodDone (s.storeBody size d v a p o) := by
  refine good_check fun _ => good_iteBind (P := fun r : W64 × State => r.2.memWf) (good_ok h) (h.src v) fun x hx => ?_
  exact good_bind (hx.src a) fun y hy => good_bind (hy.access ..) fun q hq => good_check fun _ => done_ok (hq.enqueueStore ..)

theorem State.memWf.l2Read (h : s.memWf) (site p : Nat) : GoodWf (s.l2Read w site p ea) := ⟨fun _ hr => (below_l2Read hr).memWf h⟩

theorem State.memWf.prefetch (h : s.memWf) (base : W64) (pol : Nat) (msc : Bool) : (s.prefetch base ea pol msc).memWf := by
  unfold State.prefetch
  extract_lets r
  have hr : GoodSt r := by
    refine good_check fun sp => good_bind (h.placeOf ..) fun q hq => ?_
    split
    · refine good_ite (good_ok hq) (good_ite (hq.reachHome _) (good_ite ?_ (good_ite ?_ (hq.reachHome _))))
      · exact good_map (hq.l1Fill ..) fun _ hu => hu
      · exact good_map (hq.l2Read ..) fun _ hu => hu
    · exact good_ok hq
  clear_value r
  split
  · exact hr.of _ rfl
  · exact h.markBad _
  · exact h.waited _

theorem State.memWf.prefBase (h : s.memWf) (a : BitVec 6) : GoodWf (s.prefBase a) := by
  unfold State.prefBase
  split
  · exact good_error
  · exact good_ok h
  · next hx => exact good_ok ((h.src a).of _ hx)
  · exact good_error
  · split
    · exact good_ok ((h.setTm _).l1UnlockAll ..)
    · exact good_ok h

theorem State.memWf.execPref (h : s.memWf) (t : Tag) (d : Bool) (a : BitVec 6) (p : BitVec 2) (o : BitVec 7) : Leads (execPref t d a p o s) := by
  refine h.run fun s h => good_bind (h.prefBase a) fun x hx => done_ok ?_
  show State.memWf _
  split
  · exact hx.prefetch ..
  · exact hx

/-! ### Full/empty words -/

theorem State.memWf.setMyCluster (h : s.memWf) {c : Cluster} (hc : c.mem = s.myCluster.mem) : (s.setMyCluster c).memWf :=
  h.setClusterSame _ _ hc

theorem State.memWf.freeWaiter (h : s.memWf) : s.freeWaiter.memWf := h.setMyCluster rfl

theorem State.memWf.addWaiter (h : s.memWf) (off : Nat) (full take : Bool) (datum : Option W32) : (s.addWaiter off full take datum).memWf :=
  .ite h (h.setMyCluster rfl)

theorem State.memWf.feOp (h : s.memWf) (off : Nat) (cond : Option Bool) (take : Bool) (datum : Option W32) :
    GoodWf (s.feOp ea off cond take datum) := by
  unfold State.feOp
  split
  · exact good_error
  · exact good_map h.acquired fun _ hu => hu
  · refine good_check fun _ => good_bind h.released fun s1 h1 => good_ite (good_ok (h1.addWaiter ..)) (good_ite good_error ?_)
    have h3 (x : Waiter) : (s1.freeWaiter.setMyCluster (waiterDo s1.freeWaiter.myCluster x)).memWf :=
      h1.freeWaiter.setCluster _ _ (wf_waiterDo (h1.freeWaiter.2.2.2.1 _ _) x)
    exact good_map (State.memWf.acquired (.ite (h3 _) ((h3 _).serviceScan ..))) fun _ hu => hu

theorem State.memWf.execLdf (h : s.memWf) (t : Tag) (d : Bool) (r a : BitVec 6) (p : BitVec 2) (o : BitVec 7) : Leads (execLdf t d r a p o s) := by
  refine h.run fun s h => good_check fun _ => good_iteBind (P := fun _ => True) good_any good_any fun _ _ => ?_
  refine good_bind (h.src a) fun x hx => good_check fun off => good_bind (hx.feOp ..) fun q hq => ?_
  split
  · exact good_bind (h.feOp ..) fun u hu => done_ok hu
  · exact good_ite (done_ok (hq.pushDq ..)) (done_ok (hq.put ..))

theorem State.memWf.execStf (h : s.memWf) (t : Tag) (d : Bool) (v a : BitVec 6) (p : BitVec 2) (o : BitVec 7) : Leads (execStf t d v a p o s) := by
  refine h.run fun s h => good_check fun _ => good_bind (h.src v) fun x hx => good_bind (hx.src a) fun y hy => ?_
  refine good_check fun off => good_bind (hy.feOp ..) fun q hq => ?_
  split
  · exact good_bind (h.feOp ..) fun u hu => done_ok hu
  · exact done_ok hq

theorem State.memWf.fillMarks (h : s.memWf) (full : Bool) (off count n : Nat) : (s.fillMarks full off count n).1.memWf := by
  induction n generalizing s off count with
  | zero => exact h
  | succ n ih =>
    unfold State.fillMarks
    split
    · exact ih h ..
    · exact ih (h.markWord ..) ..

theorem State.memWf.execFefill (h : s.memWf) (t : Tag) (d : Bool) (r a b : BitVec 6) (f : BitVec 3) : Leads (execFefill t d r a b f s) := by
  refine h.run fun s h => good_check fun _ => good_check fun _ => good_bind (h.src a) fun x hx => good_bind (hx.src b) fun y hy => ?_
  refine good_check fun _ => good_check fun _ => good_check fun _ => good_check fun _ => good_check fun _ => ?_
  exact good_bind hy.released fun v hv => good_bind (hv.fillMarks ..).acquired fun u hu => done_ok (hu.put ..)

end Machine

end Sys2Proof

/-! SUPPORT. Copies, brands, vector frames, streams and the system words keep the memories canonical. -/

namespace Sys2Proof

namespace Machine

variable {s u v : State} {w : Who} {ea : W64}

/-! ### Engines and copies -/

theorem State.memWf.engineRead (h : s.memWf) (p : Place) (n : Nat) : GoodWf (s.engineRead w p n ea) := (good_engineRead p n).wf h

theorem State.memWf.writeBeyond (h : s.memWf) (lvl : Lvl) (pa : Nat) (data : List Byte) (k : Nat) :
    GoodSt (s.writeBeyond w lvl pa data ea k) := by
  induction k generalizing s pa data with
  | zero => exact good_ok h
  | succ k ih => exact good_ite (good_ok h) (good_iteBind (P := State.memWf) (h.kickRange ..) (h.cohWrite ..) fun _ hu => ih hu _ _)

theorem State.memWf.engineWrite (h : s.memWf) (p : Place) (data : List Byte) : GoodSt (s.engineWrite w p data ea) := by
  unfold State.engineWrite
  split
  · exact h.writeBeyond ..
  · exact h.doStore ..

theorem State.memWf.enginePlace (h : s.memWf) (n : Nat) (nd : Need) : GoodWf (s.enginePlace w ea n nd) := good_check fun _ => h.placeOf ..

theorem State.memWf.partPlaces (h : s.memWf) (nd : Need) (l : List (W64 × Nat)) : GoodWf (s.partPlaces w nd l) := by
  induction l generalizing s with
  | nil => exact good_ok h
  | cons e l ih => exact good_bind (h.placeOf ..) fun p hp => good_bind (ih hp) fun q hq => good_ok hq

theorem State.memWf.readParts (h : s.memWf) (l : List (Place × W64 × Nat)) : GoodWf (s.readParts w l) := by
  induction l generalizing s with
  | nil => exact good_ok h
  | cons e l ih => exact good_bind (h.engineRead ..) fun p hp => good_bind (ih hp) fun q hq => good_ok hq

theorem State.memWf.writeParts (h : s.memWf) (l : List (Place × W64 × Nat)) (b : List Byte) : GoodSt (s.writeParts w l b) := by
  induction l generalizing s b with
  | nil => exact good_ok h
  | cons e l ih => exact good_bind (h.engineWrite ..) fun u hu => ih hu _

theorem State.memWf.moveWord (h : s.memWf) (e : CopyEnt) : Good (fun r => r.2.2.memWf) (s.moveWord w e) := by
  refine good_check fun _ => good_iteBind (P := fun r : List (Place × W64 × Nat) × State => r.2.memWf) (good_ok h) (h.partPlaces ..) fun p hp => ?_
  exact good_bind (hp.readParts _) fun r hr => good_bind (hr.enginePlace ..) fun q hq => good_bind (hq.engineWrite ..) fun u hu => good_ok hu

theorem State.memWf.setTeamN (h : s.memWf) (c : CoreId) (k : Nat) (t : TeamSt) : (s.setTeamN c k t).memWf := by
  refine .ite h ?_
  split
  · exact h.setDrvSame _ rfl
  · exact h

theorem State.memWf.holdCopy (h : s.memWf) (c : CoreId) (k e : Nat) (t : TeamSt) (ent : CopyEnt) (f : Flt) : (s.holdCopy c k e t ent f).memWf :=
  ((h.setDrvSame _ (by rfl)).setTeamN ..).raiseRecord ..

theorem State.memWf.copyTold (h : s.memWf) (id : Option TeamId) (ticket : W64) : (s.copyTold id ticket).memWf := h.mapDrovers fun _ _ => rfl

theorem State.memWf.copyRelease (h : s.memWf) (c : CoreId) (k : Nat) (t : TeamSt) (ent : CopyEnt) : SomeWf (s.copyRelease c k t ent) := by
  refine someWf_ite someWf_none (someWf_ite (someWf_some h) ?_)
  split
  · next hu => exact someWf_some (h.released.of _ hu)
  · exact someWf_none

theorem someWf_bind {x : Option State} {f : State → Option State} (hx : SomeWf x) (hf : ∀ u, u.memWf → SomeWf (f u)) : SomeWf (x.bind f) := by
  cases x with
  | none => exact someWf_none
  | some u => exact hf u (hx.of u rfl)

theorem someWf_map {x : Option State} {f : State → State} (hx : SomeWf x) (hf : ∀ u, u.memWf → (f u).memWf) : SomeWf (x.map f) := by
  cases x with
  | none => exact someWf_none
  | some u => exact someWf_some (hf u (hx.of u rfl))

theorem SomeWf.getD {x : Option State} (hx : SomeWf x) (h : s.memWf) : (x.getD s).memWf := by
  cases x with
  | none => exact h
  | some u => exact hx.of u rfl

theorem State.memWf.copyMark (h : s.memWf) (c : CoreId) (k : Nat) (t : TeamSt) (ent : CopyEnt) : SomeWf (s.copyMark c k t ent) := by
  refine someWf_ite (someWf_some h) (someWf_bind (h.copyRelease ..) fun u hu => ?_)
  have hv := hu.markWord c.site (clusterOf c) (offOf ent.dst + ent.len) true
  refine someWf_ite (someWf_some hv) ?_
  split
  · next hz => exact someWf_some (hv.acquired.of _ hz)
  · exact someWf_none

theorem State.memWf.completeCopy (h : s.memWf) (c : CoreId) (k e : Nat) (t : TeamSt) (ent : CopyEnt) : SomeWf (s.completeCopy c k e t ent) :=
  someWf_map (h.copyMark ..) fun _ hu => (hu.setTeamN ..).copyTold ..

theorem State.memWf.copyWord (h : s.memWf) (c : CoreId) (n : Nat) : (s.copyWord c n).memWf := by
  unfold State.copyWord
  split
  · exact h
  split
  · exact h
  · refine .ite h ?_
    split
    · next hm =>
      split
      · exact State.memWf.setTeamN ((h.moveWord _).of _ hm) ..
      · exact h
    · exact h.waited _
    · exact (h.markBad _).holdCopy ..

theorem State.memWf.execCopyFaultHold (h : s.memWf) : Leads (execCopyFaultHold s) := by
  refine leads_next ?_
  split
  · exact h
  split
  · exact h
  · refine .ite h ?_
    split
    · exact (h.markBad _).holdCopy ..
    · exact h

theorem State.memWf.execCopyComplete (h : s.memWf) : Leads (execCopyComplete s) := by
  refine leads_next ?_
  split
  · exact h
  split
  · exact .ite (h.setTeamN ..) h
  · exact .ite ((h.completeCopy ..).getD (h.waited _)) h

theorem State.memWf.execCpy (h : s.memWf) (t : Tag) (r a b : BitVec 6) (f : BitVec 3) : Leads (execCpy t r a b f s) := by
  refine h.run fun s h => good_check fun _ => good_bind (h.src r) fun x hx => good_bind (hx.src a) fun y hy => good_bind (hy.src b) fun z hz => ?_
  refine good_check fun _ => good_check fun _ => ?_
  split
  · exact good_error
  · exact done_ok (State.memWf.pushLat (.ite (((hz.setTm _).completeCopy ..).getD (hz.setTm _)) (hz.setTm _)) _)

theorem State.memWf.execCpyw (h : s.memWf) (t : Tag) (a : BitVec 6) (n : BitVec 10) : Leads (execCpyw t a n s) :=
  h.run fun _ h => good_ite (good_ite (done_ok h) good_error)
    (good_check fun _ => good_bind (h.src a) fun _ hx => good_ite good_error (done_ok hx))

theorem State.memWf.atomBody (h : s.memWf) (op : AtomOp) (d : Bool) (r a b : BitVec 6) : GoodDone (s.atomBody op d r a b) := by
  refine good_check fun _ => good_iteBind (P := fun _ => True) good_any good_any fun _ _ => ?_
  refine good_bind (h.src a) fun x hx => good_bind (hx.src b) fun y hy => ?_
  refine good_check fun _ => good_check fun _ => good_check fun _ => good_check fun _ => good_check fun _ => ?_
  exact good_bind (hy.placeOf ..) fun q hq => good_check fun _ => good_bind (hq.doAtomic ..) fun v hv =>
    good_ite (done_ok (hv.pushDq ..)) (done_ok (hv.put ..))

/-! ### Windows, buffers and brands -/

theorem gmem_takePages {d : Drover} {f n : Nat} {r : Nat × Drover} (h : d.takePages f n = some r) : r.2.gmem = d.gmem := by
  obtain ⟨_, _, rfl⟩ := Option.map_eq_some_iff.1 h
  rfl

theorem State.memWf.newTable (h : s.memWf) (f at_ : Nat) : GoodWf (s.newTable w f at_) := by
  unfold State.newTable
  generalize List.replicate 4096 (0 : Byte) = zeros
  split
  · exact good_error
  · next hp =>
    exact good_bind ((h.setDrvSame w.drv (by exact gmem_takePages hp)).doStore ..) fun s2 h2 => good_bind (h2.cohWrite ..) fun s3 h3 => good_ok h3

theorem State.memWf.winTable (h : s.memWf) (f va n base level : Nat) : GoodWf (s.winTable w f va n base level) := by
  induction n generalizing s base level with
  | zero => exact good_ok h
  | succ n ih =>
    refine good_bind ((good_walkLoad _).wf h) fun r hr => ?_
    exact good_iteBind (P := fun q : Nat × State => q.2.memWf) (good_ok hr) (hr.newTable ..) fun q hq => ih hq _ _

theorem State.memWf.setLeaf (h : s.memWf) (f va pte : Nat) : GoodSt (s.setLeaf w f va pte) :=
  good_bind (good_walkRoot.wf h) fun _ hr => good_bind (State.memWf.winTable hr ..) fun _ ht => ht.cohWrite ..

theorem State.memWf.setLeaves (h : s.memWf) (f flags n p : Nat) : GoodSt (s.setLeaves w f flags n p) := by
  induction n generalizing s p with
  | zero => exact good_ok h
  | succ n ih => exact good_bind (h.setLeaf ..) fun u hu => ih hu _

theorem State.memWf.mapBuffer (h : s.memWf) (i : TeamId) (b : W128) : GoodSt (s.mapBuffer i b) := by
  rw [State.mapBuffer]
  split
  · exact good_error
  · next u hu => exact good_ok (State.memWf.setDrvSame ((h.setLeaves ..).of u hu) _ rfl)

theorem State.memWf.openWindow (h : s.memWf) (i : TeamId) (b : W128) : GoodSt (s.openWindow i b) := by
  unfold State.openWindow
  split
  · exact h.mapBuffer ..
  · exact good_ite good_error (good_ite (h.mapBuffer ..) (good_ok (h.setDrvSame _ rfl)))

theorem State.memWf.endWindow (h : s.memWf) (d : Nat) (x : Window) : (s.endWindow d x).memWf := (calm_endWindow s d x).memWf h

theorem State.memWf.closeWindow (h : s.memWf) (i : TeamId) (buf : Nat) : (s.closeWindow i buf).memWf := by
  unfold State.closeWindow
  split
  · exact h
  · exact .ite h (.ite (h.endWindow ..) (h.setDrvSame _ rfl))

theorem State.memWf.setBuf (h : s.memWf) (d idx : Nat) (b : Buf) : (s.setBuf d idx b).memWf := h.setDrvSame d rfl

theorem State.memWf.finishFree (h : s.memWf) (d idx : Nat) : (s.finishFree d idx).memWf := (calm_finishFree s d idx).memWf h

theorem State.memWf.freeBuf (h : s.memWf) (d idx : Nat) : (s.freeBuf d idx).memWf := (calm_freeBuf s d idx).memWf h

theorem State.memWf.sendUnmap (h : s.memWf) (d : Nat) (x : Window) (sites : List Nat) : (s.sendUnmap d x sites).memWf :=
  h.foldl (fun _ _ hu => hu.sendTlbi ..) _

theorem State.memWf.unmapStep (h : s.memWf) (d asid buf : Nat) : (s.unmapStep d asid buf).memWf := by
  rw [State.unmapStep]
  cases (s.drv d).winOf asid buf with
  | none => exact h
  | some x =>
    refine .ite h ?_
    cases x.left with
    | none =>
      have hset : GoodSt (s.setLeaves (winWho d x.fold asid) x.fold 0 (pagesOf x.len) (x.pa / 65536)) := h.setLeaves ..
      generalize s.setLeaves (winWho d x.fold asid) x.fold 0 (pagesOf x.len) (x.pa / 65536) = y at hset ⊢
      cases y with
      | error e => exact h.putOff _
      | ok u =>
        have hu : u.memWf := hset.of u rfl
        have hv (l : List Nat) : ((u.sendUnmap d x l).setDrv d ((u.drv d).setWin { x with left := some l })).memWf :=
          (hu.sendUnmap d x l).setDrv d (hu.2.2.2.2.2.1 d)
        exact .ite ((hv _).finishFree ..) ((hv _).putOff _)
    | some l => exact .ite ((h.setDrvSame d (by rfl)).finishFree ..) ((h.setDrvSame d (by rfl)).putOff _)

theorem State.memWf.dropBrand (h : s.memWf) (b : W128) : (s.dropBrand b).memWf := (calm_dropBrand s b).memWf h

theorem State.memWf.addRef (h : s.memWf) (d idx : Nat) : (s.addRef d idx).memWf := h.setBuf ..

theorem State.memWf.closeAll (h : s.memWf) (t : TeamSt) : (s.closeAll t).memWf := by
  unfold State.closeAll
  split
  · exact h
  · exact h.foldl (fun _ _ hu => hu.closeWindow ..) _

theorem State.memWf.dropHeld (h : s.memWf) (t : TeamSt) : (s.dropHeld t).memWf :=
  (h.closeAll t).foldl (fun _ _ hu => .ite (hu.dropBrand _) hu) _

theorem State.memWf.nullBrand (h : s.memWf) (k : BitVec 4) : (s.nullBrand k).memWf := by
  unfold State.nullBrand
  dsimp only
  split
  · exact h.setTm _
  · exact .ite (h.setTm _) (((h.setTm _).closeWindow ..).setTm _)

theorem State.memWf.execBopen (h : s.memWf) (d : Bool) (r : BitVec 6) (a : BitVec 4) : Leads (execBopen d r a s) := by
  refine h.run fun s h => good_check fun _ => good_check fun b => good_check fun _ => ?_
  split
  · exact good_error
  · exact good_bind (h.openWindow ..) fun u hu => done_ok ((hu.setTm _).put ..)

theorem State.memWf.execBinfo (h : s.memWf) (d : Bool) (r : BitVec 6) (a : BitVec 4) (f : BitVec 3) : Leads (execBinfo d r a f s) :=
  h.run fun _ h => good_check fun _ => good_check fun _ => done_ok (h.put ..)

theorem State.memWf.execBgive (h : s.memWf) (a : BitVec 4) (n : BitVec 3) : Leads (execBgive a n s) := by
  refine h.run fun s h => good_check fun b => good_check fun _ => good_check fun _ => ?_
  split
  · exact good_error
  · exact good_check fun _ => done_ok (State.memWf.nullBrand (.ite ((h.setDrvSame _ (by rfl)).addRef ..) (h.setDrvSame _ (by rfl))) a)

theorem State.memWf.execBdup (h : s.memWf) (a b : BitVec 4) (m : BitVec 6) : Leads (execBdup a b m s) :=
  h.run fun _ h => good_check fun _ => good_check fun _ => good_check fun _ => good_check fun _ => done_ok ((h.addRef ..).setTm _)

theorem State.memWf.execBdrop (h : s.memWf) (a : BitVec 4) : Leads (execBdrop a s) := by
  refine h.run fun s h => good_check fun b => good_check fun _ => good_check fun _ => done_ok ?_
  refine State.memWf.dropBrand (State.memWf.nullBrand ?_ a) b
  split
  · exact h.setDrvSame _ rfl
  · exact h

theorem State.memWf.execNparam (h : s.memWf) (t : Tag) (d : Bool) (r : BitVec 6) (i : BitVec 9) : Leads (execNparam t d r i s) := by
  refine h.run fun s h => ?_
  split
  · exact h.frameV ..
  · exact h.freshWord.frameV ..

theorem State.memWf.execInst (h : s.memWf) (t : Tag) (d : Bool) (r : BitVec 6) (f : BitVec 3) : Leads (execInst t d r f s) := by
  refine h.run fun s h => ?_
  split
  · exact h.frameV ..
  · exact good_ite (h.frameV ..) (h.freshWord.frameV ..)

/-! ### Vector frames and streams -/

theorem State.memWf.vec1 (h : s.memWf) (d : Bool) (r a : BitVec 6) (fok : Bool) (f : List W32 → List W32) : GoodDone (s.vec1 d r a fok f) :=
  good_check fun _ => good_check fun _ => good_check fun _ => good_bind (h.vsrc a) fun _ hx => done_ok (hx.vput ..)

theorem State.memWf.vec2 (h : s.memWf) (d : Bool) (r a b : BitVec 6) (fok : Bool) (f : List W32 → List W32 → List W32) :
    GoodDone (s.vec2 d r a b fok f) :=
  good_check fun _ => good_check fun _ => good_check fun _ => good_bind (h.vsrc a) fun _ hx => good_bind (hx.vsrc b) fun _ hy => done_ok (hy.vput ..)

theorem State.memWf.vec3 (h : s.memWf) (d : Bool) (r a b : BitVec 6) (fok : Bool) (f : List W32 → List W32 → List W32 → List W32) :
    GoodDone (s.vec3 d r a b fok f) :=
  good_check fun _ => good_check fun _ => good_bind (h.vsrc a) fun _ hx => good_bind (hx.vsrc b) fun _ hy => done_ok (hy.vput ..)

theorem State.memWf.putMask (h : s.memWf) (d : Bool) (m : BitVec 3) (l : List Bool) : (s.putMask d m l).memWf :=
  State.memWf.setTm (.ite h (h.setTm _)) _

theorem State.memWf.vecMask (h : s.memWf) (d : Bool) (m : BitVec 3) (a b : BitVec 6) (fok : Bool) (f : W32 → W32 → Bool) :
    GoodDone (s.vecMask d m a b fok f) :=
  good_check fun _ => good_check fun _ => good_bind (h.vsrc a) fun _ hx => good_bind (hx.vsrc b) fun _ hy => done_ok (hy.putMask ..)

theorem State.memWf.execLdv (h : s.memWf) (d : Bool) (a : BitVec 6) (p : BitVec 2) (o : BitVec 7) : Leads (execLdv d a p o s) := by
  refine h.run fun s h => good_check fun _ => good_iteBind (P := fun _ => True) good_any good_any fun _ _ => ?_
  refine good_bind (h.src a) fun x hx => good_check fun _ => good_bind (hx.access ..) fun q hq => good_check fun _ => good_ite ?_ ?_
  · exact good_check fun _ => good_bind (hq.doLoad ..) fun v hv => done_ok hv
  · exact good_bind (hq.enqueueLoad ..) fun u hu => done_ok hu

theorem State.memWf.execStv (h : s.memWf) (a : BitVec 6) (p : BitVec 2) (o : BitVec 7) : Leads (execStv a p o s) :=
  h.run fun _ h => good_check fun _ => good_bind (h.src a) fun _ hx => good_check fun _ => good_bind (hx.access ..) fun _ hq =>
    good_check fun _ => done_ok (hq.enqueueStore ..)

theorem State.memWf.streamPlace (h : s.memWf) (base : W64) (n pol : Nat) (nd : Need) : GoodWf (s.streamPlace w base ea n pol nd) :=
  good_check fun _ => good_check fun _ => h.placeOf ..

theorem State.memWf.streamRead (h : s.memWf) (base : W64) (n pol : Nat) : GoodWf (s.streamRead w base ea n pol) :=
  good_bind (h.streamPlace ..) fun _ hq => hq.engineRead ..

theorem State.memWf.gather (h : s.memWf) (base : W64) (pad : Bool) (l : List (Nat × W32)) : GoodWf (s.gather base pad l) := by
  induction l generalizing s with
  | nil => exact good_ok h
  | cons e l ih =>
    refine good_ite (good_bind (ih h) fun q hq => good_ok hq) ?_
    exact good_bind (h.streamRead ..) fun r hr => good_bind (ih hr) fun q hq => good_ok hq

theorem State.memWf.gatherBody (h : s.memWf) (d : Bool) (r a b : BitVec 6) (pad : Bool) : GoodDone (s.gatherBody d r a b pad) :=
  good_check fun _ => good_check fun _ => good_bind (h.vsrc a) fun _ hx => good_bind (hx.vsrc b) fun _ hy =>
    good_bind (hy.gather ..) fun _ hg => done_ok (hg.vput ..)

theorem State.memWf.scatter (h : s.memWf) (base : W64) (data : List W32) (l : List (Nat × W32)) : GoodWf (s.scatter base data l) := by
  induction l generalizing s with
  | nil => exact good_ok h
  | cons e l ih =>
    refine good_ite (ih h) (good_bind (h.streamPlace ..) fun p hp => ?_)
    exact good_bind (ih (hp.setTm _)) fun q hq => good_ok hq

theorem State.memWf.execVscat (h : s.memWf) (r a b : BitVec 6) : Leads (execVscat r a b s) :=
  h.run fun _ h => good_check fun _ => good_bind (h.vsrc a) fun _ hx => good_bind (hx.vsrc b) fun _ hy =>
    good_bind (hy.scatter ..) fun _ hq => done_ok (hq.setTm _)

theorem State.memWf.performScat (h : s.memWf) (c : CoreId) : GoodSt (s.performScat c) := by
  unfold State.performScat
  dsimp only
  split
  · exact good_error
  · split
    · next hs => exact good_ok (((h.setTeam c _).engineWrite ..).of _ hs)
    · exact good_error
    · exact good_ok (((h.setTeam c _).markBad _).setTeam ..)

theorem State.memWf.drainScat (h : s.memWf) (c : CoreId) (n : Nat) : (s.drainScat c n).memWf := by
  induction n generalizing s with
  | zero => exact h
  | succ n ih =>
    unfold State.drainScat
    split
    · next hs => exact ih ((h.performScat c).of _ hs)
    · exact h.waited _

theorem State.memWf.execPset (h : s.memWf) (p : BitVec 3) (a g : BitVec 6) (m : BitVec 7) : Leads (execPset p a g m s) :=
  h.run fun _ h => good_check fun _ => good_bind (h.src a) fun _ hx => good_ite (done_ok h) (done_ok (hx.setTm _))

theorem State.memWf.execPgo (h : s.memWf) (p : BitVec 3) : Leads (execPgo p s) := by
  refine h.run fun s h => ?_
  dsimp only
  split
  · exact good_error
  · exact done_ok h
  · exact done_ok h
  · exact done_ok (h.setTm _)

theorem State.memWf.execPhalt (h : s.memWf) (p : BitVec 3) : Leads (execPhalt p s) :=
  h.run fun _ h => good_ite (good_check fun _ => done_ok (h.setTm _)) (done_ok h)

theorem State.memWf.csrWord (h : s.memWf) (base : W64) (pol i : Nat) : GoodWf (s.csrWord w base pol i) :=
  good_bind (h.streamRead ..) fun _ hr => good_ok hr

theorem State.memWf.csrRow (h : s.memWf) (c : Csr) (pol j row n : Nat) : GoodWf (s.csrRow w c pol j row n) := by
  induction n generalizing s row with
  | zero => exact good_ok h
  | succ n ih => exact good_ite (good_ok h) (good_bind (h.csrWord ..) fun e he => good_ite (ih he _) (good_ok he))

theorem State.memWf.csrLanes (h : s.memWf) (c : Csr) (pol q : Nat) (pad : W32) (l : List Nat) : GoodWf (s.csrLanes w c pol q pad l) := by
  induction l generalizing s with
  | nil => exact good_ok h
  | cons k l ih =>
    refine good_ite (good_bind (h.csrWord ..) fun e he => good_bind (ih he) fun r hr => good_ok hr) ?_
    exact good_bind (ih h) fun r hr => good_ok hr

theorem State.memWf.csrTags (h : s.memWf) (c : Csr) (pol q row next : Nat) (l : List Nat) :
    Good (fun r => r.2.2.memWf) (s.csrTags w c pol q row next l) := by
  induction l generalizing s row next with
  | nil => exact good_ok h
  | cons k l ih =>
    refine good_ite (good_bind (h.csrRow ..) fun r hr => ?_) (good_bind (ih h _ _) fun u hu => good_ok hu)
    exact good_iteBind (P := fun e : Nat × State => e.2.memWf) (hr.csrWord ..) (good_ok hr) fun e he => good_bind (ih he _ _) fun u hu => good_ok hu

theorem State.memWf.portFetch (h : s.memWf) (c : CoreId) (q : Port) : Good (fun r => r.2.2.memWf) (s.portFetch c q) := by
  unfold State.portFetch
  dsimp only
  split
  · exact good_bind (h.streamRead ..) fun r hr => good_ok hr
  · exact good_ite (h.csrTags ..) (good_bind (h.csrLanes ..) fun r hr => good_ok hr)

theorem State.memWf.execPortOperandFetch (h : s.memWf) : Leads (execPortOperandFetch s) := by
  refine leads_next (.ite h ?_)
  split
  · next hf => exact State.memWf.setTeam ((h.portFetch ..).of _ hf) ..
  · exact h.waited _
  · exact (h.markBad _).setTeam ..

theorem State.memWf.portWrite (h : s.memWf) (c : CoreId) (q : Port) (e : SdqEnt) : GoodSt (s.portWrite c q e) :=
  good_bind (h.streamPlace ..) fun _ hp => hp.engineWrite ..

theorem State.memWf.execWritePortWrite (h : s.memWf) : Leads (execWritePortWrite s) := by
  refine leads_next ?_
  split
  · refine .ite h ?_
    extract_lets _ q done
    have hdone (u : State) (hu : u.memWf) : (done u).memWf := hu.setTeam ..
    clear_value done
    split
    · next hu => exact hdone _ ((h.portWrite ..).of _ hu)
    · exact h.waited _
    · exact hdone _ ((h.markBad _).setTeam ..)
  · exact h

/-! ### System words and steps -/

theorem State.memWf.execLoadPerform (h : s.memWf) : Leads (execLoadPerform s) := leads_next (h.orWaited (h.performLoad ..))

theorem State.memWf.execStorePerform (h : s.memWf) : Leads (execStorePerform s) :=
  leads_next (h.orWaited (good_ite (h.performScat _) (h.performStore _)))

theorem State.memWf.execSignal (h : s.memWf) (a b : BitVec 6) (n : BitVec 10) : Leads (execSignal a b n s) := by
  refine h.run fun s h => good_check fun _ => good_bind (h.src a) fun x hx => good_bind (hx.src b) fun y hy => ?_
  refine good_check fun _ => good_check fun _ => good_bind hy.released fun u hu => good_check fun _ => good_check fun _ => good_check fun _ => ?_
  exact good_bind (hu.placeOf ..) fun q hq => done_ok (hq.enqueueStore ..)

theorem State.memWf.cfWrite (h : s.memWf) (n : Nat) (v : W64) : (s.cfWrite n v).memWf := by
  unfold State.cfWrite
  dsimp only
  split <;> exact h

theorem State.memWf.execCfw (h : s.memWf) (t : Tag) (a : BitVec 6) (n : BitVec 10) : Leads (execCfw t a n s) :=
  h.run fun _ h => good_check fun _ => good_bind (h.src a) fun _ hx => done_ok (hx.cfWrite ..)

theorem State.memWf.execHalt (h : s.memWf) : Leads (execHalt s) := h.run fun _ h => good_check fun _ => done_ok (h.haltCore _)

theorem State.memWf.execEret (h : s.memWf) : Leads (execEret s) := by
  refine h.run fun s h => done_ok ?_
  split
  · exact (h.leaveException s.cur).setSt _
  · exact h.leaveException s.cur

theorem State.memWf.execTlbi (h : s.memWf) (a b : BitVec 6) (n : BitVec 10) : Leads (execTlbi a b n s) := by
  refine h.run fun s h => good_check fun _ => good_bind (h.src a) fun x hx => good_bind (hx.src b) fun y hy => ?_
  split
  · exact good_error
  · exact done_ok (hy.setCore ..)
  · exact done_ok ((h.setCore ..).sendTlbi ..)

theorem State.memWf.settle (h : s.memWf) (l : List CoreId) : (s.settle l).memWf := by
  induction l generalizing s with
  | nil => exact h
  | cons c l ih => exact ih ((h.drainCore ..).drainScat ..)

theorem State.memWf.execTlbiInvalidateMessage (h : s.memWf) : Leads (execTlbiInvalidateMessage s) := by
  refine leads_next ?_
  split
  · exact h
  · exact .ite ((h.settle _).setDie _ rfl) (h.settle _)

theorem State.memWf.execTlbiAck (h : s.memWf) : Leads (execTlbiAck s) := by
  refine leads_next ?_
  split
  · exact .ite (h.setCore ..) h
  · exact h

end Machine

end Sys2Proof

/-! SUPPORT. The row words keep the memories canonical. -/

namespace Sys2Proof

namespace Machine

variable {s u v : State} {w : Who} {ea : W64}

theorem State.memWf.setMem (h : s.memWf) {m : List Host.Cell} (hm : Memory.wf m = true) : ({ s with mem := m } : State).memWf := by
  obtain ⟨_, h2, h3, h4, h5, h6, h7, h8, h9⟩ := h
  exact ⟨hm, h2, h3, h4, h5, h6, h7, h8, h9⟩

/-! ### Pages and lines -/

theorem State.memWf.pieceHome (h : s.memWf) (site p : Nat) : (s.pieceHome site p).memWf := (below_pieceHome s site p).memWf h

theorem State.memWf.homeRead (h : s.memWf) (line : Nat) : GoodWf (s.homeRead w line ea) := ⟨fun _ hr => (below_homeRead hr).memWf h⟩

theorem State.memWf.homeWrite (h : s.memWf) (w : Who) (pa : Nat) (data : List Byte) : (s.homeWrite w pa data).memWf :=
  (below_homeWrite s w pa data).memWf h

theorem State.memWf.markLine (h : s.memWf) (w : Who) (line kind : Nat) : (s.markLine w line kind).memWf := (below_markLine s w line kind).memWf h

theorem State.memWf.blankPage (h : s.memWf) (page : Nat) : (s.blankPage page).memWf := (below_blankPage s page).memWf h

theorem State.memWf.translate (h : s.memWf) (va n : Nat) (nd : Need) : GoodWf (s.translate w va n nd ea) := (good_translate va n nd).wf h

theorem State.memWf.backPage (h : s.memWf) (page : Nat) : (s.backPage page).memWf := h.foldl (fun _ _ hu => hu.pieceHome ..) _

theorem State.memWf.dropPage (h : s.memWf) (page : Nat) : (s.dropPage page).memWf := h.mapDies fun _ _ => rfl

theorem State.memWf.bumpStat (h : s.memWf) (k n : Nat) : (s.bumpStat k n).memWf := h.setTm _

theorem State.memWf.rowReach (h : s.memWf) (pa : Nat) (ea : W64) : GoodSt (s.rowReach pa ea) := h.reachHome pa

theorem State.memWf.mapParts (h : s.memWf) (nd : Need) (l : List (W64 × Nat)) : GoodWf (s.mapParts nd l) := by
  induction l generalizing s with
  | nil => exact good_ok h
  | cons e l ih => exact good_bind (h.translate ..) fun r hr => good_bind (ih hr) fun q hq => good_ok hq

theorem State.memWf.rowParts (h : s.memWf) (nd : Need) (l : List (W64 × Nat)) : GoodWf (s.rowParts nd l) := by
  unfold State.rowParts
  split
  · exact good_error
  · exact good_bind (h.mapParts ..) fun q hq => hq.mapParts ..

theorem State.memWf.rowPages (h : s.memWf) (p : W64) (n : Nat) (nd : Need) : GoodWf (s.rowPages p n nd) := h.rowParts ..

theorem State.memWf.copyPages (h : s.memWf) (dst src : W64) (n : Nat) : Good (fun r => r.2.2.memWf) (s.copyPages dst src n) := by
  unfold State.copyPages
  dsimp only
  split
  · exact good_error
  · exact good_bind (h.mapParts ..) fun q hq => good_bind (hq.mapParts ..) fun p hp => good_bind (hp.mapParts ..) fun r hr => good_ok hr

theorem State.memWf.eachPart (h : s.memWf) {f : State → W64 → Nat → Nat → Iss State} (hf : ∀ u ea pa n, State.memWf u → GoodSt (f u ea pa n))
    (l : List (W64 × Nat × Nat)) : GoodSt (s.eachPart f l) := by
  induction l generalizing s with
  | nil => exact good_ok h
  | cons e l ih => exact good_bind (hf _ _ _ _ h) fun u hu => ih hu

theorem State.memWf.leaveRow (h : s.memWf) (k : Nat) : (s.leaveRow k).memWf := by
  unfold State.leaveRow
  split
  · exact h
  · exact h.setMem (wf_cwrite _ _ h.1)

theorem State.memWf.clearPage (h : s.memWf) (page : Nat) (enc : Bool) : (s.clearPage page enc).memWf := by
  have h1 : ({ s with lineBad := tfilter (fun k _ => k / 1024 != page) s.lineBad } : State).memWf := h
  unfold State.clearPage
  generalize ({ s with lineBad := tfilter (fun k _ => k / 1024 != page) s.lineBad } : State) = s1 at h1 ⊢
  refine .ite ?_ (h1.setMem (wf_cclear _ _ h1.1))
  exact h1.foldl (f := State.leaveRow) (fun _ _ hu => hu.leaveRow _) _

theorem State.memWf.blocksMet (h : s.memWf) (w : Who) (page : Nat) : (s.blocksMet w page).memWf :=
  h.foldl (fun _ _ hu => .ite (hu.markLine ..) hu) _

theorem State.memWf.zeroAt (h : s.memWf) (site lf : Nat) : (s.zeroAt site lf).memWf := by
  unfold State.zeroAt
  split
  · exact h.clearPage ..
  · exact (h.blankPage _).setDie site rfl

theorem State.memWf.zeroRow (h : s.memWf) (pa n : Nat) : GoodSt (s.zeroRow ea pa n) :=
  good_check fun _ => good_check fun _ => good_ok ((((h.dropPage _).blocksMet ..).zeroAt ..).bumpStat ..)

theorem State.memWf.execMrowz (h : s.memWf) (a b : BitVec 6) : Leads (execMrowz a b s) := by
  refine h.run fun s h => good_check fun _ => good_bind (h.src a) fun x hx => good_bind (hx.src b) fun y hy => good_check fun _ => good_check fun _ => ?_
  refine good_bind (hy.rowPages ..) fun q hq => good_check fun _ => good_check fun _ => ?_
  exact good_bind (hq.eachPart (fun _ _ _ _ hu => hu.zeroRow ..) _) fun u hu => done_ok hu

theorem State.memWf.zeroValue (h : s.memWf) (k : Nat) : (s.zeroValue k).memWf := h.leaveRow k

theorem State.memWf.copyLine (h : s.memWf) (w : Who) (from_ tgt : Nat) : (s.copyLine w from_ tgt).memWf := by
  unfold State.copyLine
  split
  · next hr =>
    have hu := (h.homeRead (w := w) from_).of _ hr
    exact .ite (State.memWf.zeroValue hu _) (State.memWf.homeWrite hu ..)
  · exact h.markBad _
  · exact h

theorem State.memWf.freshFrame (h : s.memWf) (site lf : Nat) : GoodSt (s.freshFrame site lf) := by
  unfold State.freshFrame
  split
  · exact good_ok h
  · split
    · next hd => exact good_ok (h.setDie site (stores_expandFrame hd))
    · exact good_error

theorem State.memWf.copyRows (h : s.memWf) (l l' : List (W64 × Nat × Nat)) : GoodSt (s.copyRows l l') := by
  induction l generalizing s l' with
  | nil => cases l' <;> exact good_ok h
  | cons e l ih =>
    cases l' with
    | nil => exact good_ok h
    | cons e' l' =>
      refine good_bind (h.rowReach ..) fun u hu => good_check fun f => good_check fun g => good_check fun _ => good_check fun _ => ?_
      refine good_bind ((hu.backPage _).freshFrame ..) fun v hv => ih (State.memWf.bumpStat (State.memWf.bumpStat ?_ _ _) _ _) _
      exact ((hv.dropPage _).blocksMet ..).foldl (fun _ _ hu => hu.copyLine ..) _

theorem State.memWf.execMrowc (h : s.memWf) (r a b : BitVec 6) : Leads (execMrowc r a b s) := by
  refine h.run fun s h => good_check fun _ => good_bind (h.src a) fun x hx => good_bind (hx.src b) fun y hy => ?_
  refine good_check fun _ => good_check fun _ => good_check fun _ => good_check fun _ => good_check fun _ => ?_
  exact good_bind (hy.copyPages ..) fun q hq => good_check fun _ => good_check fun _ => good_bind (State.memWf.copyRows hq ..) fun u hu => done_ok hu

theorem State.memWf.execMloc (h : s.memWf) (d : Bool) (r a : BitVec 6) : Leads (execMloc d r a s) := by
  refine h.run fun s h => good_check fun _ => good_check fun _ => good_bind (h.src a) fun x hx => good_check fun _ => ?_
  refine good_bind (hx.rowParts ..) fun q hq => good_check fun _ => good_ite (done_ok (hq.put ..)) ?_
  split
  · exact done_ok (hq.freshWord.put ..)
  · exact good_check fun _ => done_ok (hq.put ..)

theorem State.memWf.invRow (h : s.memWf) (inv : Bool) (pa n : Nat) : GoodSt (s.invRow inv ea pa n) := by
  refine good_iteBind (P := State.memWf) (h.reachHome pa) (good_map (P := fun _ => True) good_any fun _ _ => h) fun u hu => good_check fun _ => good_ok ?_
  exact .ite ((hu.backPage _).dropPage _) (hu.backPage _)

theorem State.memWf.execMinv (h : s.memWf) (a b : BitVec 6) (f : BitVec 3) : Leads (execMinv a b f s) := by
  refine h.run fun s h => good_check fun _ => good_bind (h.src a) fun x hx => good_bind (hx.src b) fun y hy => good_check fun _ => good_check fun _ => ?_
  refine good_bind (hy.rowPages ..) fun q hq => good_check fun _ => ?_
  exact good_bind (hq.eachPart (fun _ _ _ _ hu => hu.invRow ..) _) fun u hu => done_ok hu

theorem State.memWf.metPage (h : s.memWf) (w : Who) (page : Nat) : (s.metPage w page).memWf := by
  refine h.foldl (fun u l hu => ?_) _
  split
  · next hr => exact (hu.homeRead l).of _ hr
  · exact hu.markBad _
  · exact hu

theorem die_blankPage (s : State) (page x : Nat) : (s.blankPage page).die x = s.die x := rfl

theorem State.memWf.blanked (h : u.memWf) (page site f : Nat) (t : Tab FrameSt) :
    ((u.blankPage page).setDie site { (u.die site).freeFrame f with frames := t }).memWf :=
  (h.blankPage page).setDie site (by rw [die_blankPage]; rfl)

theorem State.memWf.caved (h : u.memWf) (site f n : Nat) (l : Tab Nat) (t : Tab FrameSt) :
    (({ u with latent := l } : State).setDie site { (u.die site).freeFrame f with frames := t, caveUsed := n }).memWf :=
  State.memWf.setDie (s := { u with latent := l }) h site rfl

theorem State.memWf.compress (h : s.memWf) (w : Who) (site lf page : Nat) : (s.compress w site lf page).memWf := by
  have hv := (h.backPage page).dropPage page
  unfold State.compress
  extract_lets v
  split
  · next f _ =>
    have hu : (v.metPage w page).memWf := State.memWf.metPage hv w page
    exact .ite (hu.blanked _ site f _) (.ite (hu.caved site f _ _ _) hu)
  · exact hv

theorem State.memWf.execMcomp (h : s.memWf) (d : Bool) (r a : BitVec 6) : Leads (execMcomp d r a s) := by
  refine h.run fun s h => good_check fun _ => good_check fun _ => good_bind (h.src a) fun x hx => good_check fun _ => good_check fun _ => ?_
  refine good_bind (hx.rowPages ..) fun q hq => good_check fun _ => good_check fun _ => good_check fun _ => good_check fun _ => ?_
  exact done_ok ((hq.compress ..).put ..)

theorem State.memWf.execMexpd (h : s.memWf) (d : Bool) (r a b : BitVec 6) : Leads (execMexpd d r a b s) := by
  refine h.run fun s h => good_check fun _ => good_check fun _ => good_bind (h.src a) fun x hx => good_bind (hx.src b) fun y hy => ?_
  refine good_check fun _ => good_check fun _ => good_bind (hy.rowPages ..) fun q hq => good_check fun _ => good_check fun _ => ?_
  exact good_bind (hq.eachPart (fun _ _ _ _ hu => hu.rowReach ..) _) fun u hu => done_ok (hu.put ..)

theorem wf_scrubLine {e : State × Nat × Nat} (h : e.1.memWf) (w : Who) (line : Nat) : (State.scrubLine w e line).1.memWf := by
  unfold State.scrubLine
  dsimp only
  split
  · next hr => exact (h.homeRead line).of _ hr
  · exact h.markBad _
  · exact h

theorem wf_scrubLines {e : State × Nat × Nat} (h : e.1.memWf) (w : Who) (l : List Nat) : (l.foldl (State.scrubLine w) e).1.memWf := by
  induction l generalizing e with
  | nil => exact h
  | cons a l ih => exact ih (wf_scrubLine h w a)

theorem State.memWf.scrubPages (h : s.memWf) (n : Nat × Nat) (l : List (W64 × Nat × Nat)) : GoodWf (s.scrubPages n l) := by
  induction l generalizing s n with
  | nil => exact good_ok h
  | cons e l ih =>
    refine good_check fun _ => good_check fun _ => ?_
    split
    · exact ih (wf_scrubLines (e := (s.backPage _, n.1, n.2)) (h.backPage _) _ _) _
    · exact ih h n

theorem State.memWf.execMscrb (h : s.memWf) (d : Bool) (r a b : BitVec 6) : Leads (execMscrb d r a b s) := by
  refine h.run fun s h => good_check fun _ => good_check fun _ => good_bind (h.src a) fun x hx => good_bind (hx.src b) fun y hy => ?_
  refine good_check fun _ => good_check fun _ => good_bind (hy.rowPages ..) fun q hq => good_check fun _ => good_check fun _ => ?_
  exact good_bind (hq.scrubPages ..) fun u hu => done_ok (hu.put ..)

theorem State.memWf.readBeyond (h : s.memWf) (lvl : Lvl) (pa n k : Nat) : GoodWf (s.readBeyond w lvl pa n ea k) := (good_readBeyond ..).wf h

theorem State.memWf.readHome (h : s.memWf) (l : List (W64 × Nat × Nat)) : GoodWf (s.readHome l) := by
  induction l generalizing s with
  | nil => exact good_ok h
  | cons e l ih =>
    refine good_iteBind (P := State.memWf) (good_ok h) (h.rowReach ..) fun u hu => ?_
    exact good_bind (hu.readBeyond ..) fun b hb => good_bind (ih hb) fun q hq => good_ok hq

theorem State.memWf.execMred (h : s.memWf) (d : Bool) (r a b : BitVec 6) (f : BitVec 3) : Leads (execMred d r a b f s) := by
  refine h.run fun s h => good_check fun _ => good_check fun _ => good_bind (h.src a) fun x hx => good_bind (hx.src b) fun y hy => ?_
  refine good_check fun _ => good_check fun _ => good_check fun _ => good_bind (hy.rowParts ..) fun q hq => good_check fun _ => ?_
  exact good_bind (hq.readHome ..) fun u hu => done_ok (hu.put ..)

theorem State.memWf.dropAll (h : s.memWf) (p : Nat) (l : List Nat) : (s.dropAll p l).memWf := (below_dropAll s p l).memWf h

theorem State.memWf.recallInv (h : s.memWf) (p : Nat) : (s.recallInv p).memWf := (below_recallInv s p).memWf h

theorem State.memWf.homeOpen (h : s.memWf) (line : Nat) : GoodSt (s.homeOpen w line ea) := ⟨fun _ hr => (below_homeOpen hr).memWf h⟩

theorem State.memWf.fillHome (h : s.memWf) (pat : W64) (pa n k : Nat) : GoodSt (s.fillHome w pat pa n ea k) := by
  induction k generalizing s pa n with
  | zero => exact good_ok h
  | succ k ih =>
    refine good_ite (good_ok h) (good_check fun _ => ?_)
    exact good_iteBind (P := State.memWf) (good_ok (h.dropAll ..)) ((h.recallInv _).homeOpen _) fun u hu => ih (hu.homeWrite ..) _ _

theorem State.memWf.fillPart (h : s.memWf) (pat : W64) (pa n : Nat) : GoodSt (s.fillPart pat ea pa n) :=
  good_ite (h.kickRange ..) (good_bind (h.rowReach ..) fun _ hv => hv.fillHome ..)

theorem State.memWf.execMfill (h : s.memWf) (r a b : BitVec 6) : Leads (execMfill r a b s) := by
  refine h.run fun s h => good_check fun _ => good_bind (h.src a) fun x hx => good_bind (hx.src b) fun y hy => good_check fun _ => good_check fun _ => ?_
  refine good_bind (hy.rowParts ..) fun q hq => good_check fun _ => ?_
  exact good_bind (hq.eachPart (fun _ _ _ _ hu => hu.fillPart ..) _) fun u hu => done_ok hu

/-! ### Migration -/

theorem State.memWf.popFrame (h : s.memWf) (key : Nat) : GoodWf (s.popFrame w key ea) :=
  good_ite (good_ok h) (good_bind (h.cohRead ..) fun _ hr => good_ok (State.memWf.setDie hr _ rfl))

theorem State.memWf.pushFrame (h : s.memWf) (key frame : Nat) : GoodSt (s.pushFrame w key frame ea) :=
  good_bind (h.cohWrite ..) fun _ hu => good_ok (hu.setDie _ rfl)

theorem State.memWf.leafOf (h : s.memWf) (p : W64) : Good (fun r => r.2.2.memWf) (s.leafOf w p) :=
  good_bind (good_walkRoot.wf h) fun _ hr => good_bind ⟨fun _ hq => ((good_walkFrom ..).of _ hq).memWf hr⟩ fun _ hq =>
    good_check fun _ => good_ok hq

theorem State.memWf.migCopy (h : s.memWf) (w : Who) (old new : Nat) : (s.migCopy w old new).memWf :=
  ((((h.backPage _).dropPage _).dropPage _).blocksMet ..).foldl (fun _ _ hu => hu.copyLine ..) _

theorem State.memWf.moveL1 (h : s.memWf) (old new : Nat) : (s.moveL1 old new).memWf := h

theorem State.memWf.setMigrate (h : s.memWf) (l : List Mig) : ({ s with migrate := l } : State).memWf := h

theorem State.memWf.migStart (h : s.memWf) (p : W64) (pte at_ pa new : Nat) : GoodSt (s.migStart w p pte at_ pa new) := by
  refine good_bind (h.reachHome _) fun a ha => good_bind (ha.reachHome _) fun b hb => good_check fun _ => good_check fun _ => ?_
  exact good_bind (((hb.migCopy ..).moveL1 ..).cohWrite ..) fun d hd => good_ok (((hd.setMigrate _).setCore ..).sendTlbi ..)

theorem State.memWf.migEnd (h : s.memWf) (key : Nat) (p : W64) (m : Mig) : GoodSt (s.migEnd w key p m) :=
  good_bind (h.pushFrame ..) fun _ hu => good_ok ((hu.setMigrate _).setCore ..)

theorem State.memWf.lateResult (h : s.memWf) (d : Bool) (r a : BitVec 6) (v : W64) : GoodDone (s.lateResult d r a v) :=
  good_bind (h.src a) fun _ hz => done_ok (hz.put ..)

theorem State.memWf.execMmig (h : s.memWf) (d : Bool) (r a : BitVec 6) (f : BitVec 3) : Leads (execMmig d r a f s) := by
  refine h.run fun s h => good_check fun _ => good_check fun _ => good_bind (h.src a) fun x hx => ?_
  dsimp only
  split
  · exact good_check fun _ => good_bind (h.migEnd ..) fun u hu => hu.lateResult ..
  · refine good_check fun _ => good_check fun _ => good_check fun _ => good_bind (h.leafOf _) fun l0 h0 => ?_
    refine good_bind (State.memWf.rowPages h0 ..) fun q hq => good_bind (hq.leafOf _) fun l hl => good_check fun _ => good_check fun _ => ?_
    refine good_ite (State.memWf.lateResult (State.memWf.freshWord hl) ..) (good_bind (State.memWf.popFrame hl ..) fun t ht => ?_)
    split
    · exact State.memWf.lateResult (State.memWf.freshWord ht) ..
    · exact good_bind (State.memWf.migStart ht ..) fun u hu => done_ok hu

end Machine

end Sys2Proof

/-! SUPPORT. Vector and tile words, leases and tile transfers keep the memories canonical. -/

namespace Sys2Proof

namespace Machine

variable {s u v : State} {w : Who} {ea : W64}

/-! ### Vector words -/

theorem State.memWf.vfloat2 (h : s.memWf) (d : Bool) (r a b : BitVec 6) (k : BitVec 3) (op : Nat → ExNum → ExNum → ExNum) :
    GoodDone (s.vfloat2 d r a b k op) := h.vec2 ..

theorem State.memWf.vfused (h : s.memWf) (d : Bool) (r a b : BitVec 6) (k : BitVec 3) (op : ExNum → ExNum → ExNum) :
    GoodDone (s.vfused d r a b k op) := h.vec3 ..

theorem State.memWf.vfloat1 (h : s.memWf) (d : Bool) (r a : BitVec 6) (k : BitVec 3) (op : W32 → ExNum → Nat) :
    GoodDone (s.vfloat1 d r a k op) := h.vec1 ..

/-! ### Leases -/

theorem State.memWf.putTile (h : s.memWf) (a : BitVec 7) (t : Tile) : (s.putTile a t).memWf := h.setTm _

theorem State.memWf.grantLease (h : s.memWf) (site : Nat) : (s.grantLease site).memWf := by
  refine .ite h ?_
  split
  · exact h
  · exact (h.setCore ..).setDie site rfl

theorem State.memWf.passLease (h : s.memWf) (c : CoreId) (tgt : LeaseSt) : (s.passLease c tgt).memWf := (h.setCore ..).grantLease _

theorem State.memWf.spendLease (h : s.memWf) : s.spendLease.memWf := .ite (h.setCore ..) ((h.setCore ..).passLease ..)

theorem State.memWf.execClease (h : s.memWf) : Leads (execClease s) := h.run fun _ h => done_ok (State.memWf.ite (h.setCore ..) h)

theorem State.memWf.execCrel (h : s.memWf) : Leads (execCrel s) := h.run fun _ h => done_ok (h.passLease ..)

theorem State.memWf.execLeaseGrant (h : s.memWf) : Leads (execLeaseGrant s) := leads_next (.ite (h.grantLease _) h)

theorem State.memWf.execLeaseBudgetExpiry (h : s.memWf) : Leads (execLeaseBudgetExpiry s) := by
  refine leads_next ?_
  split
  · exact .ite (h.passLease ..) h
  · exact h

theorem State.memWf.execLeaseIdleExpiry (h : s.memWf) : Leads (execLeaseIdleExpiry s) := by
  refine leads_next ?_
  split
  · exact .ite (h.passLease ..) h
  · exact h

/-! ### Tiles -/

theorem State.memWf.execMma (h : s.memWf) (a b : BitVec 7) : Leads (execMma a b s) :=
  h.run fun _ h => good_check fun _ => good_check fun _ => good_check fun _ => good_check fun _ => good_check fun _ =>
    done_ok (h.setTm _).spendLease

theorem State.memWf.execTri (h : s.memWf) (a b g : BitVec 7) : Leads (execTri a b g s) :=
  h.run fun _ h => good_check fun _ => good_check fun _ => good_check fun _ => good_check fun _ => good_check fun _ =>
    done_ok (h.setTm _).spendLease

theorem State.memWf.execAccst (h : s.memWf) (a : BitVec 7) : Leads (execAccst a s) :=
  h.run fun _ h => good_check fun _ => good_check fun _ => good_check fun _ => good_check fun _ => done_ok (h.putTile ..)

theorem State.memWf.execTshape (h : s.memWf) (a : BitVec 7) (b : BitVec 6) : Leads (execTshape a b s) :=
  h.run fun _ h => good_check fun _ => good_bind (h.src b) fun _ hx => good_check fun _ => good_check fun _ =>
    done_ok (State.memWf.ite hx (hx.putTile ..))

theorem State.memWf.execTzero (h : s.memWf) (a : BitVec 7) : Leads (execTzero a s) :=
  h.run fun _ h => good_check fun _ => good_check fun _ => done_ok (h.putTile ..)

theorem State.memWf.execTcvt (h : s.memWf) (a b : BitVec 7) : Leads (execTcvt a b s) :=
  h.run fun _ h => good_check fun _ => good_check fun _ => good_check fun _ => good_check fun _ => good_check fun _ => good_check fun _ =>
    done_ok (h.putTile ..)

theorem State.memWf.elemOp (h : s.memWf) (a b g : BitVec 7) (num : Nat → ExNum → ExNum → ExNum) (int : Int → Int → Int) :
    GoodDone (s.elemOp a b g num int) :=
  good_check fun _ => good_check fun _ => good_check fun _ => good_check fun _ => good_check fun _ => good_check fun _ => good_check fun _ =>
    done_ok (h.putTile ..)

theorem State.memWf.execTred (h : s.memWf) (a b : BitVec 7) (g : BitVec 6) : Leads (execTred a b g s) :=
  h.run fun _ h => good_check fun _ => good_check fun _ => good_bind (h.src g) fun _ hv => good_check fun _ => good_check fun _ =>
    good_check fun _ => good_check fun _ => good_check fun _ => done_ok (hv.putTile ..)

theorem State.memWf.execTbcast (h : s.memWf) (a b : BitVec 7) : Leads (execTbcast a b s) :=
  h.run fun _ h => good_check fun _ => good_check fun _ => good_check fun _ => good_check fun _ => done_ok (h.putTile ..)

theorem State.memWf.execTix (h : s.memWf) (b : BitVec 6) : Leads (execTix b s) :=
  h.run fun _ h => good_check fun _ => good_bind (h.src b) fun _ hx => done_ok (hx.setTm _)

/-! ### Tile transfers -/

theorem State.memWf.linePlaces (h : s.memWf) (base l : W64) (nd : Need) (k : Nat) : GoodWf (s.linePlaces w base l nd k) :=
  good_check fun _ => good_check fun _ => h.partPlaces ..

theorem State.memWf.checkLines (h : s.memWf) (base l : W64) (nd : Need) (ks : List Nat) : GoodWf (s.checkLines w base l nd ks) := by
  induction ks generalizing s with
  | nil => exact good_ok h
  | cons k ks ih => exact good_bind (h.linePlaces ..) fun r hr => good_bind (ih hr) fun q hq => good_ok hq

theorem State.memWf.xferLine (h : s.memWf) (x : Xfer) (nd : Need) (k : Nat) : GoodWf (s.xferLine w x nd k) := by
  unfold State.xferLine
  split
  · exact good_ok h
  · exact h.linePlaces ..

theorem State.memWf.tileXfer (h : s.memWf) (store : Bool) (a : BitVec 7) (b g : BitVec 6) : GoodDone (s.tileXfer store a b g) := by
  refine good_check fun _ => good_ite (good_check fun _ => ?_) (good_ite (good_check fun _ => ?_) (good_check fun _ => ?_))
  all_goals
    exact good_bind (h.src b) fun x hx => good_bind (hx.src g) fun y hy => good_check fun _ => good_check fun _ => good_check fun _ =>
      good_check fun _ => good_bind (hy.checkLines ..) fun u hu => done_ok (hu.setTm _)

theorem State.memWf.loadLines (h : s.memWf) (x : Xfer) (t : Tile) (ks : List Nat) :
    Good (fun r => r.1.memWf) (s.loadLines w x t ks) := by
  induction ks generalizing s t with
  | nil => exact good_ok h
  | cons k ks ih =>
    have hline : GoodWf (s.xferLine w x .read k >>= fun p => p.2.readParts w p.1) := good_bind (h.xferLine ..) fun p hp => hp.readParts ..
    unfold State.loadLines
    dsimp only
    split
    · next hr => exact ih (hline.of _ hr) _
    · exact good_error
    · exact good_ok (h.markBad _)

theorem State.memWf.storeLines (h : s.memWf) (x : Xfer) (t : Tile) (ks : List Nat) : GoodSt (s.storeLines w x t ks) := by
  induction ks generalizing s with
  | nil => exact good_ok h
  | cons k ks ih =>
    have hline : GoodSt (s.xferLine w x .write k >>= fun p => p.2.writeParts w p.1 (packBytes (layWidth x.lay) (t.line x (layFirst x.lay + k)))) :=
      good_bind (h.xferLine ..) fun p hp => hp.writeParts ..
    unfold State.storeLines
    dsimp only
    split
    · next hr => exact ih (hline.of _ hr)
    · exact good_error
    · exact ih ((h.markBad _).setTeam ..)

theorem State.memWf.xferEffect (h : s.memWf) (c : CoreId) (x : Xfer) : GoodSt (s.xferEffect c x) := by
  refine good_ite ?_ (good_ite (good_map (h.loadLines ..) fun _ hr => hr) (good_ok h))
  split
  · exact good_ok h
  · exact h.storeLines ..

theorem State.memWf.execTileTransferEffect (h : s.memWf) : Leads (execTileTransferEffect s) := by
  refine leads_next ?_
  split
  · exact h
  · exact .ite (h.orWaited (State.memWf.xferEffect (h.setTeam ..) ..)) h

end Machine

end Sys2Proof

/-! SUPPORT. Context areas, fences, flocks and transfer phases keep the memories canonical. -/

namespace Sys2Proof

namespace Machine

variable {s u v : State} {w : Who} {ea : W64}

/-! ### Context areas -/

theorem State.memWf.ctxPage (h : s.memWf) (w : Who) (pa first n : Nat) (f : Nat → W64) : GoodSt (s.ctxPage w pa first n f) := by
  unfold State.ctxPage
  have hreach : GoodSt (s.reachHome w pa 0) := h.reachHome pa
  split
  · next hu =>
    refine good_ok ((hreach.of _ hu).foldl (fun v k hv => ?_) _)
    split
    · exact (hv.recallInv _).homeWrite ..
    · exact hv
  · exact good_error
  · exact good_ok (h.markBad _)

theorem wf_foldlBind {ε α : Type} {f : State → α → Except ε State} (hf : ∀ u a, State.memWf u → GoodSt (f u a)) (l : List α)
    {x : Except ε State} (hx : GoodSt x) : GoodSt (l.foldl (fun o a => o.bind fun u => f u a) x) := by
  induction l generalizing x with
  | nil => exact hx
  | cons a l ih => exact ih (good_bind hx fun u hu => hf u a hu)

theorem State.memWf.ctxWrite (h : s.memWf) (w : Who) (i : TeamId) (f : Nat → W64) : GoodSt (s.ctxWrite w i f) :=
  wf_foldlBind (fun _ _ hu => hu.ctxPage ..) _ (good_ok h)

theorem State.memWf.ctxRecall (h : s.memWf) (w : Who) (i : TeamId) : (s.ctxRecall w i).memWf := by
  refine h.foldl (fun u k hu => ?_) _
  split
  · exact hu.recallInv _
  · exact hu

theorem State.memWf.ctxMet (h : s.memWf) (w : Who) (i : TeamId) : (s.ctxMet w i).memWf := by
  refine h.foldl (fun u k hu => ?_) _
  split
  · next hr => exact (hu.homeRead _).of _ hr
  · exact hu.markBad _
  · exact hu

theorem State.memWf.ctxLoad (h : s.memWf) (c : CoreId) (text : Tab W32) (t : TeamSt) : (s.ctxLoad c text t).2.memWf := by
  unfold State.ctxLoad
  split
  · exact h
  · exact (h.ctxRecall ..).ctxMet ..

/-! ### Fences -/

theorem State.memWf.execFence (h : s.memWf) (t : Tag) (k : BitVec 2) (c : BitVec 3) : Leads (execFence t k c s) := by
  refine h.run fun s h => good_check fun _ => good_ite (good_check fun _ => good_check fun _ => ?_) (good_check fun _ => ?_)
  all_goals
    exact good_iteBind (P := State.memWf) h.released (good_ok h) fun a ha =>
      good_iteBind (P := State.memWf) ha.acquired (good_ok ha) fun b hb => done_ok hb

theorem State.memWf.execXfence (h : s.memWf) (t : Tag) (a b : BitVec 6) (c : BitVec 3) : Leads (execXfence t a b c s) := by
  refine h.run fun s h => good_ite (good_check fun _ => good_check fun _ => ?_) (good_check fun _ => ?_)
  all_goals
    exact good_iteBind (P := State.memWf) h.released (good_ok h) fun a ha =>
      good_iteBind (P := State.memWf) ha.acquired (good_ok ha) fun b hb => done_ok hb

theorem State.memWf.pastEnd (h : s.memWf) : s.pastEnd.memWf := h.takeFault ..

theorem State.memWf.badWord (h : s.memWf) (x : W32) : (s.badWord x).memWf := h.issue _ good_error

/-! ### Flocks -/

theorem State.memWf.setFlock (h : s.memWf) (site e : Nat) (x : FlockEnt) : (s.setFlock site e x).memWf := h.setDie site rfl

theorem State.memWf.freeFlock (h : s.memWf) (site n : Nat) : (s.freeFlock site n).memWf := (calm_freeFlock s site n).memWf h

theorem State.memWf.setCores (h : s.memWf) (k : Tab CoreSt) : ({ s with cores := k } : State).memWf := h

theorem State.memWf.tellMember (h : s.memWf) (node key : Nat) (f g : TeamSt → TeamSt) : (s.tellMember node key f g).memWf :=
  (h.setCores _).mapDrovers fun _ _ => rfl

theorem State.memWf.contribute (h : s.memWf) (site : Nat) (e : FlockEnt) (a : ArriveRec) : GoodSt (s.contribute site e a) := by
  unfold State.contribute
  split
  · exact good_ok h
  · next pa _ _ =>
    have hstore : GoodSt (s.doStore (e.who site) (areaWord pa a.key) (leBytes 8 a.val.toNat) 0) := h.doStore ..
    refine good_ite (good_ok h) ?_
    split
    · next hu => exact good_ok (hstore.of _ hu)
    · exact good_error
    · exact good_ok (h.markBad _)

theorem State.memWf.contribution (h : s.memWf) (site : Nat) (e : FlockEnt) (a : ArriveRec) : (s.contribution site e a).2.memWf := by
  unfold State.contribution
  split
  · exact h.freshWord
  · next pa _ _ =>
    have hload : GoodWf (s.doLoad (e.who site) (areaWord pa a.key) 8 0) := h.doLoad ..
    split
    · next hr => exact hload.of _ hr
    · exact h.freshWord
    · exact (h.markBad _).freshWord

theorem State.memWf.contributions (h : s.memWf) (site : Nat) (e : FlockEnt) (l : List ArriveRec) : (s.contributions site e l).2.memWf := by
  induction l generalizing s with
  | nil => exact h
  | cons a l ih => exact ih (h.contribution ..)

theorem State.memWf.episodeSum (h : s.memWf) (site : Nat) (e : FlockEnt) : (s.episodeSum site e).2.memWf := by
  unfold State.episodeSum
  split
  · exact h.contributions ..
  · exact h

theorem State.memWf.clearDrives (h : s.memWf) (site : Nat) : (s.clearDrives site).memWf := .ite h (h.setDie site rfl)

theorem State.memWf.answerTo (h : s.memWf) (home site node key : Nat) (f g : TeamSt → TeamSt) : (s.answerTo home site node key f g).memWf :=
  .ite (h.tellMember ..) h

theorem State.memWf.answerAll (h : s.memWf) (home : Nat) (e : FlockEnt) (sum : W64) (base : Nat) (l : List ArriveRec) :
    (s.answerAll home e sum base l).memWf := by
  induction l generalizing s with
  | nil => exact h
  | cons a l ih => exact ih (h.answerTo ..)

theorem State.memWf.closeEpisode (h : s.memWf) (site n : Nat) : (s.closeEpisode site n).memWf := by
  unfold State.closeEpisode
  split
  · exact h
  · refine .ite h (State.memWf.answerAll (State.memWf.setFlock (State.memWf.episodeSum (.ite ?_ h) ..) ..) ..)
    split
    · exact h.clearDrives _
    · exact h

theorem State.memWf.flockArrive (h : s.memWf) (site n : Nat) (a : ArriveRec) : GoodSt (s.flockArrive site n a) := by
  unfold State.flockArrive
  split
  · exact good_ok h
  · exact good_map (h.contribute ..) fun _ hu => (hu.setFlock ..).closeEpisode ..

theorem State.memWf.flockJoin (h : s.memWf) (site n : Nat) (m : Member) (fold : Nat) : SomeWf (s.flockJoin site n m fold) := by
  unfold State.flockJoin
  split
  · exact someWf_none
  · exact someWf_ite someWf_none (someWf_some (h.setFlock ..))

theorem State.memWf.flockLeave (h : s.memWf) (site n node key : Nat) : (s.flockLeave site n node key).memWf := by
  unfold State.flockLeave
  split
  · exact h
  · exact .ite (h.freeFlock ..) ((h.setFlock ..).closeEpisode ..)

theorem State.memWf.sendFlock (h : s.memWf) (a site : Nat) (m : FlockMsg) : (s.sendFlock a site m).memWf := .ite (h.setDie site rfl) h

theorem State.memWf.leaveFlock (h : s.memWf) (site : Nat) (t : TeamSt) : (s.leaveFlock site t).memWf := by
  unfold State.leaveFlock
  split
  · exact .ite (h.flockLeave ..) (h.sendFlock ..)
  · exact h

theorem State.memWf.arriveAt (h : s.memWf) (id : Nat) (k : EpKind) (x : W64) : GoodSt (s.arriveAt id k x) := by
  unfold State.arriveAt
  split
  · exact good_ok h
  · exact good_ite ((h.setTm _).flockArrive ..) (good_ok ((h.setTm _).sendFlock ..))

theorem State.memWf.dropFlockMsg (h : s.memWf) (site : Nat) : (s.dropFlockMsg site).memWf := h.setDie site rfl

theorem State.memWf.execFlockJoinMessage (h : s.memWf) : Leads (execFlockJoinMessage s) := by
  refine leads_next ?_
  split
  · next n key frm fold node _ _ =>
    have hjoin : SomeWf ((s.dropFlockMsg s.ev.site).flockJoin s.ev.site n { key := key, site := frm, node := node } fold) :=
      (h.dropFlockMsg _).flockJoin ..
    dsimp only
    split
    · next hu => exact (hjoin.of _ hu).answerTo ..
    · exact (h.dropFlockMsg _).answerTo ..
  · exact h

theorem State.memWf.execFlockLeaveMessage (h : s.memWf) : Leads (execFlockLeaveMessage s) := by
  refine leads_next ?_
  split
  · exact (h.dropFlockMsg _).flockLeave ..
  · exact h

theorem State.memWf.execFlockArrivalMessage (h : s.memWf) : Leads (execFlockArrivalMessage s) := by
  refine leads_next ?_
  split
  · next n key node k x _ _ =>
    have harrive : GoodSt ((s.dropFlockMsg s.ev.site).flockArrive s.ev.site n { key := key, node := node, kind := k, val := x }) :=
      (h.dropFlockMsg _).flockArrive ..
    split
    · next hu => exact harrive.of _ hu
    · exact h.waited _
    · exact h
  · exact h

theorem State.memWf.joinFlock (h : s.memWf) (i : TeamId) (id : Nat) : GoodDone (s.joinFlock i id) := by
  refine good_check fun _ => good_ite ?_ (good_check fun _ => done_ok ((h.setTm _).sendFlock ..))
  split
  · next hu => exact done_ok (((h.flockJoin ..).of _ hu).setTm _)
  · exact good_error

theorem State.memWf.execFjoin (h : s.memWf) (a : BitVec 6) (n : BitVec 10) : Leads (execFjoin a n s) := by
  refine h.run fun s h => good_ite (done_ok h) (good_iteBind (P := fun _ => True) good_any good_any fun _ _ => ?_)
  refine good_iteBind (P := fun r : W64 × State => r.2.memWf) (h.src a) (good_ok h) fun x hx => ?_
  split
  · exact good_error
  · next i _ =>
    refine good_check fun _ => ?_
    extract_lets _ jp
    have hjp (id : Nat) : GoodDone (jp id) := by
      show GoodDone (match s.tm.join with
        | .asked => hold
        | .refused => flt .FLOCK 0 0
        | .joined => .ok (x.2.setTm { x.2.tm with join := .idle, flock := some id }).goOn
        | .idle => x.2.joinFlock i id >>= fun d => match d.held with
          | none => .ok d
          | some _ => s.joinFlock i id)
      split
      · exact good_error
      · exact good_error
      · exact done_ok (hx.setTm _)
      · refine good_bind (hx.joinFlock i id) fun d hd => ?_
        split
        · exact done_ok hd
        · exact h.joinFlock i id
    clear_value jp
    split
    · exact hjp _
    · exact good_error

theorem State.memWf.execFleave (h : s.memWf) : Leads (execFleave s) :=
  h.run fun _ h => good_ite (done_ok h) (good_check fun _ => done_ok ((h.leaveFlock ..).setTm _))

theorem State.memWf.arrivalDone (h : s.memWf) : s.arrivalDone.memWf := h.setTm _

theorem State.memWf.fbarFollow (h : s.memWf) : GoodDone s.fbarFollow :=
  good_bind h.acquired fun _ hu => done_ok (State.memWf.ite hu.arrivalDone hu)

theorem State.memWf.fbarLead (h : s.memWf) (a : BitVec 6) : GoodDone (s.fbarLead a) := by
  refine good_check fun _ => good_check fun _ => ?_
  split
  · exact good_error
  · split
    · exact good_map h.acquired fun _ hu => hu.put ..
    · exact good_error
    · exact good_error
    · exact good_check fun _ => good_check fun _ => good_check fun _ => good_bind h.released fun u hu => good_map (hu.arriveAt ..) fun _ hv => hv

theorem State.memWf.execFbar (h : s.memWf) (a : BitVec 6) : Leads (execFbar a s) := by
  refine leads_ite ?_ (h.run fun _ h => good_ite (h.fbarLead a) h.fbarFollow)
  split
  · exact leads_next (h.takeFault ..)
  · exact leads_next h

theorem State.memWf.execFred (h : s.memWf) (d : Bool) (r a : BitVec 6) (f : BitVec 3) : Leads (execFred d r a f s) := by
  refine h.run fun s h => good_check fun _ => good_check fun _ => good_bind (h.src a) fun x hx => ?_
  cases s.tm.flock with
  | none =>
    dsimp only
    exact good_error
  | some id =>
    dsimp only
    cases s.tm.arrival with
    | idle => exact good_map (h.arriveAt ..) fun _ hu => hu
    | waiting k => cases k <;> exact good_error
    | complete k o =>
      cases k with
      | fred _ =>
        cases o with
        | none => exact good_error
        | some v => exact done_ok (hx.arrivalDone.put ..)
      | _ => exact good_error

/-! ### Transfer phases -/

theorem State.memWf.xphLead (h : s.memWf) : GoodDone s.xphLead := by
  unfold State.xphLead
  cases s.tm.flock with
  | none =>
    dsimp only
    exact good_error
  | some id =>
    refine good_check fun _ => ?_
    dsimp only
    cases s.tm.arrival with
    | idle => exact good_check fun _ => good_check fun _ => good_bind h.released fun u hu => good_map (hu.arriveAt ..) fun _ hv => hv
    | waiting k => cases k <;> exact good_error
    | complete k o =>
      cases k with
      | xph =>
        cases o with
        | none => exact good_error
        | some v => exact good_bind h.arrivalDone.acquired fun u hu => done_ok (done_ite hu hu)
      | _ => exact good_error

theorem State.memWf.execXph (h : s.memWf) : Leads (execXph s) := h.run fun _ h => good_ite h.xphLead (done_ok h)

theorem State.memWf.phaseUsed (h : s.memWf) (i : BitVec 9) (t : Nat) : (s.phaseUsed i t).memWf := h

theorem State.memWf.execXmit (h : s.memWf) (a : BitVec 6) (i : BitVec 9) (c : BitVec 1) : Leads (execXmit a i c s) :=
  h.run fun s h => good_check fun t => good_check fun _ => good_bind (h.src a) fun x hx =>
    done_ok (State.memWf.phaseUsed (s := s.setDie s.cur.site _) (h.setDie _ (by rfl)) i t)

theorem State.memWf.execMsel (h : s.memWf) (r : BitVec 6) (i : BitVec 9) (c : BitVec 1) : Leads (execMsel r i c s) :=
  h.run fun _ h => good_check fun _ => good_check fun _ => good_check fun _ => done_ok ((h.phaseUsed ..).put ..)

theorem State.memWf.xendLead (h : s.memWf) : GoodDone s.xendLead := by
  unfold State.xendLead
  split
  · exact good_error
  · exact good_ite (done_ok h) (good_ite (done_ok h) (done_ok h))

theorem State.memWf.execXend (h : s.memWf) : Leads (execXend s) := h.run fun _ h => good_ite h.xendLead (done_ok h)

end Machine

end Sys2Proof

/-! SUPPORT. Nodes, launches and teams keep the memories canonical. -/

namespace Sys2Proof

namespace Machine

variable {s u v : State} {w : Who} {ea : W64}

theorem someWf_bindAny {α : Type} {x : Option α} {f : α → Option State} (hf : ∀ a, x = some a → SomeWf (f a)) : SomeWf (x.bind f) := by
  cases x with
  | none => exact someWf_none
  | some a => exact hf a rfl

theorem someWf_mapAny {α : Type} {x : Option α} {f : α → State} (hf : ∀ a, x = some a → (f a).memWf) : SomeWf (x.map f) := by
  cases x with
  | none => exact someWf_none
  | some a => exact someWf_some (hf a rfl)

/-! ### Nodes -/

theorem State.memWf.setNode (h : s.memWf) (d k : Nat) (n : Node) : (s.setNode d k n).memWf := h.setDrvSame d rfl

theorem State.memWf.setGraph (h : s.memWf) (d gi : Nat) (g : Graph) : (s.setGraph d gi g).memWf := h.setDrvSame d rfl

theorem State.memWf.refBrand (h : s.memWf) (b : W128) : (s.refBrand b).memWf := .ite (h.addRef ..) h

theorem State.memWf.dropSlots (h : s.memWf) (d k : Nat) : (s.dropSlots d k).memWf := (calm_dropSlots s d k).memWf h

theorem State.memWf.giveSlot (h : s.memWf) (d j : Nat) (b : W128) (k : Nat) : (s.giveSlot d j b k).memWf := .ite h ((h.setNode ..).refBrand _)

theorem State.memWf.handoffSlot (h : s.memWf) (d k j : Nat) : (s.handoffSlot d k j).memWf :=
  .ite h (((h.foldl (fun _ _ hu => hu.giveSlot ..) _).setNode ..).dropBrand _)

theorem State.memWf.handoff (h : s.memWf) (d k : Nat) : (s.handoff d k).memWf := h.foldl (fun _ _ hu => hu.handoffSlot ..) _

theorem State.memWf.bindSlot (h : s.memWf) (d k : Nat) (e : Nat × Nat) : (s.bindSlot d k e).memWf := ((h.dropBrand _).setNode ..).addRef ..

theorem State.memWf.makeReady (h : s.memWf) (d k : Nat) : (s.makeReady d k).memWf := (h.setDrvSame d (by rfl)).setNode ..

theorem State.memWf.gdecNode (h : s.memWf) (d k : Nat) : (s.gdecNode d k).memWf := .ite (.ite ((h.setNode ..).makeReady ..) (h.setNode ..)) h

theorem State.memWf.freeNodeFlock (h : s.memWf) (d k : Nat) : (s.freeNodeFlock d k).memWf := (calm_freeNodeFlock s d k).memWf h

theorem State.memWf.endNode (h : s.memWf) (d k : Nat) (st : NodeSt) : (s.endNode d k st).memWf := (calm_endNode s d k st).memWf h

theorem State.memWf.cancelFrom (h : s.memWf) (d n : Nat) (l : List Nat) : (s.cancelFrom d n l).memWf := by
  induction n generalizing s l with
  | zero => exact h
  | succ n ih =>
    cases l with
    | nil => exact h
    | cons k l => exact .ite (ih (h.endNode ..) _) (ih h _)

theorem State.memWf.finishNode (h : s.memWf) (d k : Nat) (st : NodeSt) : (s.finishNode d k st).memWf :=
  .ite (((h.handoff ..).endNode ..).foldl (fun _ _ hu => hu.gdecNode ..) _) ((h.endNode ..).cancelFrom ..)

theorem State.memWf.execInstanceComplete (h : s.memWf) : Leads (execInstanceComplete s) := by
  refine leads_next ?_
  split
  · exact h
  · next k killed rest _ =>
    have h1 (n : Node) := (h.setDrvSame s.ev.site (d := { s.drv s.ev.site with doneQ := rest }) rfl).setNode s.ev.site k n
    exact .ite ((h1 _).finishNode ..) (h1 _)

theorem State.memWf.flushBuf (h : s.memWf) (d idx : Nat) : (s.flushBuf d idx).memWf := h.foldl (fun _ _ hu => hu.pieceHome ..) _

theorem State.memWf.invBuf (h : s.memWf) (d idx : Nat) : (s.invBuf d idx).memWf :=
  h.foldl (fun u e hu => (below_pieceLeave u e.1 e.2).memWf hu) _

theorem State.memWf.applyPatch (h : s.memWf) (d : Nat) (g : Graph) (l : List (Nat × Nat × W64)) : (s.applyPatch d g l).memWf :=
  h.foldl (fun _ _ hu => hu.setDrv d (wf_cwrite _ _ (hu.2.2.2.2.2.1 d))) _

theorem State.memWf.patchNext (h : s.memWf) (d gi : Nat) : (s.patchNext d gi).memWf := by
  unfold State.patchNext
  split
  · exact h
  · split
    · exact .ite h ((h.applyPatch ..).setGraph ..)
    · exact h

theorem State.memWf.startNode (h : s.memWf) (d lid k : Nat) : (s.startNode d lid k).memWf := by
  have h2 (n : Node) (l : List (Nat × Nat)) : (l.foldl (fun u e => u.bindSlot d k e) (s.setNode d k n)).memWf :=
    (h.setNode ..).foldl (fun _ _ hu => hu.bindSlot ..) _
  exact .ite (h2 _ _) (.ite (((h2 _ _).makeReady ..).setNode ..) ((h2 _ _).makeReady ..))

theorem State.memWf.freePlanes (h : s.memWf) (d lid : Nat) : (s.freePlanes d lid).memWf := h

theorem State.memWf.startLaunch (h : s.memWf) (d gi : Nat) : (s.startLaunch d gi).memWf := by
  have h0 := h.patchNext d gi
  unfold State.startLaunch
  extract_lets s0
  split
  · exact h
  · split
    · exact h
    · have h1 := State.memWf.foldl (s := s0) h0 (f := fun u (e : Nat × Nat) => u.invBuf e.1 e.2) (fun _ _ hu => hu.invBuf ..)
      exact State.memWf.freePlanes (State.memWf.foldl (State.memWf.setGraph (h1 _) ..) (fun _ _ hu => hu.startNode ..) _) ..

theorem State.memWf.execLaunchStart (h : s.memWf) : Leads (execLaunchStart s) := by
  refine leads_next ?_
  split
  · exact .ite (h.startLaunch ..) h
  · exact h

/-! ### What firmware, the host and engines ask for -/

theorem State.memWf.askPlace (h : s.memWf) (p : W64) (n al : Nat) (nd : Need) : GoodWf (s.askPlace w p n al nd) :=
  good_check fun _ => good_check fun _ => h.placeOf ..

theorem State.memWf.askRead (h : s.memWf) (p : W64) (n al : Nat) : GoodWf (s.askRead w p n al) :=
  good_bind (h.askPlace ..) fun _ hq => hq.engineRead ..

theorem State.memWf.askWrite (h : s.memWf) (p : W64) (data : List Byte) : GoodSt (s.askWrite w p data) :=
  good_bind (h.askPlace ..) fun _ hq => hq.engineWrite ..

theorem State.memWf.askWord (h : s.memWf) (p : W64) : GoodWf (s.askWord w p) := good_map (h.askRead ..) fun _ hr => hr

theorem State.memWf.signal (h : s.memWf) (d : Nat) (r : LaunchReq) (status : Nat) : GoodSt (s.signal d r status) := by
  have hwrite : GoodSt (s.askWrite (askWho ((r.queue.map (·.1)).getD d) r.asid r.fold) r.signal (leBytes 8 (2 ^ 63 + status))) := h.askWrite ..
  refine good_ite (good_ok h) ?_
  dsimp only
  generalize s.askWrite (askWho ((r.queue.map (·.1)).getD d) r.asid r.fold) r.signal (leBytes 8 (2 ^ 63 + status)) = x at hwrite ⊢
  cases x with
  | ok u => exact good_ok (hwrite.of u rfl)
  | error e =>
    cases e with
    | stall k => exact good_error
    | fault f =>
      dsimp only
      split
      · exact good_ok ((h.markBad _).raiseRecord ..)
      · exact good_ok (h.markBad _)

theorem State.memWf.endLaunch (h : s.memWf) (d gi status : Nat) : GoodSt (s.endLaunch d gi status) := by
  unfold State.endLaunch
  split
  · exact good_error
  · split
    · exact good_error
    · exact good_map ((h.foldl (fun _ _ hu => hu.flushBuf ..) _).signal ..) fun _ hu =>
        ((hu.foldl (fun _ _ hv => hv.setNode ..) _).setGraph ..).patchNext ..

theorem State.memWf.execLaunchEnd (h : s.memWf) : Leads (execLaunchEnd s) := by
  refine leads_next ?_
  split
  · exact h
  · split
    · exact h
    · exact .ite (h.orWaited (h.endLaunch ..)) h

/-! ### Teams -/

theorem State.memWf.freeRange (h : s.memWf) (i : TeamId) : (s.freeRange i).memWf := .ite h (h.setDrvSame _ rfl)

theorem State.memWf.flip (h : s.memWf) (c : CoreId) : (s.flip c).memWf := by
  refine .ite h ?_
  split
  · exact h
  · exact h.setCore ..

theorem State.memWf.execPlaneLoadComplete (h : s.memWf) : Leads (execPlaneLoadComplete s) := by
  have h1 (k : CoreSt) : (if (s.core s.ev.core).shadow.st == .loading then s.setCore s.ev.core k else s).memWf := .ite (h.setCore ..) h
  exact leads_next ((h1 _).flip _)

theorem State.memWf.vacate (h : s.memWf) (c : CoreId) : (s.vacate c).memWf := by
  unfold State.vacate
  extract_lets s1 k
  have h1 : s1.memWf := .ite (h.passLease ..) h
  exact State.memWf.flip (h1.setCore ..) c

theorem State.memWf.giveBack (h : s.memWf) (site : Nat) (t : TeamSt) : (s.giveBack site t).memWf := by
  unfold State.giveBack
  dsimp only
  split
  · exact ((h.leaveFlock ..).dropHeld _).freeRange _
  · exact (h.leaveFlock ..).dropHeld _

theorem State.memWf.instanceDone (h : s.memWf) (t : TeamSt) (killed : Bool) : (s.instanceDone t killed).memWf := by
  unfold State.instanceDone
  split
  · exact .ite h (h.setDrvSame _ rfl)
  · exact h

theorem State.memWf.completeTeam (h : s.memWf) (c : CoreId) : GoodSt (s.completeTeam c) :=
  good_map (h.unlockDq c).l1Flush fun _ hu => ((hu.giveBack ..).instanceDone ..).vacate _

theorem State.memWf.leaveWait (h : s.memWf) (c : CoreId) (swap : Bool) : (s.leaveWait c swap).memWf := .ite h (h.setClusterSame _ _ rfl)

theorem State.memWf.freeSwapped (h : s.memWf) (a : Away) : (s.freeSwapped a).memWf := .ite h (h.setClusterSame _ _ rfl)

theorem State.memWf.drainTeam (h : s.memWf) (c : CoreId) : (s.drainTeam c).memWf := (h.drainCore c true).drainScat ..

theorem State.memWf.putAway (h : s.memWf) (c : CoreId) (a : Away) : (s.putAway c a).memWf := h.setDrvSame _ rfl

theorem State.memWf.raiseSusp (h : s.memWf) (d : Nat) (r : Record) (mayResume : Bool) : (s.raiseSusp d r mayResume).2.memWf :=
  (h.setDrvSame d (by rfl)).raiseRecord ..

theorem State.memWf.saveCtx (h : s.memWf) (c : CoreId) (t : TeamSt) (l : Leave) (conds : List WaitCond) : GoodSt (s.saveCtx c t l conds) := by
  unfold State.saveCtx
  split
  · exact good_ok h
  · exact h.ctxWrite ..

theorem State.memWf.leaveCore (h : s.memWf) (c : CoreId) (l : Leave) : GoodSt (s.leaveCore c l) := by
  refine good_map (good_bind ((h.leaveWait ..).saveCtx ..) fun u hu => (hu.unlockDq c).l1Flush) fun v hv => ?_
  refine State.memWf.vacate (State.memWf.putAway ?_ ..) c
  split
  · exact hv.raiseSusp ..
  · exact hv.raiseSusp ..
  · exact hv

theorem State.memWf.enterPending (h : s.memWf) (c : CoreId) (σ : Strand) (pc : Nat) (code : Code) (addr : W64) :
    (s.enterPending c σ pc code addr).memWf := .ite (h.enterException ..) (h.drainEntry _)

theorem State.memWf.execTeamSaveComplete (h : s.memWf) : Leads (execTeamSaveComplete s) := by
  refine leads_next ?_
  split
  · exact h
  · exact h.enterPending ..
  · exact .ite h (.ite ((h.drainTeam _).orWaited ((h.drainTeam _).leaveCore ..)) (h.drainTeam _))

theorem State.memWf.execTeamComplete (h : s.memWf) : Leads (execTeamComplete s) :=
  leads_next (.ite (h.flip _) (.ite (h.orWaited (State.memWf.leaveCore (h.setTeam ..) ..)) (h.orWaited (h.completeTeam _))))

theorem State.memWf.preempt (h : s.memWf) (c : CoreId) : (s.preempt c).memWf := by
  refine .ite h ?_
  split
  · exact h
  · exact .ite h h

theorem State.memWf.execPreemptRequest (h : s.memWf) : Leads (execPreemptRequest s) := leads_next (h.preempt _)

theorem State.memWf.execLongWaitSwap (h : s.memWf) : Leads (execLongWaitSwap s) := leads_next (.ite h h)

theorem State.memWf.dropAway (h : s.memWf) (d n : Nat) : (s.dropAway d n).memWf := h.setDrvSame d rfl

theorem State.memWf.setAway (h : s.memWf) (d n : Nat) (a : Away) : (s.setAway d n a).memWf := h.setDrvSame d rfl

theorem State.memWf.enterQueue (h : s.memWf) (i : TeamId) : (s.enterQueue i).memWf := .ite h ((h.setDrvSame _ (by rfl)).setNode ..)

theorem State.memWf.requeue (h : s.memWf) (d n : Nat) (a : Away) : (s.requeue d n a).memWf := by
  unfold State.requeue
  split
  · exact ((h.freeSwapped a).enterQueue _).setAway ..
  · exact h

theorem State.memWf.execTeamRequeue (h : s.memWf) : Leads (execTeamRequeue s) := by
  refine leads_next ?_
  split
  · exact h
  · exact .ite (.ite (h.dropAway ..) h) (.ite (h.requeue ..) h)

theorem State.memWf.endAway (h : s.memWf) (d n : Nat) (a : Away) (killed : Bool) : (s.endAway d n a killed).memWf :=
  .ite ((((h.freeSwapped a).giveBack ..).instanceDone ..).dropAway ..) ((((h.freeSwapped a).giveBack ..).instanceDone ..).setAway ..)

theorem State.memWf.killAway (h : s.memWf) (d n : Nat) (a : Away) : (s.killAway d n a).memWf :=
  .ite (h.endAway ..) (.ite ((h.instanceDone ..).dropAway ..) ((h.instanceDone ..).setAway ..))

theorem State.memWf.endResident (h : s.memWf) (c : CoreId) (killed : Bool) : (s.endResident c killed).memWf := by
  have h1 := ((h.leaveWait c false).giveBack c.site (s.team c)).instanceDone (s.team c) killed
  exact State.memWf.vacate (.ite h1 (h1.putAway ..)) c

theorem State.memWf.cancelPlane (h : s.memWf) (c : CoreId) : (s.cancelPlane c).memWf := by
  unfold State.cancelPlane
  dsimp only
  split
  · exact h.setCore ..
  · split
    · exact h.setCore ..
    · exact .ite ((h.setCore ..).freeRange _) (((h.setCore ..).enterQueue _).setDrvSame _ rfl)

end Machine

end Sys2Proof

/-! SUPPORT. Placement, dispatch, graphs and triggers keep the memories canonical. -/

namespace Sys2Proof

namespace Machine

variable {s u v : State} {w : Who} {ea : W64}

/-! ### Placement -/

theorem State.memWf.loadPlane (h : s.memWf) (c : CoreId) (n : Node) (t : TeamSt) (drv : Nat) (fresh : Bool) (pre : Option (Nat × Nat)) :
    (s.loadPlane c n t drv fresh pre).memWf := h.setCore ..

theorem State.memWf.zeroPage (h : s.memWf) (d f page : Nat) : (s.zeroPage d f page).memWf := by
  unfold State.zeroPage
  split
  · exact h
  · exact (h.dropPage _).zeroAt ..

theorem State.memWf.makeFlock (h : s.memWf) (d k site : Nat) : SomeWf (s.makeFlock d k site) := by
  refine someWf_ite (someWf_some h) ?_
  split
  · next r _ hr => exact someWf_some (((h.setDrvSame d (by exact gmem_takePages hr)).setFlock ..).setNode ..)
  · exact someWf_none

theorem State.memWf.newTeam (h : s.memWf) {d k inst lid : Nat} {cls : Cls} {site : Nat} {r : TeamSt × State}
    (hr : s.newTeam d k inst lid cls site = some r) : r.2.memWf := by
  unfold State.newTeam at hr
  dsimp only at hr
  split at hr
  · cases hr
  · obtain ⟨s1, h1, hr⟩ := Option.bind_eq_some_iff.1 hr
    obtain ⟨q, hq, rfl⟩ := Option.map_eq_some_iff.1 hr
    exact (((h.makeFlock ..).of s1 h1).setDrvSame d (by exact gmem_takePages hq)).zeroPage ..

theorem State.memWf.dispatchAway (h : s.memWf) (d k n : Nat) (a : Away) : SomeWf (s.dispatchAway d k n a) := by
  unfold State.dispatchAway
  split
  · exact someWf_none
  · refine someWf_mapAny fun c _ => State.memWf.setNode (State.memWf.loadPlane (State.memWf.dropAway ?_ ..) ..) ..
    split
    · exact h
    · exact h.ctxLoad ..

theorem State.memWf.dispatchNew (h : s.memWf) (d k : Nat) (var : Bool) : SomeWf (s.dispatchNew d k var) :=
  someWf_bindAny fun _ _ => someWf_mapAny fun _ hr => ((h.newTeam hr).setNode ..).loadPlane ..

theorem State.memWf.dispatchNext (h : s.memWf) (d k : Nat) (var : Bool) : SomeWf (s.dispatchNext d k var) := by
  unfold State.dispatchNext
  split
  · exact someWf_bindAny fun a _ => h.dispatchAway ..
  · exact h.dispatchNew ..

theorem State.memWf.chooseNode (h : s.memWf) (d k : Nat) : (s.chooseNode d k).memWf := by
  unfold State.chooseNode
  dsimp only
  split
  · exact (h.raiseRecord ..).finishNode ..
  · exact h.setNode ..

theorem State.memWf.chooseHeads (h : s.memWf) (d cls : Nat) (no : List Nat) : (s.chooseHeads d cls no).memWf :=
  h.foldl (fun _ _ hu => hu.chooseNode ..) _

theorem State.memWf.serveClass (h : s.memWf) (d cls n : Nat) (no : List Nat) : (s.serveClass d cls n no).memWf := by
  induction n generalizing s no with
  | zero => exact h
  | succ n ih =>
    have hu := h.chooseHeads d cls no
    unfold State.serveClass
    dsimp only
    split
    · exact hu
    · split
      · next hv => exact (hu.dispatchNext ..).of _ hv
      · exact ih hu _

theorem State.memWf.execNodeDispatch (h : s.memWf) : Leads (execNodeDispatch s) := leads_next (h.serveClass ..)

theorem State.memWf.ageNode (h : s.memWf) (d k age : Nat) : (s.ageNode d k age).memWf := by
  refine .ite h (.ite ?_ (h.setNode ..))
  split
  · exact (h.setNode ..).preempt _
  · exact h.setNode ..

theorem State.memWf.ageNodes (h : s.memWf) (d f : Nat) : (s.ageNodes d f).memWf := h.foldl (fun _ _ hu => hu.ageNode ..) _

theorem State.memWf.ageFold (h : s.memWf) (d f : Nat) : (s.ageFold d f).memWf := .ite h (h.setDrvSame d rfl)

theorem State.memWf.execAgeingInterval (h : s.memWf) : Leads (execAgeingInterval s) :=
  leads_next ((((h.ageNodes ..).ageFold ..).ageNodes ..).ageFold ..)

/-! ### Timed and gang launches -/

theorem State.memWf.preplaceOne (h : s.memWf) (d lid k : Nat) : SomeWf (s.preplaceOne d lid k) :=
  someWf_ite someWf_none (someWf_bindAny fun _ _ => someWf_bindAny fun _ _ => someWf_mapAny fun _ hr =>
    ((h.newTeam hr).setNode ..).loadPlane ..)

theorem State.memWf.preplaceNext (h : s.memWf) (d : Nat) (g : Graph) (lid : Nat) (f : Option Nat) : SomeWf (s.preplaceNext d g lid f) := by
  refine ⟨fun t ht => ?_⟩
  obtain ⟨k, _, hk⟩ := List.exists_of_findSome?_eq_some ht
  exact (someWf_ite (h.preplaceOne ..) someWf_none).of t hk

theorem State.memWf.setLaunch (h : s.memWf) (d gi : Nat) (l : Launch) : (s.setLaunch d gi l).memWf := by
  unfold State.setLaunch
  split
  · exact h.setGraph ..
  · exact h

theorem State.memWf.unplace (h : s.memWf) (d lid : Nat) : (s.unplace d lid).memWf := h.foldl (fun _ _ hu => hu.cancelPlane _) _

theorem State.memWf.rollBack (h : s.memWf) (d gi : Nat) (g : Graph) (l : Launch) : GoodSt (s.rollBack d gi g l) :=
  ((h.unplace ..).foldl (fun _ _ hu => hu.freeNodeFlock ..) _).endLaunch ..

theorem State.memWf.reserveStep (h : s.memWf) (d gi : Nat) (g : Graph) (l : Launch) : (s.reserveStep d gi g l).memWf := by
  unfold State.reserveStep
  split
  · exact h
  · refine .ite (h.orWaited (h.rollBack ..)) ?_
    split
    · next hv => exact (h.preplaceNext ..).of _ hv
    · exact .ite (h.setLaunch ..) h

theorem State.memWf.execTimedLaunchPreplace (h : s.memWf) : Leads (execTimedLaunchPreplace s) := by
  refine leads_next ?_
  split
  · exact h
  · refine .ite (.ite (h.reserveStep ..) h) ?_
    split
    · exact .ite ((h.preplaceNext ..).getD h) h
    · exact h

theorem State.memWf.fireLaunch (h : s.memWf) (d gi lid : Nat) : (s.fireLaunch d gi lid).memWf :=
  (h.startLaunch ..).foldl (fun _ _ hu => hu.flip _) _

theorem State.memWf.execTimedLaunchFire (h : s.memWf) : Leads (execTimedLaunchFire s) := by
  refine leads_next ?_
  split
  · split
    · exact .ite (h.fireLaunch ..) h
    · exact h
  · exact h

theorem State.memWf.execGangCommit (h : s.memWf) : Leads (execGangCommit s) := by
  refine leads_next ?_
  split
  · exact .ite (h.setLaunch ..) h
  · exact h

theorem State.memWf.execGangRollbackTimeout (h : s.memWf) : Leads (execGangRollbackTimeout s) := by
  refine leads_next ?_
  split
  · exact .ite (h.orWaited (h.rollBack ..)) h
  · exact h

theorem State.memWf.execGangStart (h : s.memWf) : Leads (execGangStart s) := by
  refine leads_next ?_
  split
  · split
    · exact .ite (h.fireLaunch ..) h
    · exact h
  · exact h

/-! ### Graphs -/

theorem State.memWf.putData (h : s.memWf) (d page : Nat) (data : List Byte) : GoodSt (s.putData d page data) := by
  have hstore : GoodSt (s.doStore (drvWho d) (.mem (page * 65536) .home) data 0) := h.doStore ..
  refine good_ite (good_ok h) ?_
  split
  · next hu => exact good_ok (hstore.of _ hu)
  · exact good_error
  · exact good_error

theorem State.memWf.makeBufs (h : s.memWf) (d gid : Nat) (b : List Byte) (hd : Header) (pages l : List Nat) (i : Nat) :
    GoodSt (s.makeBufs d gid b hd pages l i) := by
  induction l generalizing s i with
  | nil => exact good_ok h
  | cons r l ih =>
    unfold State.makeBufs
    extract_lets o len f got
    have hgot : ∀ q, got = some q → q.2.memWf := by
      intro q hq
      unfold got at hq
      split at hq
      · split at hq
        · cases hq
          exact h
        · cases hq
      · obtain ⟨x, hx, rfl⟩ := Option.map_eq_some_iff.1 hq
        exact h.setDrvSame d (by exact gmem_takePages hx)
    clear_value got
    split
    · exact good_error
    · next p u => exact good_bind (State.memWf.putData (State.memWf.setBuf (s := u) (hgot (p, u) rfl) ..) ..) fun x hx => ih hx _

theorem State.memWf.upload (h : s.memWf) (d : Nat) (b : List Byte) (pages : List Nat) : GoodSt (s.upload d b pages) := by
  refine good_ite good_error (good_ite good_error ?_)
  split
  · exact good_error
  · refine good_bind (h.makeBufs ..) fun u hu => ?_
    extract_lets u1 w u2
    have h1 : u1.memWf := hu.foldl (fun _ _ hv => hv.setNode ..) _
    have hw : Memory.wf w.gmem = true := h1.2.2.2.2.2.1 d
    exact good_ok (State.memWf.setGraph (h1.setDrv d (wf_cwrite _ _ hw)) ..)
  · exact good_error

theorem State.memWf.askAgain (h : s.memWf) (i : Instr) : (s.askAgain i).memWf := h.putOff _

theorem State.memWf.setReply (h : s.memWf) (r : Reply) : ({ s with reply := r } : State).memWf := h

theorem State.memWf.execGraphUpload (h : s.memWf) : Leads (execGraphUpload s) := by
  refine leads_next ?_
  split
  · next hu => exact (h.upload ..).of _ hu
  · exact h
  · exact (h.waited _).askAgain _

theorem State.memWf.unloadBuf (h : s.memWf) (d r : Nat) : (s.unloadBuf d r).memWf := (h.setBuf ..).finishFree ..

theorem State.memWf.endWindows (h : s.memWf) (buf : Nat) : (s.endWindows buf).memWf := (calm_endWindows s buf).memWf h

theorem State.memWf.endGraphBufs (h : s.memWf) (d : Nat) (g : Graph) : (s.endGraphBufs d g).memWf :=
  h.foldl (fun _ _ hu => .ite (hu.freeBuf ..) (hu.endWindows _)) _

theorem gmem_foldl_givePages (l : List WinTable) (d : Drover) : (l.foldl (fun x t => x.givePages t.fold t.page 1) d).gmem = d.gmem := by
  induction l generalizing d with
  | nil => rfl
  | cons t l ih => exact ih _

theorem State.memWf.returnTables (h : s.memWf) (d : Nat) (g : Graph) : GoodSt (s.returnTables d g) := by
  refine good_map (wf_foldlBind (fun u t hu => ?_) _ (good_ok h)) fun v hv => hv.setDrvSame d (by rw [gmem_foldl_givePages])
  have hwrite : GoodSt (u.cohWrite (winWho d t.fold t.asid).walker .home t.at_ (leBytes 8 0) 0) := hu.cohWrite ..
  split
  · next hw => exact good_ok (hwrite.of _ hw)
  · exact good_error
  · exact good_ok hu

theorem State.memWf.unloadGraph (h : s.memWf) (d gi : Nat) (g : Graph) : (s.unloadGraph d gi g).memWf := by
  have h1 := (h.foldl (f := fun u k => u.dropSlots d k) (fun _ _ hu => hu.dropSlots ..) g.nodes).foldl
    (f := fun u r => u.unloadBuf d r) (fun _ _ hu => hu.unloadBuf ..) g.bufs
  exact h1.setDrv d (wf_cclear _ _ (h1.2.2.2.2.2.1 d))

theorem State.memWf.execGraphUnload (h : s.memWf) : Leads (execGraphUnload s) := by
  refine leads_next ?_
  split
  · exact h
  · next g _ =>
    have h1 := h.endGraphBufs s.ev.site g
    refine .ite (h.askAgain _) (.ite (h1.askAgain _) ?_)
    split
    · exact (h1.waited _).askAgain _
    · next hu => exact ((h1.returnTables ..).of _ hu).unloadGraph ..

/-! ### Launch requests -/

theorem State.memWf.readEntries (h : s.memWf) (nodes : Nat) (p : W64) (n : Nat) : GoodWf (s.readEntries w nodes p n) := by
  induction n generalizing s p with
  | zero => exact good_ok h
  | succ n ih =>
    exact good_bind (h.askWord _) fun a ha => good_bind (ha.askWord _) fun b hb => good_check fun _ => good_bind (ih hb _) fun r hr => good_ok hr

theorem State.memWf.readPatch (h : s.memWf) (nodes : Nat) (p : W64) : GoodWf (s.readPatch w nodes p) :=
  good_bind (h.askWord _) fun _ hr => good_check fun _ => hr.readEntries ..

theorem State.memWf.accept (h : s.memWf) (d gi : Nat) (g : Graph) (req : LaunchReq) (l : List (Nat × Nat × W64)) :
    (s.accept d gi g req l).2.memWf := ((h.setDrvSame d (by rfl)).setGraph ..).patchNext ..

theorem State.memWf.triggerNow (h : s.memWf) (at_ : Nat) (req : LaunchReq) : GoodWf (s.triggerNow at_ req) := by
  unfold State.triggerNow
  split
  · exact good_ok h
  · split
    · exact good_ok h
    · next g _ =>
      have hread : GoodWf (if req.patch == 0 then Except.ok ([], s) else s.readPatch (askWho at_ req.asid req.fold) g.nodes.length req.patch) :=
        good_ite (good_ok h) (h.readPatch ..)
      dsimp only
      generalize (if req.patch == 0 then Except.ok ([], s) else s.readPatch (askWho at_ req.asid req.fold) g.nodes.length req.patch) = x at hread ⊢
      cases x with
      | ok r => exact good_ite (good_ok (hread.of r rfl)) (good_ok (State.memWf.accept (hread.of r rfl) ..))
      | error e =>
        cases e with
        | stall k => exact good_error
        | fault f => exact good_ok (h.markBad _)

theorem State.memWf.trigger (h : s.memWf) (at_ : Nat) (req : LaunchReq) : GoodWf (s.trigger at_ req) := good_ite good_error (h.triggerNow ..)

theorem wf_signalled {x : Except Hold (Except Nat Nat × State)} (hx : GoodWf x) (at_ : Nat) (req : LaunchReq) : GoodWf (signalled at_ req x) := by
  unfold signalled
  split
  · exact good_error
  · exact good_ok (hx.of _ rfl)
  · next u => exact good_map (State.memWf.signal (s := u) (hx.of _ rfl) ..) fun _ hv => hv

theorem State.memWf.triggerSignal (h : s.memWf) (at_ : Nat) (req : LaunchReq) : GoodWf (s.triggerSignal at_ req) :=
  wf_signalled (h.trigger ..) ..

theorem State.memWf.keepAsk (h : s.memWf) (at_ : Nat) (req : LaunchReq) : (s.keepAsk at_ req).memWf :=
  .ite (h.setDrvSame _ rfl) ((h.setDrvSame _ (by rfl)).putOff _)

theorem State.memWf.triggerAgain (h : s.memWf) (d gid : Nat) : (s.triggerAgain d gid).memWf := by
  unfold State.triggerAgain
  split
  · exact h
  · split
    · exact (h.waited _).putOff _
    · next hr =>
      have hr := (wf_signalled (h.triggerNow ..) ..).of _ hr
      exact .ite (State.memWf.putOff (State.memWf.setDrvSame hr d (by rfl)) _) (State.memWf.setDrvSame hr d rfl)

theorem State.memWf.execLaunchTrigger (h : s.memWf) : Leads (execLaunchTrigger s) := by
  refine leads_next ?_
  split
  · next hr => exact (h.triggerSignal ..).of _ hr
  · exact (h.waited _).keepAsk ..

end Machine

end Sys2Proof

/-! SUPPORT. The steps of queues and strands and the words of the firmware keep the memories canonical. -/

namespace Sys2Proof

namespace Machine

variable {s u v : State} {w : Who} {ea : W64}

/-! ### Queues and packets -/

theorem State.memWf.setQcb (h : s.memWf) (d q : Nat) (b : Qcb) : (s.setQcb d q b).memWf := h.setDrvSame d rfl

theorem State.memWf.setSlot (h : s.memWf) (d k : Nat) (x : HwSlot) : (s.setSlot d k x).memWf := h.setDrvSame d rfl

theorem State.memWf.setLive (h : s.memWf) (d q : Nat) (b : Qcb) : (s.setLive d q b).memWf := .ite (h.setSlot ..) (h.setQcb ..)

theorem State.memWf.pktStore (h : s.memWf) (d q : Nat) (b : Qcb) (l : List W32) : GoodSt (s.pktStore d q b l) := by
  unfold State.pktStore
  have hwrite : GoodSt (s.askWrite (s.queueWho d b) (pw64 l 6) (leBytes 8 (pw64 l 2).toNat)) := h.askWrite ..
  dsimp only
  split
  · next hu => exact good_ok (hwrite.of _ hu)
  · exact good_ok ((h.markBad _).raiseRecord ..)
  · exact good_error

theorem State.memWf.runPacket (h : s.memWf) (d q : Nat) (b : Qcb) (l : List W32) : GoodWf (s.runPacket d q b l) := by
  refine good_ite (good_map (h.triggerSignal ..) fun _ hr => hr) (good_ite ?_ (good_ite ?_ (good_ok h)))
  · exact good_map (h.pktStore ..) fun _ hu => hu
  · exact good_map (h.signal ..) fun _ hu => hu

theorem State.memWf.consumeAs (h : s.memWf) (w : Who) (b : Qcb) : Good (fun r => r.2.1.memWf) (s.consumeAs w b) := by
  have hwrite : GoodSt (s.askWrite w (packetAddr b) (leBytes 4 0)) := h.askWrite ..
  unfold State.consumeAs
  split
  · exact good_error
  · exact good_ok (h.markBad _)
  · next u hu =>
    have hu := hwrite.of _ hu
    have hnext : GoodSt (u.askWrite w (b.hdr + 8) (leBytes 8 (b.rdidx + 1).toNat)) := hu.askWrite ..
    dsimp only
    split
    · exact good_error
    · exact good_ok (hu.markBad _)
    · next hv => exact good_ok (hnext.of _ hv)

theorem State.memWf.consume (h : s.memWf) (d : Nat) (b : Qcb) : Good (fun r => r.2.1.memWf) (s.consume d b) := h.consumeAs ..

theorem State.memWf.ringFault (h : s.memWf) (d k : Nat) (f : Flt) : (s.ringFault d k f).memWf := (h.raiseRecord ..).setSlot ..

theorem State.memWf.consumeSlot (h : s.memWf) (d k : Nat) (b : Qcb) : GoodSt (s.consumeSlot d k b) := by
  refine good_map (h.consume d b) fun r hr => ?_
  have hr : r.2.1.memWf := hr
  dsimp only
  split
  · exact hr.setSlot ..
  · exact (hr.setSlot ..).ringFault ..

theorem State.memWf.servePacket (h : s.memWf) (d k : Nat) (l : List W32) : GoodSt (s.servePacket d k l) := by
  refine good_ite ((h.raiseRecord ..).consumeSlot ..) (good_ite (good_ok (h.setSlot ..)) ?_)
  exact good_bind (h.runPacket ..) fun r hr => State.memWf.consumeSlot hr ..

theorem State.memWf.examine (h : s.memWf) (d k : Nat) (kinds : Nat → Bool) : (s.examine d k kinds).memWf := by
  refine .ite h ?_
  have hread : GoodWf (s.askRead (s.queueWho d (s.slot d k).copy) (packetAddr (s.slot d k).copy) 4 4) := h.askRead ..
  dsimp only
  split
  · exact h.waited _
  · exact (h.markBad _).ringFault ..
  · next u hu =>
    have hu : u.memWf := hread.of _ hu
    refine .ite (hu.setSlot ..) (.ite h ?_)
    have hrest : GoodWf (u.askRead (s.queueWho d (s.slot d k).copy) (packetAddr (s.slot d k).copy + 4) 60 4) := hu.askRead ..
    split
    · exact h.waited _
    · exact (hu.markBad _).ringFault ..
    · next x hx => exact h.orWaited (State.memWf.servePacket (s := x) (hrest.of _ hx) ..)

theorem State.memWf.barrierMet (h : s.memWf) (l : List W64) (j m : Nat) : GoodWf (s.barrierMet w l j m) := by
  induction l generalizing s j m with
  | nil => exact good_ok h
  | cons a l ih => exact good_ite (ih h _ _) (good_bind (h.askWord _) fun r hr => ih hr _ _)

theorem State.memWf.barrierSignal (h : s.memWf) (d k : Nat) (p : W64) : GoodSt (s.barrierSignal d k p) := h.signal ..

theorem State.memWf.execBarrierAndRelease (h : s.memWf) : Leads (execBarrierAndRelease s) := by
  refine leads_next ?_
  split
  · exact h
  · next l p _ =>
    refine .ite h ?_
    have hmet : GoodWf (s.barrierMet (s.queueWho s.ev.site (s.slot s.ev.site s.ev.n).copy) l 0 (fieldW (s.slot s.ev.site s.ev.n).copy.part 4 1)) :=
      h.barrierMet ..
    dsimp only
    split
    · exact h.waited _
    · exact ((h.markBad _).setSlot ..).ringFault ..
    · next u hu =>
      have hu : u.memWf := hmet.of _ hu
      exact .ite (h.orWaited (good_bind (hu.barrierSignal ..) fun x hx => hx.consumeSlot ..)) (hu.setSlot ..)

theorem State.memWf.execFaultRecordEnqueue (h : s.memWf) : Leads (execFaultRecordEnqueue s) := by
  refine leads_next ?_
  split
  · exact h
  · exact .ite h (.ite ((h.setDrvSame _ (by rfl)).wake ..) (h.setDrvSame _ rfl))

/-! ### The steps of a strand -/

theorem State.memWf.turnOf (h : s.memWf) (c : CoreId) (σ : Strand) : (s.turnOf c σ).memWf := h

theorem State.memWf.atWord (h : s.memWf) (n : Nat) : (s.atWord n).memWf := h.setSt _

theorem State.memWf.wordOf (h : s.memWf) {c : CoreId} {σ : Strand} {r : Instr × State} (hr : s.wordOf c σ = some r) : r.2.memWf := by
  unfold State.wordOf at hr
  split at hr
  · split at hr
    · obtain ⟨i, _, rfl⟩ := Option.map_eq_some_iff.1 hr
      exact (h.turnOf c σ).atWord _
    · cases hr
  · cases hr

theorem State.memWf.execLoopEnd (h : s.memWf) : Leads (execLoopEnd s) := by
  refine leads_next (.ite ?_ h)
  split
  · exact (h.turnOf ..).passLoopEnd _
  · exact h

theorem State.memWf.execSlipRelease (h : s.memWf) : Leads (execSlipRelease s) := by
  refine leads_next (.ite ?_ h)
  split
  · exact (h.turnOf ..).passLoopEnd _
  · split
    · exact .ite (h.setAgenda _) h
    · exact h

theorem State.memWf.execWaittExpire (h : s.memWf) : Leads (execWaittExpire s) := by
  unfold Machine.execWaittExpire
  split
  · next hu => exact leads_ite (State.memWf.execWaitt (h.wordOf hu) ..) (leads_next h)
  · exact leads_next h

theorem State.memWf.execPolledWaitRetry (h : s.memWf) : Leads (execPolledWaitRetry s) := by
  unfold Machine.execPolledWaitRetry
  split
  · next hu => exact leads_ite (State.memWf.execLdf (h.wordOf hu) ..) (leads_next h)
  · next hu => exact leads_ite (State.memWf.execStf (h.wordOf hu) ..) (leads_next h)
  · exact leads_next h

/-! ### Words of the firmware -/

theorem State.memWf.fw1 (h : s.memWf) {f : State → W64 → Except Nat (W64 × State)} (hf : ∀ u x, State.memWf u → GoodWf (f u x)) (d : Bool)
    (r a : BitVec 6) : GoodDone (s.fw1 d r a f) := by
  refine good_check fun _ => good_check fun _ => good_bind (h.src a) fun x hx => ?_
  have hval : GoodWf (f x.2 x.1) := hf _ _ hx
  split
  · next hq => exact done_ok (State.memWf.put (hval.of _ hq) ..)
  · exact done_ok (State.memWf.put hx ..)

theorem State.memWf.fw2 (h : s.memWf) {f : State → W64 → W64 → Except Nat (W64 × State)} (hf : ∀ u x y, State.memWf u → GoodWf (f u x y))
    (d : Bool) (r a b : BitVec 6) : GoodDone (s.fw2 d r a b f) := by
  refine good_check fun _ => good_check fun _ => good_bind (h.src a) fun x hx => good_bind (hx.src b) fun y hy => ?_
  have hval : GoodWf (f y.2 x.1 y.1) := hf _ _ _ hy
  split
  · next hq => exact done_ok (State.memWf.put (hval.of _ hq) ..)
  · exact done_ok (State.memWf.put hy ..)

theorem State.memWf.fwPlace (h : s.memWf) (p : W64) (n : Nat) (nd : Need) : GoodWf (s.fwPlace p n nd) :=
  good_check fun _ => good_check fun _ => good_check fun _ => good_bind (h.placeOf ..) fun _ hq => good_check fun _ => good_ok hq

theorem State.memWf.freeFrame (h : s.memWf) : s.freeFrame.2.memWf := h.freshWord

theorem State.memWf.fetchPacket (h : s.memWf) (q : Nat) (b : Qcb) (pl : Place) (tgt : W64) : GoodWf (s.fetchPacket q b pl tgt) := by
  refine good_bind h.acquired fun u hu => ?_
  have hread : GoodWf (u.askRead (s.queueWho s.myDrv b) (packetAddr b) 64 64) := hu.askRead ..
  split
  · exact good_error
  · exact good_ok ((hu.markBad _).raiseRecord ..).freeFrame
  · next bytes v hv =>
    have hv : v.memWf := hread.of _ hv
    refine good_bind (hv.doStore ..) fun x hx => ?_
    have hcons := hx.consume s.myDrv b
    split
    · exact good_error
    · next hy => exact good_ok (State.memWf.freeFrame (State.memWf.raiseRecord (State.memWf.setQcb (hcons.of _ hy) ..) ..))
    · next hy => exact good_ok (State.memWf.setQcb (hcons.of _ hy) ..)

theorem State.memWf.execRfetch (h : s.memWf) (d : Bool) (r a b : BitVec 6) : Leads (execRfetch d r a b s) := by
  refine h.run fun s h => good_check fun _ => good_check fun _ => good_bind (h.src a) fun x hx => good_bind (hx.src b) fun y hy => ?_
  refine good_bind (hy.fwPlace ..) fun p hp => good_ite (done_ok (hy.put ..)) (good_ite (done_ok (hy.put ..)) ?_)
  have hread := hp.askRead (w := s.queueWho s.myDrv (y.2.liveQ s.myDrv x.1.toNat)) (packetAddr (y.2.liveQ s.myDrv x.1.toNat)) 4 4
  extract_lets w
  split
  · exact good_error
  · exact done_ok (State.memWf.put (State.memWf.freeFrame ((hp.markBad _).raiseRecord ..)) ..)
  · next u hu =>
    have hu : u.memWf := hread.of _ hu
    exact good_ite (done_ok (hy.put ..)) (good_bind (hu.fetchPacket ..) fun v hv => done_ok (hv.put ..))

theorem State.memWf.dispatchImage (h : s.memWf) (q : Nat) (b : Qcb) (l : List W32) : Good (fun e => GoodWf e) (s.dispatchImage q b l) := by
  refine good_ite ?_ (good_ite ?_ ?_)
  · have hmet : GoodWf (s.barrierMet (s.queueWho s.myDrv b) (barrierAddrs l) 0 0) := h.barrierMet ..
    split
    · exact good_error
    · exact good_ok (good_ok ((h.markBad _).raiseRecord ..).freeFrame)
    · next m u hu =>
      refine good_ite good_error ?_
      have hsig := State.memWf.signal (s := u) (hmet.of _ hu) s.myDrv (s.pktSignal s.myDrv q b l) 0
      split
      · next hv => exact good_ok (good_ok (hsig.of _ hv))
      · exact good_error
  · have htrig := h.trigger s.myDrv (s.pktReq s.myDrv q b l)
    split
    · exact good_error
    · next o u hu =>
      have hwf : u.memWf := htrig.of _ hu
      split
      · exact good_ok good_error
      · split
        · exact good_ok (good_ok (hwf.setLive ..))
        · next st _ =>
          have hsig := hwf.signal s.myDrv (s.pktReq s.myDrv q b l) st
          split
          · next hx => exact good_ok (good_ok (State.memWf.setLive (hsig.of _ hx) ..))
          · exact good_error
  · have hrun := h.runPacket s.myDrv q b l
    split
    · next hr => exact good_ok (good_ok (hrun.of _ hr))
    · exact good_error

theorem State.memWf.execDisp (h : s.memWf) (d : Bool) (r a b : BitVec 6) : Leads (execDisp d r a b s) := by
  refine h.run fun s h => good_check fun _ => good_check fun _ => good_bind (h.src a) fun x hx => good_bind (hx.src b) fun y hy => ?_
  refine good_bind (hy.fwPlace ..) fun p hp => good_bind (hp.doLoad ..) fun v hv => ?_
  refine good_ite (done_ok (hy.put ..)) (good_ite (done_ok (hy.put ..)) ?_)
  refine good_bind (State.memWf.released hv) fun v1 h1 => good_bind (h1.dispatchImage ..) fun e he => ?_
  split
  · next g => exact done_ok (State.memWf.put (he.of g rfl) ..)
  · exact done_ok (hy.put ..)

theorem State.memWf.execQload (h : s.memWf) (d : Bool) (r a b : BitVec 6) : Leads (execQload d r a b s) :=
  h.run fun _ h => h.fw2 (fun _ _ _ hu => good_ite good_error (good_ite good_error (good_ite good_error (good_ok (hu.setSlot ..))))) ..

theorem State.memWf.mapSlot (h : s.memWf) (d k : Nat) : (s.mapSlot d k).memWf := ((h.setDrvSame d (by rfl)).setQcb ..).setSlot ..

theorem State.memWf.unmapSlot (h : s.memWf) (d k : Nat) : (s.unmapSlot d k).memWf := h.setSlot ..

theorem State.memWf.execQmap (h : s.memWf) (d : Bool) (r a : BitVec 6) (f : BitVec 3) : Leads (execQmap d r a f s) :=
  h.run fun _ h => h.fw1 (fun _ _ hu => good_ite good_error (good_ok (State.memWf.ite (hu.mapSlot ..) (hu.unmapSlot ..)))) ..

theorem State.memWf.behind (h : s.memWf) (d : Nat) (b : Qcb) : GoodWf (s.behind d b) := (good_behind d b).wf h

theorem State.memWf.saveSlot (h : s.memWf) (d k : Nat) (part : W64) : (s.saveSlot d k part).memWf := (calm_saveSlot s d k part).memWf h

theorem State.memWf.execQsave (h : s.memWf) (d : Bool) (r a : BitVec 6) : Leads (execQsave d r a s) := by
  refine h.run fun s h => good_check fun _ => good_check fun _ => good_bind (h.src a) fun x hx => good_ite (done_ok (hx.put ..)) ?_
  exact good_bind (hx.behind ..) fun q hq => done_ok (State.memWf.put (.ite ((hq.saveSlot ..).raisePend ..) (hq.saveSlot ..)) ..)

theorem State.memWf.execPrio (h : s.memWf) (d : Bool) (r a b : BitVec 6) (f : BitVec 3) : Leads (execPrio d r a b f s) :=
  h.run fun _ h => h.fw2 (fun _ _ _ hu => good_ite good_error (good_ite good_error (good_ok (State.memWf.setLive (.ite (hu.setQcb ..) hu) ..)))) ..

theorem State.memWf.setSwait (h : s.memWf) (x : Option Swait) : (s.setSwait x).memWf := h.setCore ..

theorem State.memWf.execSwait (h : s.memWf) (d : Bool) (r a b : BitVec 6) : Leads (execSwait d r a b s) := by
  refine h.run fun s h => good_check fun _ => good_check fun _ => good_bind (h.src a) fun x hx => good_bind (hx.src b) fun y hy => ?_
  split
  · exact good_ite (done_ok ((hy.setSwait _).put ..)) good_error
  · exact good_ite (done_ok (hy.put ..)) (done_ok (h.setSwait _))

theorem State.memWf.execSwaitTimeout (h : s.memWf) : Leads (execSwaitTimeout s) := by
  unfold Machine.execSwaitTimeout
  split
  · next hu _ => exact leads_ite (State.memWf.execSwait (h.wordOf hu) ..) (leads_next h)
  · exact leads_next h

theorem State.memWf.execGdec (h : s.memWf) (d : Bool) (r a : BitVec 6) : Leads (execGdec d r a s) := by
  refine h.run fun _ h => h.fw1 (fun u _ hu => ?_) ..
  split
  · exact good_error
  · exact good_ite good_error (good_ok (hu.gdecNode ..))

theorem State.memWf.execGlnch (h : s.memWf) (d : Bool) (r a b : BitVec 6) : Leads (execGlnch d r a b s) := by
  refine h.run fun s h => good_check fun _ => good_check fun _ => good_bind (h.src a) fun x hx => good_bind (hx.src b) fun y hy => ?_
  refine good_check fun _ => good_bind hy.released fun v hv => ?_
  have htrig := hv.trigger s.myDrv { LaunchReq.zero with gid := x.1.toNat, patch := y.1, asid := s.mgmt.fwasid }
  split
  · exact good_error
  · next hu => exact done_ok (State.memWf.put (htrig.of _ hu) ..)
  · exact done_ok (hy.put ..)

theorem State.memWf.execBfxm (h : s.memWf) (d : Bool) (r a : BitVec 6) (f : BitVec 3) : Leads (execBfxm d r a f s) := by
  refine h.run fun _ h => h.fw1 (fun u _ hu => ?_) ..
  split
  · exact good_error
  · exact good_ok (State.memWf.ite (hu.flushBuf ..) (hu.invBuf ..))

theorem State.memWf.made (h : s.memWf) {d : Nat} {x : Drover} (hx : x.gmem = (s.drv d).gmem) (i : Nat) (b : Buf) (k : Nat) (n : Node) :
    (((s.setDrv d x).setBuf d i b).setNode d k n).memWf := ((h.setDrvSame d hx).setBuf ..).setNode ..

theorem State.memWf.newBuf (h : s.memWf) {d k j len fold : Nat} {rights : BitVec 6} {q : W64 × State}
    (hq : s.newBuf d k j len fold rights = some q) : q.2.memWf := by
  unfold State.newBuf at hq
  split at hq
  · next hp =>
    cases hq
    exact h.made (gmem_takePages hp :) ..
  · cases hq

theorem State.memWf.freeFail (h : s.memWf) : s.freeFail.2.memWf := h.freshWord

theorem State.memWf.brnew (h : s.memWf) (len : Nat) (spec : W64) : GoodWf (s.brnew len spec) := by
  refine good_ite good_error (good_ite good_error ?_)
  split
  · next hq => exact good_ok (h.newBuf hq)
  · exact good_error

theorem State.memWf.execBrnew (h : s.memWf) (d : Bool) (r a b : BitVec 6) : Leads (execBrnew d r a b s) := by
  refine h.run fun s h => good_check fun _ => good_check fun _ => good_bind (h.src a) fun x hx => good_bind (hx.src b) fun y hy => ?_
  refine good_ite (done_ok (hy.freeFail.put ..)) ?_
  have hnew := hy.brnew x.1.toNat y.1
  split
  · next hq => exact done_ok (State.memWf.put (hnew.of _ hq) ..)
  · exact done_ok (hy.put ..)

theorem State.memWf.execBrfree (h : s.memWf) (d : Bool) (r a : BitVec 6) : Leads (execBrfree d r a s) := by
  refine h.run fun _ h => h.fw1 (fun u _ hu => ?_) ..
  split
  · exact good_error
  · exact good_ite good_error (good_ok (hu.freeBuf ..))

theorem State.memWf.flockNew (h : s.memWf) (site : W64) (f : Nat) : GoodWf (s.flockNew site f) := by
  refine good_ite good_error ?_
  split
  · exact good_ok (h.setFlock ..)
  · exact good_error

theorem State.memWf.flockFree (h : s.memWf) (id : W64) : GoodWf (s.flockFree id) := by
  refine good_ite good_error ?_
  split
  · exact good_error
  · exact good_ite good_error (good_ok (h.freeFlock ..))

theorem State.memWf.execFlknew (h : s.memWf) (d : Bool) (r a b : BitVec 6) (f : BitVec 3) : Leads (execFlknew d r a b f s) :=
  h.run fun _ h => h.fw2 (fun _ _ _ hu => good_ite (hu.flockNew ..) (hu.flockFree _)) ..

theorem State.memWf.execFltpop (h : s.memWf) (d : Bool) (r a : BitVec 6) : Leads (execFltpop d r a s) := by
  refine h.run fun s h => good_check fun _ => good_check fun _ => good_bind (h.src a) fun x hx => good_bind (hx.fwPlace ..) fun p hp => ?_
  extract_lets v
  split
  · exact done_ok (hx.put ..)
  · exact good_bind (hp.doStore ..) fun u hu => done_ok ((hu.setDrvSame _ (by rfl)).put ..)

theorem State.memWf.endSusp (h : s.memWf) (d e : Nat) : (s.endSusp d e).memWf := h.setDrvSame d rfl

theorem State.memWf.onCopy (h : s.memWf) (d n : Nat) (f : TeamSt → TeamSt) : (s.onCopy d n f).memWf := (h.setCores _).setDrvSame d rfl

theorem State.memWf.execResume (h : s.memWf) (d : Bool) (r a : BitVec 6) : Leads (execResume d r a s) := by
  refine h.run fun _ h => h.fw1 (fun u _ hu => ?_) ..
  extract_lets d
  split
  · exact good_error
  · refine good_ite good_error (good_ite (good_ok ((hu.endSusp ..).onCopy ..)) ?_)
    split
    · exact good_ite (good_ok ((hu.endSusp ..).endAway ..)) (good_ite good_error (good_ok ((hu.endSusp ..).requeue ..)))
    · exact good_ok (hu.endSusp ..)

theorem State.memWf.execKill (h : s.memWf) (d : Bool) (r a : BitVec 6) : Leads (execKill d r a s) := by
  refine h.run fun _ h => h.fw1 (fun u _ hu => ?_) ..
  extract_lets d
  split
  · exact good_error
  · refine good_ite (good_ok ((hu.endSusp ..).onCopy ..)) ?_
    split
    · exact good_ok ((hu.endSusp ..).killAway ..)
    · exact good_ok (hu.endSusp ..)

end Machine

end Sys2Proof

/-! SUPPORT. The steps of homes, extents and links keep the memories canonical. -/

namespace Sys2Proof

namespace Machine

variable {s u v : State} {w : Who} {ea : W64}

/-! ### Homes and slices -/

theorem State.memWf.settledOr (h : s.memWf) {r : Iss State} (hr : GoodSt r) : (s.settled? r).memWf := by
  cases r with
  | ok u => exact hr.of u rfl
  | error e =>
    cases e with
    | stall k => exact h.waited k
    | fault f => exact h.markBad _

theorem State.memWf.execPageWalk (h : s.memWf) : Leads (execPageWalk s) :=
  leads_next (.ite h (h.settledOr (good_map ((good_walk ..).wf h) fun _ hr => hr)))

theorem State.memWf.execL2Fill (h : s.memWf) : Leads (execL2Fill s) :=
  leads_next (.ite h (h.foldl (fun _ _ hu => .ite (hu.settledOr (good_map (hu.l2Read ..) fun _ hr => hr)) hu) _))

theorem State.memWf.l2Own (h : s.memWf) (site p : Nat) (full : Bool) : GoodSt (s.l2Own w site p full ea) := ⟨fun _ hr => (below_l2Own hr).memWf h⟩

theorem State.memWf.execDirectoryRequest (h : s.memWf) : Leads (execDirectoryRequest s) := by
  refine leads_next (h.settledOr (good_ite (good_bind (h.reachHome _) fun u hu => ?_) (good_ite (h.l2Own ..) ?_)))
  · exact good_map good_any fun _ _ => hu.recallInv _
  · exact good_map (h.l2Read ..) fun _ hr => hr

theorem State.memWf.execSliceAtomic (h : s.memWf) : Leads (execSliceAtomic s) :=
  leads_next (h.settledOr (good_ite (good_ok h) (good_map (h.doAtomic ..) fun _ hr => State.memWf.setReply hr _)))

theorem State.memWf.execHomeLineWrite (h : s.memWf) : Leads (execHomeLineWrite s) :=
  leads_next (h.settledOr (good_ite (good_ok h) (h.cohWrite ..)))

theorem State.memWf.execHomeLineRead (h : s.memWf) : Leads (execHomeLineRead s) :=
  leads_next (h.settledOr (good_map (h.cohRead ..) fun _ hr => State.memWf.setReply hr _))

theorem State.memWf.execPageExpansion (h : s.memWf) : Leads (execPageExpansion s) := by
  refine leads_next ?_
  split
  · exact .ite (h.poolDry _) (h.settledOr ⟨fun _ hr => (below_makeResident hr).memWf h⟩)
  · exact h

theorem State.memWf.execL1Eviction (h : s.memWf) : Leads (execL1Eviction s) := leads_next (h.foldl (fun _ _ hu => hu.l1Leave ..) _)

theorem State.memWf.setPiece (h : s.memWf) (site p : Nat) (x : Piece) : (s.setPiece site p x).memWf := (below_setPiece s site p x).memWf h

theorem State.memWf.dropPiece (h : s.memWf) (site p : Nat) : (s.dropPiece site p).memWf := (below_dropPiece s site p).memWf h

theorem State.memWf.execSoftError (h : s.memWf) : Leads (execSoftError s) := by
  refine leads_next ?_
  split
  · exact .ite h (h.setClusterSame _ _ rfl)
  · exact .ite h (h.setDie _ rfl)
  · refine .ite h ?_
    split
    · exact .ite (h.setPiece ..) (h.dropPiece ..)
    · exact h
  · exact .ite h h
  · exact .ite h h

/-! ### Extents -/

theorem State.memWf.enterExtent (h : s.memWf) (site : Nat) (e : Extent) : (s.enterExtent site e).memWf := by
  have h1 (l : List Nat) : (l.foldl (fun (u : State) x => u.setDie x { u.die x with extents := goneUnder e (u.die x).extents }) s).memWf :=
    h.foldl (fun _ _ hu => hu.setDie _ (by rfl)) l
  unfold State.enterExtent
  dsimp only
  split
  · exact (h1 _).setDie site rfl
  · exact h

theorem State.memWf.execExtentAdd (h : s.memWf) : Leads (execExtentAdd s) := leads_next (.ite (h.enterExtent ..) h)

theorem State.memWf.setExtent (h : s.memWf) (site k : Nat) (e : Extent) : (s.setExtent site k e).memWf := h.setDie site rfl

theorem State.memWf.execExtentReleaseRequest (h : s.memWf) : Leads (execExtentReleaseRequest s) := by
  refine leads_next ?_
  split
  · exact .ite h (h.setExtent ..).tellFirmware
  · exact h

theorem State.memWf.clearExtent (h : s.memWf) (e : Extent) : (s.clearExtent e).memWf := h.setMem (wf_cclear _ _ h.1)

theorem State.memWf.removeExtent (h : s.memWf) (site k : Nat) (e : Extent) : (s.removeExtent site k e).memWf := (h.clearExtent e).setDie site rfl

theorem State.memWf.execReleaseSweep (h : s.memWf) : Leads (execReleaseSweep s) := by
  refine leads_next ?_
  split
  · exact h
  · refine .ite h (.ite (h.setExtent ..) (State.memWf.removeExtent ?_ ..))
    exact h.foldl (fun _ _ hu => (hu.pieceHome ..).dropPiece ..) _

theorem State.memWf.execReleaseSweepTimeout (h : s.memWf) : Leads (execReleaseSweepTimeout s) := by
  refine leads_next ?_
  split
  · exact .ite (h.setExtent ..) h
  · exact h

theorem State.memWf.execExtentForcedRemoval (h : s.memWf) : Leads (execExtentForcedRemoval s) := by
  refine leads_next ?_
  split
  · exact ((h.foldl (fun _ _ hu => hu.dropPiece ..) _).clearExtent _).setExtent ..
  · exact h

theorem State.memWf.fail (h : s.memWf) (kind aux : Nat) : (s.fail kind aux).memWf := h.setAgenda _

/-! ### Links -/

theorem State.memWf.setLink (h : s.memWf) (site p : Nat) (l : Link) : (s.setLink site p l).memWf := h.setDie site rfl

theorem State.memWf.inject (h : s.memWf) (site p : Nat) (q : Packet) : (s.inject site p q).memWf := by
  refine .ite h ?_
  dsimp only
  split
  · exact h.setDie site rfl
  · exact h.setDie site rfl

theorem State.memWf.give (h : s.memWf) (site p : Nat) (x : List Nat) : (s.give site p x).memWf := by
  unfold State.give
  dsimp only
  split
  · exact h.inject ..
  · exact h.inject ..
  · exact h.inject ..
  · exact h.inject ..
  · exact h.inject ..
  · exact h.inject ..
  · exact h

theorem State.memWf.flitSlot (h : s.memWf) (site p : Nat) : (s.flitSlot site p).memWf := by
  unfold State.flitSlot
  dsimp only
  split
  · exact h.setLink ..
  · exact .ite (h.setLink ..) ((h.setLink ..).setLink ..)

theorem State.memWf.execFlitSlot (h : s.memWf) : Leads (execFlitSlot s) := leads_next (.ite ((h.give ..).flitSlot ..) (h.give ..))

theorem State.memWf.sendOn (h : s.memWf) (site : Nat) (p : Packet) : (s.sendOn site p).memWf := by
  unfold State.sendOn
  split
  · exact h
  · exact h.setLink ..

theorem State.memWf.toCluster (h : s.memWf) (site : Nat) (p : Packet) : (s.toCluster site p).memWf := by
  unfold State.toCluster
  split
  · exact .ite (h.setClusterSame _ _ rfl) h
  · exact h

theorem State.memWf.interfacesAnswer (h : s.memWf) (site : Nat) : (s.interfacesAnswer site).memWf :=
  h.foldl (fun _ _ hu => .ite hu (hu.setClusterSame _ _ (by rfl))) _

theorem State.memWf.arrive (h : s.memWf) (site : Nat) (p : Packet) : (s.arrive site p).memWf :=
  .ite (h.sendOn ..) (.ite h (.ite h ((h.setDie site (by rfl)).toCluster ..)))

theorem State.memWf.deliver (h : s.memWf) (site p : Nat) (f : Flit) : (s.deliver site p f).memWf := by
  unfold State.deliver
  dsimp only
  split
  · exact .ite (h.setLink ..) ((h.setLink ..).arrive ..)
  · exact h.setLink ..

theorem State.memWf.trailer (h : s.memWf) (site p : Nat) (g : Group) : (s.trailer site p g).memWf := by
  unfold State.trailer
  split
  · exact h.setLink ..
  · exact h

theorem State.memWf.receive (h : s.memWf) (site p : Nat) (crcOk : Bool) : (s.receive site p crcOk).memWf := by
  unfold State.receive
  dsimp only
  split
  · exact h
  · exact .ite (((h.setLink ..).foldl (fun _ _ hu => hu.deliver ..) _).trailer ..) (h.setLink ..)

theorem State.memWf.execFlitGroupReceive (h : s.memWf) : Leads (execFlitGroupReceive s) := by
  refine leads_next (State.memWf.receive ?_ ..)
  split
  · exact h.interfacesAnswer _
  · exact h

theorem State.memWf.execLinkReplay (h : s.memWf) : Leads (execLinkReplay s) := by
  refine leads_next ?_
  split
  · exact h
  · exact .ite h (h.setLink ..)

theorem State.memWf.bothWays (h : s.memWf) (site p : Nat) (f : Link → Link) : (s.bothWays site p f).memWf := by
  unfold State.bothWays
  dsimp only
  split
  · exact h.setLink ..
  · exact (h.setLink ..).setLink ..

theorem State.memWf.execLinkRetryFail (h : s.memWf) : Leads (execLinkRetryFail s) := leads_next (.ite (h.bothWays ..) h)

theorem State.memWf.sendAgain (h : s.memWf) (site : Nat) (p : Packet) : (s.sendAgain site p).memWf := by
  unfold State.sendAgain
  split
  · exact h
  · exact h.setLink ..

theorem State.memWf.resendFrom (h : s.memWf) (site p : Nat) (q : Packet) : (s.resendFrom site p q).memWf :=
  .ite (h.sendAgain ..) (.ite (h.setLink ..) h)

theorem State.memWf.foldr {α : Type} {f : α → State → State} (h : s.memWf) (hf : ∀ u a, State.memWf u → (f a u).memWf) (l : List α) :
    (l.foldr f s).memWf := by
  induction l with
  | nil => exact h
  | cons a l ih => exact hf _ a ih

theorem State.memWf.resendNaked (h : s.memWf) (site p : Nat) : (s.resendNaked site p).memWf :=
  (h.setLink ..).foldr (fun _ _ hu => hu.resendFrom ..) _

theorem State.memWf.resendBoth (h : s.memWf) (site p : Nat) : (s.resendBoth site p).memWf := by
  unfold State.resendBoth
  split
  · exact h.resendNaked ..
  · exact (h.resendNaked ..).resendNaked ..

theorem State.memWf.execLinkRetrainComplete (h : s.memWf) : Leads (execLinkRetrainComplete s) :=
  leads_next (.ite ((h.bothWays ..).resendBoth ..) h)

theorem State.memWf.pruneRoutes (h : s.memWf) : s.pruneRoutes.memWf := h.mapDies fun _ _ => rfl

theorem State.memWf.retireAsked (h : s.memWf) : s.retireAsked.memWf := h.setAgenda _

theorem stores_askRetire (m : Mgmt) (x n : Nat) :
    (m.askRetire x n).fwmem = m.fwmem ∧ (m.askRetire x n).staging = m.staging ∧ (m.askRetire x n).fwlog = m.fwlog := by
  unfold Mgmt.askRetire
  split <;> exact ⟨rfl, rfl, rfl⟩

theorem stores_foldl_askRetire (l : List Nat) (m : Mgmt) :
    (l.foldl (fun (m : Mgmt) x => m.askRetire x 2) m).fwmem = m.fwmem ∧ (l.foldl (fun (m : Mgmt) x => m.askRetire x 2) m).staging = m.staging ∧
      (l.foldl (fun (m : Mgmt) x => m.askRetire x 2) m).fwlog = m.fwlog := by
  induction l generalizing m with
  | nil => exact ⟨rfl, rfl, rfl⟩
  | cons x l ih =>
    obtain ⟨h1, h2, h3⟩ := stores_askRetire m x 2
    obtain ⟨i1, i2, i3⟩ := ih (m.askRetire x 2)
    exact ⟨i1.trans h1, i2.trans h2, i3.trans h3⟩

theorem State.memWf.retireIsolated (h : s.memWf) : s.retireIsolated.memWf := by
  obtain ⟨h1, h2, h3⟩ := stores_foldl_askRetire s.isolated s.mgmt
  exact (h.setMgmt (by exact h1) (by exact h2) (by exact h3)).retireAsked

theorem State.memWf.reroute (h : s.memWf) (site p : Nat) : (s.reroute site p).memWf :=
  .ite h ((h.setLink ..).foldr (fun _ _ hu => hu.sendAgain ..) _)

theorem State.memWf.rerouteBoth (h : s.memWf) (site p : Nat) : (s.rerouteBoth site p).memWf := by
  unfold State.rerouteBoth
  split
  · exact h.reroute ..
  · exact (h.reroute ..).reroute ..

theorem State.memWf.execLinkDownTimeout (h : s.memWf) : Leads (execLinkDownTimeout s) := by
  refine leads_next ?_
  split
  · exact h
  · exact .ite h (.ite (h.bothWays ..).pruneRoutes.tellFirmware.retireIsolated ((h.rerouteBoth ..).resendBoth ..))

end Machine

end Sys2Proof

/-! SUPPORT. Resets, boot, watchdogs and the life of the package keep the memories canonical. -/

namespace Sys2Proof

namespace Machine

variable {s u v : State} {w : Who} {ea : W64}

/-! ### Teams that end -/

theorem State.memWf.asyncFault (h : s.memWf) (c : CoreId) (l : Leave) : (s.asyncFault c l).memWf := .ite h (h.setCore ..)

theorem State.memWf.endMig (h : s.memWf) (c : CoreId) : (s.endMig c).memWf := by
  unfold State.endMig
  split
  · exact h
  · next m _ =>
    have hend : GoodSt (s.migEnd (s.who c) (poolKey ((s.who c).fold.getD 0) (decide (farBase ≤ m.old * 65536))) 0 m) := h.migEnd ..
    dsimp only
    split
    · next hu => exact hend.of _ hu
    · exact h.setMigrate _

theorem State.memWf.endOnCore (h : s.memWf) (c : CoreId) : (s.endOnCore c).memWf := ((h.endMig c).leaveWait ..).giveBack ..

theorem State.memWf.endUnsaved (h : s.memWf) (c : CoreId) : (s.endUnsaved c).memWf :=
  (((h.raiseSusp ..).endOnCore c).putAway ..).vacate c

/-! ### Cluster resets -/

theorem State.memWf.clusterReset (h : s.memWf) (site cl : Nat) : (s.clusterReset site cl).memWf :=
  .ite h ((h.setClusterSame site cl (by rfl)).foldl (fun _ c hu => State.memWf.asyncFault (.ite hu (hu.cancelPlane c)) c .reset) _)

theorem State.memWf.requeueSwapped (h : s.memWf) (site cl : Nat) : (s.requeueSwapped site cl).memWf := by
  refine h.foldl (fun u d hu => hu.foldl (fun v n hv => ?_) _) _
  split
  · exact .ite (hv.requeue ..) hv
  · exact hv

theorem State.memWf.cutInterface (h : s.memWf) (site cl : Nat) : (s.cutInterface site cl).memWf := h.setDie site rfl

theorem State.memWf.leaseReset (h : s.memWf) (site : Nat) : (s.leaseReset site).memWf := h.setDie site rfl

theorem State.memWf.clusterClear (h : s.memWf) (site cl : Nat) : (s.clusterClear site cl).memWf := by
  unfold State.clusterClear
  extract_lets s1 _ s2 s3
  have h1 : s1.memWf := h.foldl (fun _ _ hu => .ite (hu.endUnsaved _) hu) _
  have h2 : s2.memWf := (h1.cutInterface site cl).foldl (fun _ _ hu => hu.setCore ..) _
  have h3 : s3.memWf := (h2.requeueSwapped ..).leaseReset _
  clear_value s3
  exact h3.setClusterSame site cl rfl

theorem State.memWf.clusterLive (h : s.memWf) (site cl : Nat) : (s.clusterLive site cl).memWf := h.setClusterSame site cl rfl

theorem State.memWf.execClusterResetSaveDeadline (h : s.memWf) : Leads (execClusterResetSaveDeadline s) := by
  refine leads_next ?_
  split
  · exact .ite (h.clusterLive ..) (.ite (h.clusterClear ..) h)
  · exact h

/-! ### Fold resets -/

theorem State.memWf.signalAgain (h : s.memWf) (d : Nat) (req : LaunchReq) (st : Nat) : (s.signalAgain d req st).memWf := by
  unfold State.signalAgain
  have hsig := h.signal d req st
  split
  · next hu => exact hsig.of _ hu
  · exact (h.waited _).putOff _

theorem State.memWf.signalAll (h : s.memWf) (l : List (Nat × Nat × Launch × Nat)) : (s.signalAll l).memWf := by
  induction l generalizing s with
  | nil => exact h
  | cons e l ih => exact ih ((h.foldl (fun _ _ hu => hu.flushBuf ..) _).signalAgain ..)

theorem State.memWf.toBoundary (h : s.memWf) (c : CoreId) (n k : Nat) : (s.toBoundary c n k).memWf := by
  induction k generalizing s with
  | zero => exact h
  | succ k ih =>
    unfold State.toBoundary
    split
    · exact .ite (ih (h.copyWord ..)) h
    · exact h

theorem State.memWf.stopCopies (h : s.memWf) (p : TeamSt → Bool) (c : CoreId) : (s.stopCopies p c).memWf := by
  refine h.foldl (fun u k hu => ?_) _
  split
  · exact hu
  · refine .ite hu ?_
    have hv (l : List Nat) : (l.foldl (fun (x : State) e => x.toBoundary c (8 * k + e) 9) u).memWf := hu.foldl (fun _ _ hx => hx.toBoundary ..) _
    dsimp only
    split
    · exact hv _
    · refine ((hv _).setTeamN ..).foldl (fun x e hx => ?_) _
      split
      · exact hx.endSusp ..
      · exact hx

theorem State.memWf.raiseStale (h : s.memWf) (d : Nat) (r : Record) : (s.raiseStale d r).memWf := (h.raiseSusp ..).endSusp ..

theorem State.memWf.endStale (h : s.memWf) (c : CoreId) : (s.endStale c).memWf := ((h.raiseStale ..).endOnCore c).vacate c

theorem State.memWf.endAwayStale (h : s.memWf) (d : Nat) (a : Away) : (s.endAwayStale d a).memWf := by
  unfold State.endAwayStale
  extract_lets s1
  have h1 : s1.memWf := by
    unfold s1
    split
    · exact h.endSusp ..
    · exact h
  exact .ite h1 (((h1.freeSwapped a).giveBack ..).raiseStale ..)

theorem State.memWf.endTeams (h : s.memWf) (p : TeamSt → Bool) : (s.endTeams p).memWf := by
  unfold State.endTeams
  extract_lets s1 s2
  have h1 : s1.memWf := h.foldl (fun _ _ hu => hu.stopCopies ..) _
  have h2 : s2.memWf := h1.foldl (fun _ c hu => .ite (State.memWf.endStale (.ite (hu.cancelPlane c) hu) c) (.ite (hu.cancelPlane c) hu)) _
  exact h2.foldl (fun _ d hu => State.memWf.foldl (State.memWf.setDrvSame hu d (by rfl)) (fun _ _ hx => hx.endAwayStale ..) _) _

theorem State.memWf.foldTables (h : s.memWf) (f d : Nat) : (s.foldTables f d).memWf := by
  have h1 := (calm_freeMade _ d f).memWf ((calm_idleNodes _ d (s.nodesOf d f)).memWf ((calm_freeSlots s d f).memWf h))
  exact h1.setDrvSame d rfl

theorem State.memWf.unlockFold (h : s.memWf) (f d : Nat) : (s.unlockFold f d).memWf := h.setDrvSame d rfl

theorem State.memWf.foldReset (h : s.memWf) (f : Nat) : (s.foldReset f).memWf := by
  unfold State.foldReset
  extract_lets l s1 s2 s3 s4
  have h2 : s2.memWf := State.memWf.foldl (s := s1) (h.signalAll l) (fun _ _ hu => hu.unplace ..) _
  have h4 : s4.memWf := ((h2.endTeams _).foldTables f 0).foldTables f 1
  have h7 := (calm_foldMemory _ f).memWf ((calm_foldClusters _ f).memWf ((calm_freeFlocks s4 f).memWf h4))
  exact (h7.unlockFold f 0).unlockFold f 1

theorem State.memWf.execFoldReset (h : s.memWf) : Leads (execFoldReset s) := leads_next (h.foldReset _)

/-! ### Package resets and requests for resets -/

theorem State.memWf.holdDown (h : s.memWf) (l : List Nat) : (s.holdDown l).memWf :=
  h.foldl (fun _ _ hu => hu.foldl (fun _ _ hv => .ite (hv.bothWays ..) hv) _) _

theorem stores_romStart (m : Mgmt) : m.romStart.fwmem = m.fwmem ∧ m.romStart.staging = m.staging ∧ m.romStart.fwlog = m.fwlog := by
  unfold Mgmt.romStart
  split
  · exact ⟨rfl, rfl, rfl⟩
  · split
    · exact ⟨rfl, rfl, rfl⟩
    · split <;> exact ⟨rfl, rfl, rfl⟩

theorem State.memWf.rom (h : s.memWf) : s.rom.memWf := by
  obtain ⟨h1, h2, h3⟩ := stores_romStart s.mgmt
  have hu : ({ s with mgmt := s.mgmt.romStart } : State).memWf := h.setMgmt (by exact h1) (by exact h2) (by exact h3)
  exact .ite hu (hu.holdDown _)

theorem State.memWf.restarted (h : s.memWf) (held : Bool) : (s.restarted held).memWf := by
  refine State.memWf.rom ?_
  exact ⟨rfl, h.2.1, h.2.2.1, fun _ _ => rfl, fun _ => rfl, fun _ => rfl, rfl, rfl, rfl⟩

theorem State.memWf.rstResult (h : s.memWf) (scope result : Nat) : (s.rstResult scope result).memWf := h.setMgmt rfl rfl rfl

theorem State.memWf.execRstreqCluster (h : s.memWf) : Leads (execRstreqCluster s) :=
  leads_next (.ite h (.ite (h.rstResult ..) (.ite (h.rstResult ..) ((h.clusterReset ..).rstResult ..))))

theorem State.memWf.execRstreqFold (h : s.memWf) : Leads (execRstreqFold s) := leads_next (.ite ((h.foldReset _).rstResult ..) h)

theorem State.memWf.execRstreqPackage (h : s.memWf) : Leads (execRstreqPackage s) := leads_next (.ite (h.restarted _) h)

theorem State.memWf.execRstreqRelease (h : s.memWf) : Leads (execRstreqRelease s) :=
  leads_next (.ite h (.ite (h.rstResult ..) (State.memWf.rstResult (State.memWf.setDrvSame (.ite (h.setCore ..) h) _ (by rfl)) ..)))

/-! ### Watchdogs -/

theorem State.memWf.execCoreWatchdog (h : s.memWf) : Leads (execCoreWatchdog s) := leads_next (.ite (h.asyncFault ..) h)

theorem State.memWf.execFirmwareWatchdog (h : s.memWf) : Leads (execFirmwareWatchdog s) := leads_next (.ite ((h.haltCore _).tellHost _) h)

theorem State.memWf.killNode (h : s.memWf) (d k : Nat) : (s.killNode d k).memWf := by
  unfold State.killNode
  extract_lets s1
  have h1 : s1.memWf := by
    refine h.foldl (fun u c hu => ?_) _
    exact .ite (State.memWf.endResident (State.memWf.endMig (State.memWf.raiseRecord (.ite (hu.cancelPlane c) hu) ..) c) c true)
      (.ite (hu.cancelPlane c) hu)
  refine h1.foldl (fun u a hu => ?_) _
  split
  · exact hu
  · refine State.memWf.killAway (State.memWf.raiseRecord ?_ ..) ..
    split
    · exact hu.endSusp ..
    · exact hu

theorem State.memWf.execNodeDeadline (h : s.memWf) : Leads (execNodeDeadline s) :=
  leads_next (.ite (((h.killNode ..).finishNode ..).setDrvSame _ rfl) h)

theorem State.memWf.execClusterWatchdog (h : s.memWf) : Leads (execClusterWatchdog s) :=
  leads_next (.ite h ((h.clusterReset ..).raiseRecord ..))

theorem State.memWf.execFoldWatchdog (h : s.memWf) : Leads (execFoldWatchdog s) := by
  refine leads_next ?_
  split
  · exact h
  · split
    · exact h
    · split
      · exact h
      · exact .ite h (h.foldl (fun _ _ hu => hu.foldReset _) _)

/-! ### Boot -/

theorem State.memWf.setDisc (h : s.memWf) (site : Nat) (f : W128 → W128) : (s.setDisc site f).memWf := h.foldl (fun _ d hu => hu.setDrvSame d (by rfl)) _

theorem State.memWf.startFw (h : s.memWf) (d k entry : Nat) : (s.startFw d k entry).memWf := .ite h ((h.setCore ..).setDrvSame d rfl)

theorem State.memWf.execFirmwareCoreStart (h : s.memWf) : Leads (execFirmwareCoreStart s) :=
  leads_next (.ite h (.ite h.tellFirmware (h.startFw ..)))

/-- The management function put in place with its memories canonical. -/
theorem State.memWf.putMgmt (h : s.memWf) {m : Mgmt} (h1 : Memory.wf m.fwmem = true) (h2 : Memory.wf m.staging = true)
    (h3 : Memory.wf m.fwlog = true) : ({ s with mgmt := m } : State).memWf := by
  obtain ⟨hm, hh, hp, hc, hd, hg, _, _, _⟩ := h
  exact ⟨hm, hh, hp, hc, hd, hg, h1, h2, h3⟩

theorem State.memWf.fwmem (h : s.memWf) : Memory.wf s.mgmt.fwmem = true := h.2.2.2.2.2.2.1

theorem State.memWf.staging (h : s.memWf) : Memory.wf s.mgmt.staging = true := h.2.2.2.2.2.2.2.1

theorem State.memWf.fwlog (h : s.memWf) : Memory.wf s.mgmt.fwlog = true := h.2.2.2.2.2.2.2.2

theorem State.memWf.execBootStagingWrite (h : s.memWf) : Leads (execBootStagingWrite s) :=
  leads_next (.ite h.rom (h.rom.putMgmt h.rom.fwmem (wf_cwrite _ _ h.rom.staging) h.rom.fwlog))

theorem State.memWf.setFreeCtr (h : s.memWf) (n : Nat) : ({ s with freeCtr := n } : State).memWf := h

theorem State.memWf.writeRoutes (h : s.memWf) (live : List Nat) : (s.writeRoutes live).memWf :=
  (h.setFreeCtr _).foldl (fun _ x hu => hu.setDie x (by rfl)) _

theorem State.memWf.romTables (h : s.memWf) : s.romTables.memWf := (((h.writeRoutes _).setFreeCtr _).setDrvSame 0 (by rfl)).setDrvSame 1 rfl

theorem wf_takeImage (m : Mgmt) : Memory.wf m.takeImage.fwmem = true := by
  simp only [Mgmt.takeImage]
  exact wf_cwrite _ _ rfl

theorem staging_takeImage (m : Mgmt) : m.takeImage.staging = m.staging := by simp only [Mgmt.takeImage]

theorem fwlog_takeImage (m : Mgmt) : m.takeImage.fwlog = m.fwlog := by simp only [Mgmt.takeImage]

theorem State.memWf.takeImage (h : s.memWf) (p a : Nat) : ({ s with mgmt := { s.mgmt.takeImage with phase := p, fwasid := a } } : State).memWf := by
  have h1 := wf_takeImage s.mgmt
  have h2 := (staging_takeImage s.mgmt).symm ▸ h.staging
  have h3 := (fwlog_takeImage s.mgmt).symm ▸ h.fwlog
  generalize s.mgmt.takeImage = m at h1 h2 h3 ⊢
  exact h.putMgmt h1 h2 h3

theorem State.memWf.execBootgo (h : s.memWf) : Leads (execBootgo s) := by
  unfold Machine.execBootgo
  extract_lets u m f entry _ v
  have hu : u.memWf := h.rom
  have hv : v.memWf := (hu.takeImage ..).romTables.retireAsked
  clear_value v
  refine leads_next (.ite hu (.ite (hu.putMgmt hu.fwmem rfl hu.fwlog) (.ite (hu.setMgmt rfl rfl rfl) (.ite (hv.tellHost 0) (hv.startFw ..)))))

theorem State.memWf.execMailboxMessage (h : s.memWf) : Leads (execMailboxMessage s) := leads_next ((h.setDrvSame _ (by rfl)).wake ..)

theorem State.memWf.execDieDegrade (h : s.memWf) : Leads (execDieDegrade s) :=
  leads_next (.ite h ((h.foldl (fun _ _ hu => hu.setCore ..) _).setDisc ..))

/-! ### Retirement -/

theorem State.memWf.clearDie (h : s.memWf) (site : Nat) : (s.clearDie site).memWf := by
  refine h.foldl (fun u c hu => ?_) _
  extract_lets v x
  have hv : v.memWf := .ite hu (hu.cancelPlane c)
  have hx : x.memWf := (hv.asyncFault c .reset).drainTeam c
  have hleave := hx.leaveCore c (((x.core c).leave).getD .reset)
  refine .ite hv (.ite (hv.setCore ..) (.ite ?_ (hx.endUnsaved c)))
  split
  · next hy => exact hleave.of _ hy
  · exact hx.endUnsaved c

theorem wf_moveCells (f : Nat → Option Nat) (m : List Host.Cell) : Memory.wf (moveCells f m) = true := by
  unfold moveCells
  generalize hn : ([] : List Host.Cell) = n
  have hwf : Memory.wf n = true := hn ▸ rfl
  clear hn
  induction m generalizing n with
  | nil => exact hwf
  | cons e m ih =>
    refine ih _ ?_
    dsimp only
    split
    · exact wf_cwrite _ _ hwf
    · exact hwf

theorem stores_rebuiltDie (s : State) (stack : Nat) (d : Die) : (s.rebuiltDie stack d).stores = d.stores := by
  unfold State.rebuiltDie
  generalize s.framesOver stack d = l
  induction l generalizing d with
  | nil => rfl
  | cons lf l ih => exact ih _

theorem State.memWf.moved (h : s.memWf) {f : Nat → Die → Die} (hf : ∀ k x, (f k x).stores = x.stores) {m : List Host.Cell}
    (hm : Memory.wf m = true) (bad : Tab Bool) (key : Tab (BitVec 256 × Nat)) (tree : Tab Bool) (minor : Tab (BitVec 7)) (major : Tab W64) (lat : Tab Nat) :
    ({ s with lineBad := bad, lineKey := key, treeBad := tree, minor := minor, major := major, latent := lat, mem := m,
              dies := tmap f s.dies } : State).memWf :=
  State.memWf.setMem (h.mapDies hf) hm

theorem State.memWf.mapRebuild (h : s.memWf) (f stack : Nat) : (s.mapRebuild f stack).memWf := by
  unfold State.mapRebuild
  extract_lets at_ e e' fmin fmin' mv blk s1 s2
  have h1 : s1.memWf := h.foldl (fun u p hu => (below_pieceLeave u p.1 p.2).memWf hu) _
  have h2 : s2.memWf := h1.moved (by intros; rfl) (wf_moveCells _ _) ..
  refine h2.foldl (fun u k hu => hu.setDie _ ?_) _
  exact (stores_rebuiltDie u k _).trans rfl

theorem State.memWf.setClock (h : s.memWf) (ns : W64) (frac : BitVec 16) : ({ s with ns := ns, frac := frac } : State).memWf := h

theorem State.memWf.lost (h : s.memWf) (d : Nat) (x : Drover) (hx : x.gmem = []) (ns : W64) (frac : BitVec 16) (up : Tab Bool) :
    ({ s.setDrv d x with ns := ns, frac := frac, mgmt := { (s.setDrv d x).mgmt with hostUp := up } } : State).memWf := by
  have hd : (s.setDrv d x).memWf := h.setDrv d (by rw [hx]; rfl)
  exact (hd.setClock ns frac).setMgmt rfl rfl rfl

theorem State.memWf.loseDrover (h : s.memWf) (d : Nat) : (s.loseDrover d).memWf := by
  rw [State.loseDrover]
  exact (h.endTeams _).lost d _ rfl ..

theorem State.memWf.retireDie (h : s.memWf) (site reason : Nat) : (s.retireDie site reason).memWf := by
  unfold State.retireDie
  extract_lets s1 _ s2 s2' s3
  have h1 : s1.memWf := (h.setDisc site _).clearDie site
  have h2 : s2.memWf := State.memWf.setCores (s := s1.setDie site { s1.die site with routes := [], tlbiIn := [] }) (h1.setDie site rfl) _
  have h2' : s2'.memWf := h2.writeRoutes _
  have h3 : s3.memWf := by
    unfold s3
    split
    · exact h2'.mapRebuild ..
    · exact h2'.loseDrover _
    · exact h2'
  exact ((h3.setMgmt (by rfl) (by rfl) (by rfl)).tellHost _).retireIsolated

theorem State.memWf.retireWhenUp (h : s.memWf) (site reason : Nat) : (s.retireWhenUp site reason).memWf := by
  refine .ite (h.retireDie ..) ?_
  have hu := h.setDisc site fun e => setField e 48 8 3
  obtain ⟨h1, h2, h3⟩ := stores_askRetire (s.setDisc site fun e => setField e 48 8 3).mgmt site reason
  exact hu.setMgmt (by exact h1) (by exact h2) (by exact h3)

theorem State.memWf.execDieRetirement (h : s.memWf) : Leads (execDieRetirement s) := leads_next (.ite (h.retireWhenUp ..) h)

theorem State.memWf.execThermalThrottle (h : s.memWf) : Leads (execThermalThrottle s) := leads_next ((h.setDie _ (by rfl)).setMgmt rfl rfl rfl)

theorem State.memWf.execThermalRetire (h : s.memWf) : Leads (execThermalRetire s) := leads_next (.ite (h.retireWhenUp ..) h)

theorem State.memWf.timeSeen (h : s.memWf) (x : BitVec 2) : (s.timeSeen x).memWf := .ite (h.setMgmt rfl rfl rfl) h

theorem State.memWf.execPtpEventTimestamp (h : s.memWf) : Leads (execPtpEventTimestamp s) :=
  leads_next (.ite h (State.memWf.timeSeen (.ite (h.setDie _ (by rfl)) (h.setDie _ (by rfl))) 1))

end Machine

end Sys2Proof

/-! SUPPORT. The host, peers and the collective engines keep the memories canonical. -/

namespace Sys2Proof

namespace Machine

variable {s u v : State} {w : Who} {ea : W64}

/-! ### The host -/

theorem State.memWf.homeBytes (h : s.memWf) (pa n k : Nat) : GoodWf (s.homeBytes pa n k) := by
  induction k generalizing s pa n with
  | zero => exact good_ok h
  | succ k ih =>
    refine good_ite (good_ok h) ?_
    split
    · exact good_error
    · exact good_bind (h.reachHome _) fun u hu => good_bind (hu.homeRead _) fun r hr => good_bind (ih hr _ _) fun q hq => good_ok hq

theorem State.memWf.homePut (h : s.memWf) (pa : Nat) (data : List Byte) (k : Nat) : GoodSt (s.homePut pa data k) := by
  induction k generalizing s pa data with
  | zero => exact good_ok h
  | succ k ih =>
    refine good_ite (good_ok h) ?_
    split
    · exact good_error
    · exact good_bind (h.reachHome _) fun u hu => good_iteBind (P := State.memWf) (good_ok hu) (hu.homeOpen _) fun v hv => ih (hv.homeWrite ..) _ _

theorem wf_performReq (h : s.memWf) {rd : State → Nat → Iss (List Byte × State)} {wr : State → List Byte → Iss State}
    (hrd : ∀ u n, State.memWf u → GoodWf (rd u n)) (hwr : ∀ u d, State.memWf u → GoodSt (wr u d)) (req : MemReq) : GoodWf (performReq req s rd wr) := by
  cases req with
  | read n => exact hrd s n h
  | write d => exact good_map (hwr s d h) fun _ hu => hu
  | atomic op x e => exact good_bind (hrd s _ h) fun r hr => good_bind (hwr _ _ hr) fun u hu => good_ok hu

theorem State.memWf.answered (h : s.memWf) (i : Instr) {r : Iss (List Byte × State)} (hr : GoodWf r) : (s.answered i r).memWf := by
  cases r with
  | ok q => exact State.memWf.setReply (hr.of q rfl) _
  | error e =>
    cases e with
    | stall k => exact (h.waited k).askAgain i
    | fault f => exact (h.markBad _).setReply _

theorem State.memWf.hostRead (h : s.memWf) (k o n : Nat) : (s.hostRead k o n).memWf := by
  unfold State.hostRead
  split
  · exact .ite (h.setReply _) h
  · refine State.memWf.setMgmt (h.setReply _) ?_ ?_ ?_
    · split <;> rfl
    · split <;> rfl
    · split <;> rfl
  · exact h.setReply _

theorem State.memWf.execHostApertureAccess (h : s.memWf) : Leads (execHostApertureAccess s) := by
  refine leads_next ?_
  split
  · refine .ite h (.ite (h.setReply _) (h.answered _ (wf_performReq h ?_ ?_ _)))
    · exact fun u k hu => hu.homeBytes ..
    · exact fun u d hu => hu.homePut ..
  · split
    · exact h.hostRead ..
    · exact h.setReply _

theorem State.memWf.execHostPortLinkUp (h : s.memWf) : Leads (execHostPortLinkUp s) := leads_next (.ite h (h.setMgmt rfl rfl rfl))

/-! ### Peers and registers -/

theorem State.memWf.peerPerform (h : s.memWf) (fab f : Nat) : GoodWf (s.peerPerform fab f) :=
  good_check fun _ => wf_performReq h (fun _ _ hu => hu.doLoad ..) (fun _ _ hu => hu.doStore ..) _

theorem State.memWf.setPeerNext (h : s.memWf) (t : Tab Nat) : ({ s with peerNext := t } : State).memWf := h

theorem State.memWf.execPeerRequestReceive (h : s.memWf) : Leads (execPeerRequestReceive s) := by
  refine leads_next (.ite h (.ite (h.askAgain _) ?_))
  have hreq := h.peerPerform (s.ev.site % 2) s.evFold
  split
  · exact (h.waited _).askAgain _
  · exact (h.answered _ hreq).setPeerNext _

theorem State.memWf.execPeerRequestForward (h : s.memWf) : Leads (execPeerRequestForward s) := leads_next (.ite (h.sendOn ..) h)

theorem State.memWf.doorbell (h : s.memWf) (off : Nat) (x : W64) : (s.doorbell off x).memWf :=
  .ite (h.kickQueue ..) (.ite h (.ite (h.setAgenda _) (.ite (h.setMgmt rfl rfl rfl) h)))

theorem State.memWf.mgmtWrite (h : s.memWf) (off : Nat) (x : W64) : (s.mgmtWrite off x).memWf := by
  refine .ite ?_ (.ite (h.setAgenda _) (.ite (h.setMgmt rfl rfl rfl) h))
  split
  · exact h.setAgenda _
  · exact h

theorem State.memWf.execRegisterWrite (h : s.memWf) : Leads (execRegisterWrite s) := by
  refine leads_next ?_
  split
  · exact .ite ((h.mmioWrite ..).getD h) h
  · exact .ite (h.doorbell ..) h
  · exact .ite (h.putMgmt h.fwmem h.staging (wf_cwrite _ _ h.fwlog)) h
  · exact h.mgmtWrite ..

/-! ### Collectives -/

theorem State.memWf.setRdidx (h : s.memWf) (fab ring : Nat) (x : W64) : (s.setRdidx fab ring x).memWf := h.setDie _ rfl

theorem good_foldl {ε α β : Type} {P : β → Prop} {f : Except ε β → α → Except ε β} (hf : ∀ x a, Good P x → Good P (f x a)) (l : List α)
    {x : Except ε β} (hx : Good P x) : Good P (l.foldl f x) := by
  induction l generalizing x with
  | nil => exact hx
  | cons a l ih => exact ih (hf x a hx)

theorem State.memWf.collRead (h : s.memWf) (p : W64) (n : Nat) : GoodWf (s.collRead w p n) := by
  refine good_check fun _ => good_bind (good_foldl (fun x e hx => ?_) _ (good_ok h)) fun q hq => State.memWf.readParts hq _
  exact good_bind hx fun b hb => good_bind (State.memWf.placeOf hb ..) fun y hy => good_ok hy

theorem State.memWf.collWrite (h : s.memWf) (p : W64) (data : List Byte) : GoodSt (s.collWrite w p data) := by
  refine good_check fun _ => good_bind (P := fun r : List (Place × W64 × Nat) × State => r.2.memWf) (good_foldl (fun x e hx => ?_) _ (good_ok h))
    fun q hq => hq.writeParts ..
  exact good_bind hx fun b hb => good_bind (State.memWf.placeOf hb ..) fun y hy => good_ok hy

theorem State.memWf.collInputs (h : s.memWf) (l : List W32) : GoodWf (s.collInputs w l) :=
  good_bind (h.collRead ..) fun _ ha => good_ite (good_ok ha) (good_bind (State.memWf.collRead ha ..) fun _ hb => good_ok hb)

theorem State.memWf.setColls (h : s.memWf) (t : Tab Coll) : ({ s with colls := t } : State).memWf := h

theorem State.memWf.setColl (h : s.memWf) (fab ring : Nat) (k : Coll) : (s.setColl fab ring k).memWf := h.setColls _

theorem State.memWf.submit (h : s.memWf) (fab ring : Nat) (l : List W32) : (s.submit fab ring l).memWf :=
  .ite (h.setColl ..) ((h.setDie _ (by rfl)).setColl ..)

theorem State.memWf.takeDesc (h : s.memWf) (fab ring : Nat) : (s.takeDesc fab ring).memWf := by
  refine .ite h ?_
  have hread : GoodWf (s.askRead (s.engineWho fab ring) (packetAddr (s.ring fab ring)) 64 64) := h.askRead ..
  dsimp only
  split
  · exact h.markBad _
  · exact (h.waited _).putOff _
  · next u hu =>
    have hu : u.memWf := hread.of _ hu
    exact .ite hu (hu.submit ..)

theorem State.memWf.startColl (h : s.memWf) (t : Nat) {f : State → Who → Coll → W128 → Iss (Coll × State)}
    (hf : ∀ w k g, GoodWf (f s w k g)) : (s.startColl t f).memWf := by
  unfold State.startColl
  dsimp only
  split
  · exact h
  · next k _ =>
    refine .ite h ?_
    have hval := hf (s.engineWho s.ev.site s.ev.n) k (s.group s.ev.site k.desc)
    split
    · next hr => exact State.memWf.setColl (hval.of _ hr) ..
    · exact (h.markBad _).setColl ..
    · exact h.waited _

theorem State.memWf.ownPartial (h : s.memWf) (k : Coll) (g : W128) : GoodWf (s.ownPartial w k g) := good_map (h.collInputs _) fun _ hr => hr

theorem State.memWf.readRanks (h : s.memWf) (g : W128) : GoodWf (s.readRanks w g) := good_map (h.collRead ..) fun _ hr => hr

theorem State.memWf.execAllReduce (h : s.memWf) : Leads (execAllReduce s) := leads_next (h.startColl 1 fun _ _ _ => h.ownPartial ..)

theorem State.memWf.execReduceScatter (h : s.memWf) : Leads (execReduceScatter s) := leads_next (h.startColl 2 fun _ _ _ => h.ownPartial ..)

theorem State.memWf.execAllGather (h : s.memWf) : Leads (execAllGather s) :=
  leads_next (h.startColl 3 fun _ _ _ => good_bind (h.collInputs _) fun _ hr => good_bind (State.memWf.readRanks hr _) fun _ hq => good_ok hq)

theorem State.memWf.execCollectiveBroadcast (h : s.memWf) : Leads (execCollectiveBroadcast s) :=
  leads_next (h.startColl 4 fun _ _ _ => good_ite (good_ok h) (good_bind (h.collRead ..) fun _ ha => good_ok ha))

theorem State.memWf.execCollectiveBarrier (h : s.memWf) : Leads (execCollectiveBarrier s) := leads_next (h.startColl 5 fun _ _ _ => good_ok h)

theorem State.memWf.execCollectivePartialReceive (h : s.memWf) : Leads (execCollectivePartialReceive s) := by
  refine leads_next (.ite (h.setDie _ rfl) ?_)
  split
  · exact h
  · exact .ite h (h.setColl ..)

theorem State.memWf.collSignal (h : s.memWf) (w : Who) (l : List W32) (status : Nat) : GoodSt (s.collSignal w l status) := by
  have hwrite : GoodSt (s.askWrite w (pw64 l 12) (leBytes 8 (2 ^ 63 + status))) := h.askWrite ..
  refine good_ite (good_ok h) ?_
  split
  · next hu => exact good_ok (hwrite.of _ hu)
  · exact good_ok (h.markBad _)
  · exact good_error

theorem State.memWf.endColl (h : s.memWf) (fab ring : Nat) (l : List W32) (st : Nat) : GoodSt (s.endColl fab ring l st) := by
  refine good_bind (h.collSignal ..) fun u hu => good_map (hu.consumeAs ..) fun r hr => ?_
  have hv (x : W64) := (State.memWf.setColls hr (tdel r.2.1.colls (ringKey fab ring))).setRdidx fab ring x
  exact .ite (hv _) ((hv _).takeDesc ..)

theorem State.memWf.execCollectiveComplete (h : s.memWf) : Leads (execCollectiveComplete s) := by
  unfold Machine.execCollectiveComplete
  extract_lets fab ring w finish
  have hfinish (u : State) (hu : u.memWf) (k : Coll) (st : Nat) : (finish u k st).memWf := h.orWaited (hu.endColl ..)
  clear_value finish
  refine leads_next ?_
  split
  · exact h
  · next k _ =>
    split
    · exact hfinish s h ..
    · refine .ite h ?_
      split
      · exact h
      · next b _ =>
        have hwrite : GoodSt (s.collWrite w (pw64 k.desc 6) b) := h.collWrite ..
        refine .ite (hfinish s h ..) ?_
        split
        · next hu => exact hfinish _ (hwrite.of _ hu) ..
        · exact hfinish _ (h.markBad _) ..
        · exact h.waited _

theorem State.memWf.execCollectiveTimeout (h : s.memWf) : Leads (execCollectiveTimeout s) := by
  refine leads_next ?_
  split
  · exact h
  · exact .ite (h.setColl ..) h

end Machine

end Sys2Proof

/-! SUPPORT. The words of SPARSE and SORT cores, and those that move lanes and predicates, keep the memories canonical. -/

namespace Sys2Proof

namespace Machine

variable {s u v : State} {w : Who} {ea : W64}

theorem State.memWf.execPlog (h : s.memWf) (t : Tag) (d : Bool) (p a b f : BitVec 3) : Leads (execPlog t d p a b f s) :=
  h.run fun _ h => done_ok (State.memWf.pushLat (.ite h (h.setPred ..)) _)

theorem State.memWf.execPmov (h : s.memWf) (t : Tag) (d : Bool) (r a : BitVec 6) (f : BitVec 3) : Leads (execPmov t d r a f s) :=
  h.run fun _ h => good_ite (h.frameV ..) (good_check fun _ => good_bind (h.src a) fun _ hx =>
    done_ok (State.memWf.pushLat (.ite hx (State.memWf.setSt hx _)) _))

theorem State.memWf.pathSearch (h : s.memWf) (base : W64) (d lo hi n : Nat) : GoodWf (s.pathSearch base d lo hi n) := by
  induction n generalizing s lo hi with
  | zero => exact good_ok h
  | succ n ih => exact good_ite (good_ok h) (good_bind (h.streamRead ..) fun r hr => good_ite (ih hr _ _) (ih hr _ _))

theorem State.memWf.pathLanes (h : s.memWf) (base : W64) (m nnz : Nat) (l : List (Nat × W32)) : GoodWf (s.pathLanes base m nnz l) := by
  induction l generalizing s with
  | nil => exact good_ok h
  | cons e l ih =>
    refine good_ite (good_bind (ih h) fun q hq => good_ok hq) ?_
    exact good_bind (h.pathSearch ..) fun r hr => good_bind (ih hr) fun q hq => good_ok hq

theorem State.memWf.execMpath (h : s.memWf) (d : Bool) (r a b : BitVec 6) : Leads (execMpath d r a b s) :=
  h.run fun _ h => good_check fun _ => good_bind (h.vsrc a) fun _ hx => good_bind (State.memWf.vsrc hx b) fun _ hy =>
    good_bind (State.memWf.pathLanes hy ..) fun _ hg => done_ok (State.memWf.vput hg ..)

theorem State.memWf.execCsrw (h : s.memWf) (p : BitVec 3) (a g : BitVec 6) (w : BitVec 1) (o : BitVec 2) : Leads (execCsrw p a g w o s) :=
  h.run fun _ h => good_check fun _ => good_bind (h.src a) fun _ hx => good_check fun _ =>
    good_ite (done_ok (h.setTm _)) (done_ok (State.memWf.setTm hx _))

theorem State.memWf.setPerm (h : s.memWf) (l : List Nat) : (s.setPerm l).memWf := h.setTm _

theorem State.memWf.execSbit (h : s.memWf) (d : Bool) (r a : BitVec 6) (f : BitVec 1) : Leads (execSbit d r a f s) :=
  h.run fun _ h => good_check fun _ => good_check fun _ => good_bind (h.vsrc a) fun _ hx => done_ok ((State.memWf.setPerm hx _).vput ..)

theorem State.memWf.execSmrg (h : s.memWf) (d : Bool) (r a b : BitVec 6) (f : BitVec 1) : Leads (execSmrg d r a b f s) :=
  h.run fun _ h => good_check fun _ => good_check fun _ => good_bind (h.vsrc a) fun _ hx => good_bind (State.memWf.vsrc hx b) fun _ hy =>
    done_ok (((State.memWf.setPerm hy _).vput ..).vput ..)

theorem State.memWf.execStopk (h : s.memWf) (d : Bool) (r a b : BitVec 6) : Leads (execStopk d r a b s) :=
  h.run fun _ h => good_check fun _ => good_bind (h.vsrc a) fun _ hx => done_ok ((State.memWf.setPerm hx _).vput ..)

theorem State.memWf.vint2 (h : s.memWf) (d : Bool) (r a b : BitVec 6) (k : BitVec 3) (op : W32 → Nat → Nat → Nat) :
    GoodDone (s.vint2 d r a b k op) := h.vec2 ..

theorem State.memWf.execVext (h : s.memWf) (a b : BitVec 6) : Leads (execVext a b s) :=
  h.run fun _ h => good_check fun _ => good_check fun _ => good_bind (h.vsrc a) fun _ hx => good_bind (State.memWf.vsrc hx b) fun _ hy =>
    done_ok (State.memWf.setTm hy _)

theorem State.memWf.execVins (h : s.memWf) (d : Bool) (r a b : BitVec 6) : Leads (execVins d r a b s) :=
  h.run fun _ h => good_check fun _ => good_check fun _ => good_check fun _ => good_bind (h.vsrc a) fun _ hx =>
    good_bind (State.memWf.vsrc hx b) fun _ hy => good_bind (State.memWf.popNamed hy _) fun _ hz => done_ok (State.memWf.vput hz ..)

theorem State.memWf.execVmlog (h : s.memWf) (d : Bool) (m : BitVec 3) (a b : BitVec 6) (f : BitVec 3) : Leads (execVmlog d m a b f s) :=
  h.run fun _ h => good_ite (good_check fun _ => good_bind (h.vsrc a) fun _ hx => done_ok (State.memWf.putMask hx ..)) (done_ok (h.putMask ..))

theorem State.memWf.execSlip (h : s.memWf) (i : BitVec 10) : Leads (execSlip i s) := h.run fun _ h => done_ok (State.memWf.ite (h.setTm _) h)

theorem State.memWf.execAlign (h : s.memWf) (t : Tag) : Leads (execAlign t s) := h.run fun _ h => done_ok (State.memWf.ite h (h.setTm _))

theorem State.memWf.execFmtc (h : s.memWf) (t : Tag) (i : BitVec 10) : Leads (execFmtc t i s) :=
  h.run fun _ h => done_ok (State.memWf.ite (h.setTm _) h)

end Machine

end Sys2Proof

/-! SUPPORT. Every instruction keeps the memories canonical, and so does every step. -/

namespace Sys2Proof

namespace Machine

variable {s u v : State} {w : Who} {ea : W64}

theorem leads_exec (h : s.memWf) (i : Instr) : Leads (exec i s) :=
  match i with
  | .nop .. => h.run fun _ h => done_ok h
  | .add .. => h.run fun _ h => h.frameK ..
  | .addi .. => h.run fun _ h => h.frameI ..
  | .sub .. => h.run fun _ h => h.frameK ..
  | .mul .. => h.run fun _ h => h.frameK ..
  | .div .. => h.run fun _ h => h.frameK ..
  | .andK .. => h.run fun _ h => h.frameK ..
  | .andi .. => h.run fun _ h => h.frameI ..
  | .orK .. => h.run fun _ h => h.frameK ..
  | .ori .. => h.run fun _ h => h.frameI ..
  | .xorK .. => h.run fun _ h => h.frameK ..
  | .xori .. => h.run fun _ h => h.frameI ..
  | .shl .. => h.run fun _ h => h.frameK ..
  | .shli .. => h.run fun _ h => h.frameI ..
  | .shr .. => h.run fun _ h => h.frameK ..
  | .shri .. => h.run fun _ h => h.frameI ..
  | .sra .. => h.run fun _ h => h.frameK ..
  | .srai .. => h.run fun _ h => h.frameI ..
  | .minK .. => h.run fun _ h => h.frameK ..
  | .maxK .. => h.run fun _ h => h.frameK ..
  | .cmp .. => h.run fun _ h => h.frameP ..
  | .cmpi .. => h.run fun _ h => h.frameP ..
  | .sel .. => h.run fun _ h => h.frameK ..
  | .li .. => h.run fun _ h => h.frameV ..
  | .lsi .. => h.run fun _ h => h.frameV ..
  | .bfx .. => h.run fun _ h => h.frameK ..
  | .bfi .. => h.run fun _ h => h.frameD ..
  | .bitc .. => h.run fun _ h => h.frameI ..
  | .plog .. => h.execPlog ..
  | .pmov .. => h.execPmov ..
  | .fadd .. => h.run fun _ h => h.frameK ..
  | .fmul .. => h.run fun _ h => h.frameK ..
  | .ffma .. => h.run fun _ h => h.frameD ..
  | .fmnx .. => h.run fun _ h => h.frameK ..
  | .fcmp .. => h.run fun _ h => h.frameP ..
  | .fcvt .. => h.run fun _ h => h.frameI ..
  | .br .. => h.execBr ..
  | .call .. => h.execCall ..
  | .ret .. => h.execRet ..
  | .jmpr .. => h.execJmpr ..
  | .loop .. => h.execLoop ..
  | .lbrk .. => h.execLbrk ..
  | .lcnt .. => h.run fun _ h => h.frameV ..
  | .slip .. => h.execSlip ..
  | .push .. => h.execPush ..
  | .pop .. => h.execPop ..
  | .align .. => h.execAlign ..
  | .fmtc .. => h.execFmtc ..
  | .time .. => h.run fun _ h => h.frameV ..
  | .waitt .. => h.execWaitt ..
  | .exit => h.execExit
  | .trap .. => h.execTrap ..
  | .ldb .. => h.run fun _ h => h.loadBody ..
  | .ldh .. => h.run fun _ h => h.loadBody ..
  | .ldw .. => h.run fun _ h => h.loadBody ..
  | .ldd .. => h.run fun _ h => h.loadBody ..
  | .ldbz .. => h.run fun _ h => h.loadBody ..
  | .ldhz .. => h.run fun _ h => h.loadBody ..
  | .ldwz .. => h.run fun _ h => h.loadBody ..
  | .stb .. => h.run fun _ h => h.storeBody ..
  | .sth .. => h.run fun _ h => h.storeBody ..
  | .stw .. => h.run fun _ h => h.storeBody ..
  | .std .. => h.run fun _ h => h.storeBody ..
  | .ldf .. => h.execLdf ..
  | .stf t d v a p o => h.execStf t d v a p o
  | .fefill .. => h.execFefill ..
  | .cpy .. => h.execCpy ..
  | .cpyw .. => h.execCpyw ..
  | .cpys .. => h.run fun _ h => h.frameI ..
  | .amo .. => h.run fun _ h => h.atomBody ..
  | .amow .. => h.run fun _ h => h.atomBody ..
  | .cas .. => h.run fun _ h => h.atomBody ..
  | .casw .. => h.run fun _ h => h.atomBody ..
  | .amof .. => h.run fun _ h => h.atomBody ..
  | .fence .. => h.execFence ..
  | .xfence .. => h.execXfence ..
  | .pref .. => h.execPref ..
  | .fjoin .. => h.execFjoin ..
  | .fleave => h.execFleave
  | .fbar .. => h.execFbar ..
  | .fred .. => h.execFred ..
  | .xph => h.execXph
  | .xmit .. => h.execXmit ..
  | .msel .. => h.execMsel ..
  | .xend => h.execXend
  | .bopen .. => h.execBopen ..
  | .bgive .. => h.execBgive ..
  | .bdup .. => h.execBdup ..
  | .bdrop .. => h.execBdrop ..
  | .binfo .. => h.execBinfo ..
  | .nparam .. => h.execNparam ..
  | .inst .. => h.execInst ..
  | .signal .. => h.execSignal ..
  | .cfr .. => h.run fun _ h => h.frameV ..
  | .cfw .. => h.execCfw ..
  | .halt => h.execHalt
  | .tlbi .. => h.execTlbi ..
  | .eret => h.execEret
  | .vadd .. => h.run fun _ h => h.vfloat2 ..
  | .vsub .. => h.run fun _ h => h.vfloat2 ..
  | .vmul .. => h.run fun _ h => h.vfloat2 ..
  | .vfma .. => h.run fun _ h => h.vfused ..
  | .vfnma .. => h.run fun _ h => h.vfused ..
  | .vmin .. => h.run fun _ h => h.vfloat2 ..
  | .vmax .. => h.run fun _ h => h.vfloat2 ..
  | .vuna .. => h.run fun _ h => h.vfloat1 ..
  | .vcmp .. => h.run fun _ h => h.vecMask ..
  | .vsel .. => h.run fun _ h => h.vec2 ..
  | .vcvt .. => h.run fun _ h => h.vec1 ..
  | .vrcp .. => h.run fun _ h => h.vfloat1 ..
  | .vrsq .. => h.run fun _ h => h.vfloat1 ..
  | .vexp2 .. => h.run fun _ h => h.vfloat1 ..
  | .vlog2 .. => h.run fun _ h => h.vfloat1 ..
  | .vscl2 .. => h.run fun _ h => h.vec2 ..
  | .vdot .. => h.run fun _ h => h.vec2 ..
  | .vdota .. => h.run fun _ h => h.vec3 ..
  | .vrsum .. => h.run fun _ h => h.vec1 ..
  | .vrmax .. => h.run fun _ h => h.vec1 ..
  | .vscan .. => h.run fun _ h => h.vec1 ..
  | .vperm .. => h.run fun _ h => h.vec2 ..
  | .vrot .. => h.run fun _ h => h.vec2 ..
  | .vbcast .. => h.run fun _ h => h.vec2 ..
  | .viadd .. => h.run fun _ h => h.vint2 ..
  | .visub .. => h.run fun _ h => h.vint2 ..
  | .vimul .. => h.run fun _ h => h.vint2 ..
  | .vand .. => h.run fun _ h => h.vec2 ..
  | .vor .. => h.run fun _ h => h.vec2 ..
  | .vxor .. => h.run fun _ h => h.vec2 ..
  | .vshl .. => h.run fun _ h => h.vint2 ..
  | .vshr .. => h.run fun _ h => h.vint2 ..
  | .vsra .. => h.run fun _ h => h.vint2 ..
  | .vimnx .. => h.run fun _ h => h.vec1 ..
  | .vicmp .. => h.run fun _ h => h.vecMask ..
  | .vpack .. => h.run fun _ h => h.vec2 ..
  | .vunpk .. => h.run fun _ h => h.vec1 ..
  | .ldv .. => h.execLdv ..
  | .stv .. => h.execStv ..
  | .vgath .. => h.run fun _ h => h.gatherBody ..
  | .vscat .. => h.execVscat ..
  | .vmset .. => h.run fun _ h => done_ok (h.setTm _)
  | .vmlog .. => h.execVmlog ..
  | .vmov .. => h.run fun _ h => h.vec1 ..
  | .viota .. => h.run fun _ h => h.vec2 ..
  | .vext .. => h.execVext ..
  | .vins .. => h.execVins ..
  | .pset .. => h.execPset ..
  | .pgo .. => h.execPgo ..
  | .phalt .. => h.execPhalt ..
  | .pstat .. => h.run fun _ h => h.frameV ..
  | .vqnt .. => h.run fun _ h => h.vec2 ..
  | .vdqnt .. => h.run fun _ h => h.vec2 ..
  | .mpath .. => h.execMpath ..
  | .csrw .. => h.execCsrw ..
  | .segsum .. => h.run fun _ h => h.vec3 ..
  | .segcar .. => h.run fun _ h => h.vec2 ..
  | .vgathx .. => h.run fun _ h => h.gatherBody ..
  | .sbit .. => h.execSbit ..
  | .smrg .. => h.execSmrg ..
  | .skey .. => h.run fun _ h => h.vec1 ..
  | .stopk .. => h.execStopk ..
  | .spay .. => h.run fun _ h => h.vec2 ..
  | .clease => h.execClease
  | .crel => h.execCrel
  | .ccfg .. => h.run fun _ h => done_ok (h.setTm _)
  | .tri .. => h.execTri ..
  | .mma .. => h.execMma ..
  | .accz => h.run fun _ h => done_ok (h.setTm _)
  | .accst .. => h.execAccst ..
  | .tzero .. => h.execTzero ..
  | .tshape .. => h.execTshape ..
  | .tld .. => h.run fun _ h => h.tileXfer ..
  | .tst .. => h.run fun _ h => h.tileXfer ..
  | .tcvt .. => h.execTcvt ..
  | .teadd .. => h.run fun _ h => h.elemOp ..
  | .temul .. => h.run fun _ h => h.elemOp ..
  | .temax .. => h.run fun _ h => h.elemOp ..
  | .tesub .. => h.run fun _ h => h.elemOp ..
  | .tred .. => h.execTred ..
  | .tix .. => h.execTix ..
  | .cwait => h.run fun _ h => done_ok h
  | .tbcast .. => h.execTbcast ..
  | .mrowz .. => h.execMrowz ..
  | .mrowc .. => h.execMrowc ..
  | .mloc .. => h.execMloc ..
  | .minv .. => h.execMinv ..
  | .mcomp .. => h.execMcomp ..
  | .mexpd .. => h.execMexpd ..
  | .mscrb .. => h.execMscrb ..
  | .mmig .. => h.execMmig ..
  | .mred .. => h.execMred ..
  | .mfill .. => h.execMfill ..
  | .mstat .. => h.run fun _ h => h.frameV ..
  | .rfetch .. => h.execRfetch ..
  | .bfxm .. => h.execBfxm ..
  | .swait .. => h.execSwait ..
  | .disp .. => h.execDisp ..
  | .qsave .. => h.execQsave ..
  | .qload .. => h.execQload ..
  | .gdec .. => h.execGdec ..
  | .glnch .. => h.execGlnch ..
  | .brnew .. => h.execBrnew ..
  | .brfree .. => h.execBrfree ..
  | .flknew .. => h.execFlknew ..
  | .fltpop .. => h.execFltpop ..
  | .resume .. => h.execResume ..
  | .kill .. => h.execKill ..
  | .qmap .. => h.execQmap ..
  | .prio .. => h.execPrio ..
  | .loopEnd => h.execLoopEnd
  | .loadPerform => h.execLoadPerform
  | .storePerform => h.execStorePerform
  | .copyFaultHold => h.execCopyFaultHold
  | .copyComplete => h.execCopyComplete
  | .polledWaitRetry => h.execPolledWaitRetry
  | .waittExpire => h.execWaittExpire
  | .slipRelease => h.execSlipRelease
  | .portOperandFetch => h.execPortOperandFetch
  | .writePortWrite => h.execWritePortWrite
  | .tileTransferEffect => h.execTileTransferEffect
  | .leaseGrant => h.execLeaseGrant
  | .leaseBudgetExpiry => h.execLeaseBudgetExpiry
  | .leaseIdleExpiry => h.execLeaseIdleExpiry
  | .flockJoinMessage => h.execFlockJoinMessage
  | .flockLeaveMessage => h.execFlockLeaveMessage
  | .flockArrivalMessage => h.execFlockArrivalMessage
  | .planeLoadComplete => h.execPlaneLoadComplete
  | .teamComplete => h.execTeamComplete
  | .preemptRequest => h.execPreemptRequest
  | .longWaitSwap => h.execLongWaitSwap
  | .teamSaveComplete => h.execTeamSaveComplete
  | .teamRequeue => h.execTeamRequeue
  | .nodeDispatch => h.execNodeDispatch
  | .instanceComplete => h.execInstanceComplete
  | .ageingInterval => h.execAgeingInterval
  | .graphUpload => h.execGraphUpload
  | .graphUnload => h.execGraphUnload
  | .launchTrigger => h.execLaunchTrigger
  | .launchStart => h.execLaunchStart
  | .launchEnd => h.execLaunchEnd
  | .timedLaunchPreplace => h.execTimedLaunchPreplace
  | .timedLaunchFire => h.execTimedLaunchFire
  | .gangCommit => h.execGangCommit
  | .gangRollbackTimeout => h.execGangRollbackTimeout
  | .kick => leads_next (h.kickQueue ..)
  | .packetLaunch => leads_next (h.examine ..)
  | .packetRelaunch => leads_next (h.examine ..)
  | .packetTimedLaunch => leads_next (h.examine ..)
  | .packetBarrierAnd => leads_next (h.examine ..)
  | .barrierAndRelease => h.execBarrierAndRelease
  | .packetSignal => leads_next (h.examine ..)
  | .packetNop => leads_next (h.examine ..)
  | .faultRecordEnqueue => h.execFaultRecordEnqueue
  | .swaitTimeout => h.execSwaitTimeout
  | .tlbiInvalidateMessage => h.execTlbiInvalidateMessage
  | .tlbiAck => h.execTlbiAck
  | .pageWalk => h.execPageWalk
  | .l2Fill => h.execL2Fill
  | .directoryRequest => h.execDirectoryRequest
  | .sliceAtomic => h.execSliceAtomic
  | .homeLineWrite => h.execHomeLineWrite
  | .homeLineRead => h.execHomeLineRead
  | .pageExpansion => h.execPageExpansion
  | .extentAdd => h.execExtentAdd
  | .extentReleaseRequest => h.execExtentReleaseRequest
  | .releaseSweep => h.execReleaseSweep
  | .releaseSweepTimeout => h.execReleaseSweepTimeout
  | .extentForcedRemoval => h.execExtentForcedRemoval
  | .cxlTimeout => leads_next (h.fail ..)
  | .flitSlot => h.execFlitSlot
  | .flitGroupReceive => h.execFlitGroupReceive
  | .linkReplay => h.execLinkReplay
  | .linkRetryFail => h.execLinkRetryFail
  | .linkRetrainComplete => h.execLinkRetrainComplete
  | .linkDownTimeout => h.execLinkDownTimeout
  | .clusterReset => leads_next (h.clusterReset ..)
  | .clusterResetSaveDeadline => h.execClusterResetSaveDeadline
  | .foldReset => h.execFoldReset
  | .packageReset => leads_next (h.restarted _)
  | .rstreqCluster => h.execRstreqCluster
  | .rstreqFold => h.execRstreqFold
  | .rstreqPackage => h.execRstreqPackage
  | .rstreqRelease => h.execRstreqRelease
  | .bootgo => h.execBootgo
  | .firmwareCoreStart => h.execFirmwareCoreStart
  | .attestationRequest => leads_next (.ite h (h.setMgmt rfl rfl rfl))
  | .mailboxMessage => h.execMailboxMessage
  | .dieDegrade => h.execDieDegrade
  | .dieRetirement => h.execDieRetirement
  | .coreWatchdog => h.execCoreWatchdog
  | .firmwareWatchdog => h.execFirmwareWatchdog
  | .nodeDeadline => h.execNodeDeadline
  | .clusterWatchdog => h.execClusterWatchdog
  | .foldWatchdog => h.execFoldWatchdog
  | .fwkick => leads_next (h.setDrvSame _ rfl)
  | .thermalThrottle => h.execThermalThrottle
  | .thermalRetire => h.execThermalRetire
  | .powerBrownout => leads_next (h.restarted _)
  | .powerRecover => leads_next (.ite (h.restarted _) h)
  | .elogclr => leads_next (.ite (h.setDie _ rfl) h)
  | .tmslew => leads_next (h.setMgmt rfl rfl rfl)
  | .tmset => leads_next (.ite h h)
  | .ptpEventTimestamp => h.execPtpEventTimestamp
  | .ptmExchange => leads_next (.ite (h.timeSeen _) h)
  | .timeSourceLoss => leads_next (.ite (h.setMgmt rfl rfl rfl) h)
  | .hostApertureAccess => h.execHostApertureAccess
  | .hostAccessTimeout => leads_next (h.fail ..)
  | .peerRequestReceive => h.execPeerRequestReceive
  | .peerRequestForward => h.execPeerRequestForward
  | .remoteTimeout => leads_next (h.fail ..)
  | .collectiveKick => leads_next (h.takeDesc ..)
  | .allReduce => h.execAllReduce
  | .reduceScatter => h.execReduceScatter
  | .allGather => h.execAllGather
  | .collectiveBroadcast => h.execCollectiveBroadcast
  | .collectiveBarrier => h.execCollectiveBarrier
  | .collectivePartialReceive => h.execCollectivePartialReceive
  | .collectiveComplete => h.execCollectiveComplete
  | .collectiveTimeout => h.execCollectiveTimeout
  | .registerWrite => h.execRegisterWrite
  | .l1Eviction => h.execL1Eviction
  | .powerCapping => leads_next (h.setMgmt rfl rfl rfl)
  | .hostPortLinkDown => leads_next (h.setMgmt rfl rfl rfl)
  | .hostPortLinkUp => h.execHostPortLinkUp
  | .gangStart => h.execGangStart
  | .bootStagingWrite => h.execBootStagingWrite
  | .softError => h.execSoftError

theorem State.memWf.setTurn (h : s.memWf) (c : CoreId) (σ : Strand) : ({ s with cur := c, strand := σ } : State).memWf := h

theorem State.memWf.setEv (h : s.memWf) (x : EvArg) : ({ s with ev := x } : State).memWf := h

theorem State.memWf.issueStep (h : s.memWf) (c : CoreId) (σ : Strand) : Leads (issueStep c σ s) := by
  refine leads_ite ?_ (leads_next h)
  split
  · exact leads_exec (h.setEv _) _
  · exact leads_next (h.setTurn c σ).pastEnd
  · split
    · exact leads_next (((h.setTurn c σ).atWord _).badWord _)
    · exact leads_exec ((h.setTurn c σ).atWord _) _

theorem State.memWf.setLapse (h : s.memWf) (x : Option (Nat × Nat)) : ({ s with lapse := x } : State).memWf := h

theorem State.memWf.moveStep (h : s.memWf) (m : Sched) : Leads (moveStep m s) := by
  induction m generalizing s with
  | issue c σ => exact h.issueStep c σ
  | step i x => exact leads_ite (leads_next h) (leads_exec (h.setEv x) i)
  | copyWord c e => exact leads_next (h.copyWord ..)
  | unmap d asid buf => exact leads_next (h.unmapStep ..)
  | signal d req st => exact leads_next (h.signalAgain ..)
  | trigger d gid => exact leads_next (h.triggerAgain ..)
  | late k a m ih =>
    have hm := ih (h.setLapse (some (k, a)))
    rw [Machine.moveStep]
    split
    · next t ht => exact leads_next ((hm.of t ht).setLapse none)
    · exact hm

theorem State.memWf.tick (h : s.memWf) : s.tick.memWf := h.setMgmt rfl rfl rfl

theorem State.memWf.nextMove (h : s.memWf) : s.nextMove.2.memWf := by
  unfold State.nextMove
  split
  · split <;> exact h
  · exact h

theorem leads_step (h : s.memWf) : Leads (step s) := by
  unfold step
  split
  · exact (h.tick.setAgenda _).moveStep _
  · exact h.nextMove.tick.moveStep _

end Machine

open Host Machine

/-- Settles O8: each operation on the state keeps every memory canonical, by the lemma on what the memory system and each update changes; an
instruction is a composition of them, and a step executes one instruction or one entry of the agenda. -/
theorem everyStepKeepsTheMemoriesCanonical : Obligations.EveryStepKeepsTheMemoriesCanonical := by
  unfold Obligations.EveryStepKeepsTheMemoriesCanonical
  exact fun _ t hs ht => (leads_step hs).of t ht

end Sys2Proof
